-- ==== Sys2Proof/Word.lean ====
section
/-! DEFINITION. The word types of the device (00_scope R11, R12) and the type of its sparse tables. -/

namespace Sys2Proof

/-- One byte of a memory, a register or a message. -/
abbrev Byte := BitVec 8

/-- A word of an instruction or a command: 32 bits (00_scope, Notation and units). -/
abbrev Word := BitVec 32

/-- A register of the device: 64 bits (00_scope, Notation and units). -/
abbrev Reg := BitVec 64

/-- A sparse table in canonical form: keys strictly rising, no entry equal to what an unlisted key reads as. -/
abbrev Map (α : Type) := List (Nat × α)

/-- Sign extension to a register. -/
def sext {n : Nat} (v : BitVec n) : Reg := v.signExtend 64

/-- Zero extension to a register. -/
def zext {n : Nat} (v : BitVec n) : Reg := v.setWidth 64

end Sys2Proof
end

