-- ==== Sys2Proof/Syntax.lean ====
section
/-! DEFINITION. The commands of the block: one constructor for each row of spec/opcode_table.json, with the data that
comes from outside when the row's event happens.

Operand names used throughout: `c` logical core ID (R8), `rd ra rb func imm` fields of the instruction word (R205),
`e` engine (R10), `k` identity of an outstanding transfer, `q` host queue, `j` job, `p` port, `f` flit or flow,
`sec` whether the access is made by the secure world (R315), `v` value written. -/

namespace Sys2Proof

/-- A fabric flit, header fields of 12_optical_fabric R391 and its payload bytes. `fixed` is no part of the flit: it says how many
symbols the decoder corrected in the codeword that brought it (R389), 0 where an earlier flit of that codeword said so and in a flit
that is sent. -/
structure Flit where
  type : BitVec 3
  lseq : BitVec 12
  ackseq : BitVec 12
  last : Bool
  pmask : BitVec 8
  dst : BitVec 12
  src : BitVec 12
  flow : BitVec 12
  fseq : BitVec 12
  len : BitVec 8
  hops : BitVec 4
  fixed : BitVec 4
  payload : List Byte
deriving DecidableEq, Repr

/-- A host-link flit, header fields of 14_host_interface R456 and its payload bytes; `fixed` as in `Flit`. -/
structure HFlit where
  type : BitVec 4
  lseq : BitVec 12
  ackseq : BitVec 12
  tag : BitVec 10
  addr : BitVec 40
  len : BitVec 13
  status : BitVec 2
  last : Bool
  fixed : BitVec 4
  payload : List Byte
deriving DecidableEq, Repr

/-- A residue mismatch found while a command runs (04_matrix_array R141): the elements (row·48 + column) that the failing
operation touched, and where it was found, as MX_RESIDUE.LAST_WHERE codes it. -/
structure Mismatch where
  elems : List Nat
  place : BitVec 2
deriving DecidableEq, Repr

/-- The check that finds an error (15_faults_sparing R484): the code of HBM (R303), the code of the lake (R311), the code of a core's pond, instruction memory and other state, the parity of its paths. -/
inductive Check where
  | hbm
  | lake
  | coreEcc
  | parity
deriving DecidableEq, Repr

/-- An error that a check finds: the device address of the granule or word (a core's state has its addresses in the core's
window), whether it could not be corrected, and the check. -/
structure MemErr where
  addr : Nat
  uncorrectable : Bool
  check : Check := .hbm
deriving DecidableEq, Repr

/-- The commands. -/
inductive Instr where
  /-- NOP (R206). The control core issues a NOP instruction, which does nothing for one cycle. -/
  | nop (c : Nat)
  /-- ALU (R209). The control core computes a register-register integer operation selected by func. -/
  | alu (c : Nat) (rd : BitVec 5) (ra : BitVec 5) (rb : BitVec 5) (func : BitVec 11)
  /-- ADDI (R211). The control core adds a sign-extended immediate to a register. -/
  | addi (c : Nat) (rd : BitVec 5) (ra : BitVec 5) (imm : BitVec 16)
  /-- ANDI (R211). The control core ANDs a register with a zero-extended immediate. -/
  | andi (c : Nat) (rd : BitVec 5) (ra : BitVec 5) (imm : BitVec 16)
  /-- ORI (R211). The control core ORs a register with a zero-extended immediate. -/
  | ori (c : Nat) (rd : BitVec 5) (ra : BitVec 5) (imm : BitVec 16)
  /-- XORI (R211). The control core XORs a register with a zero-extended immediate. -/
  | xori (c : Nat) (rd : BitVec 5) (ra : BitVec 5) (imm : BitVec 16)
  /-- SHLI (R211). The control core shifts a register left by an immediate amount. -/
  | shli (c : Nat) (rd : BitVec 5) (ra : BitVec 5) (imm : BitVec 16)
  /-- SHRI (R211). The control core shifts a register right logically by an immediate amount. -/
  | shri (c : Nat) (rd : BitVec 5) (ra : BitVec 5) (imm : BitVec 16)
  /-- SARI (R211). The control core shifts a register right arithmetically by an immediate amount. -/
  | sari (c : Nat) (rd : BitVec 5) (ra : BitVec 5) (imm : BitVec 16)
  /-- MULI (R211). The control core multiplies a register by a sign-extended immediate. -/
  | muli (c : Nat) (rd : BitVec 5) (ra : BitVec 5) (imm : BitVec 16)
  /-- LUI (R211). The control core loads a sign-extended immediate shifted left by 16. -/
  | lui (c : Nat) (rd : BitVec 5) (imm : BitVec 16)
  /-- SHORI (R211). The control core shifts a register left by 16 and ORs in an immediate. -/
  | shori (c : Nat) (rd : BitVec 5) (ra : BitVec 5) (imm : BitVec 16)
  /-- CMP (R212). The control core compares two registers and combines the result into a predicate. -/
  | cmp (c : Nat) (rd : BitVec 5) (ra : BitVec 5) (rb : BitVec 5) (func : BitVec 11)
  /-- CMPI (R213). The control core compares a register with an immediate into a predicate. -/
  | cmpi (c : Nat) (pd : BitVec 3) (cond : BitVec 2) (ra : BitVec 5) (imm : BitVec 16)
  /-- PLOG (R214). The control core combines two predicates into a third. -/
  | plog (c : Nat) (rd : BitVec 5) (ra : BitVec 5) (rb : BitVec 5) (func : BitVec 11)
  /-- MFS (R204). The control core reads a special register into a general register. -/
  | mfs (c : Nat) (rd : BitVec 5) (imm : BitVec 16)
  /-- MTS (R204). The control core writes a general register into a special register. -/
  | mts (c : Nat) (ra : BitVec 5) (imm : BitVec 16)
  /-- LD8 (R215). The control core loads one zero-extended byte from the pond. -/
  | ld8 (c : Nat) (rd : BitVec 5) (ra : BitVec 5) (imm : BitVec 16)
  /-- LD16 (R215). The control core loads two zero-extended bytes from the pond. -/
  | ld16 (c : Nat) (rd : BitVec 5) (ra : BitVec 5) (imm : BitVec 16)
  /-- LD32 (R215). The control core loads four zero-extended bytes from the pond. -/
  | ld32 (c : Nat) (rd : BitVec 5) (ra : BitVec 5) (imm : BitVec 16)
  /-- LD64 (R215). The control core loads eight bytes from the pond. -/
  | ld64 (c : Nat) (rd : BitVec 5) (ra : BitVec 5) (imm : BitVec 16)
  /-- LDS8 (R215). The control core loads one sign-extended byte from the pond. -/
  | lds8 (c : Nat) (rd : BitVec 5) (ra : BitVec 5) (imm : BitVec 16)
  /-- LDS16 (R215). The control core loads two sign-extended bytes from the pond. -/
  | lds16 (c : Nat) (rd : BitVec 5) (ra : BitVec 5) (imm : BitVec 16)
  /-- LDS32 (R215). The control core loads four sign-extended bytes from the pond. -/
  | lds32 (c : Nat) (rd : BitVec 5) (ra : BitVec 5) (imm : BitVec 16)
  /-- ST8 (R215). The control core stores one byte to the pond. -/
  | st8 (c : Nat) (rd : BitVec 5) (ra : BitVec 5) (imm : BitVec 16)
  /-- ST16 (R215). The control core stores two bytes to the pond. -/
  | st16 (c : Nat) (rd : BitVec 5) (ra : BitVec 5) (imm : BitVec 16)
  /-- ST32 (R215). The control core stores four bytes to the pond. -/
  | st32 (c : Nat) (rd : BitVec 5) (ra : BitVec 5) (imm : BitVec 16)
  /-- ST64 (R215). The control core stores eight bytes to the pond. -/
  | st64 (c : Nat) (rd : BitVec 5) (ra : BitVec 5) (imm : BitVec 16)
  /-- BR (R219). The control core branches on a predicate, optionally linking in g31. -/
  | br (c : Nat) (l : Bool) (n : Bool) (p : BitVec 3) (off : BitVec 21)
  /-- JR (R220). The control core jumps to a register target and writes a link. -/
  | jr (c : Nat) (rd : BitVec 5) (ra : BitVec 5)
  /-- LOOP (R221). The control core starts a hardware loop on a counter. -/
  | loop (c : Nat) (n : BitVec 2) (isImm : Bool) (len : BitVec 11) (count : BitVec 12)
  /-- CSET (R225). The control core inserts a bit field into a staging register. -/
  | cset (c : Nat) (rd : BitVec 5) (ra : BitVec 5) (lsb : BitVec 5) (func : BitVec 11)
  /-- CSETI (R226). The control core writes an immediate into one half of a staging register. -/
  | cseti (c : Nat) (rd : BitVec 5) (imm : BitVec 16)
  /-- PUSH (R227). The control core enqueues a command built from c0 to c7 into an engine queue. -/
  | push (c : Nat) (ra : BitVec 5)
  /-- PUSH_STALL_END (R228). A PUSH or STEP stalled on a full queue completes once an entry frees. -/
  | pushStallEnd (c : Nat)
  /-- QLVL (R229). The control core reads the number of commands in a queue. -/
  | qlvl (c : Nat) (rd : BitVec 5) (e : BitVec 2)
  /-- QDUE (R230). The control core arms the due stamp of an engine. -/
  | qdue (c : Nat) (ra : BitVec 5) (e : BitVec 2)
  /-- FSET (R238). The control core sets a local flag. -/
  | fset (c : Nat) (ra : BitVec 5) (imm : BitVec 14)
  /-- FCLR (R238). The control core clears a local flag. -/
  | fclr (c : Nat) (ra : BitVec 5) (imm : BitVec 14)
  /-- FTST (R238). The control core copies a local flag into a predicate. -/
  | ftst (c : Nat) (rd : BitVec 5) (ra : BitVec 5) (imm : BitVec 14)
  /-- FWAIT (R238). The control core stalls until a local flag is set. -/
  | fwait (c : Nat) (rd : BitVec 5) (ra : BitVec 5) (imm : BitVec 14)
  /-- FWAIT_RELEASE (R238). A stalled FWAIT finds its flag set and continues with g[rd] = 0. -/
  | fwaitRelease (c : Nat)
  /-- CTRADD (R239). The control core sends an addition to a sync counter and stalls for the reply. -/
  | ctradd (c : Nat) (rd : BitVec 5) (ra : BitVec 5) (rb : BitVec 5) (func : BitVec 11)
  /-- CTRADD_REPLY (R368). The sync block's reply to a CTRADD or SLARR arrives and the control core continues. -/
  | ctraddReply (c : Nat)
  /-- CTRWAIT (R239). The control core stalls until a counter reaches its operand. -/
  | ctrwait (c : Nat) (rd : BitVec 5) (ra : BitVec 5) (rb : BitVec 5) (func : BitVec 11)
  /-- CTRWAIT_RELEASE (R370). The sync block releases a waiter whose counter condition holds. -/
  | ctrwaitRelease (c : Nat)
  /-- SLARR (R372). The control core arrives at a sluice and receives the phase sense. -/
  | slarr (c : Nat) (rd : BitVec 5) (ra : BitVec 5) (func : BitVec 11)
  /-- SLWAIT (R374). The control core waits for a sluice phase of a given sense to complete. -/
  | slwait (c : Nat) (rd : BitVec 5) (ra : BitVec 5) (rb : BitVec 5) (func : BitVec 11)
  /-- SLWAIT_RELEASE (R373). A completed sluice phase releases a waiting SLWAIT. -/
  | slwaitRelease (c : Nat)
  /-- EVT (R240). The control core posts a program event record. -/
  | evt (c : Nat) (ra : BitVec 5) (imm : BitVec 14)
  /-- STEP (R241). The control core ends the step, places implicit waits and stalls for the outcome. -/
  | step (c : Nat)
  /-- HALT (R246). The control core stops fetching and lets queued commands finish. -/
  | halt (c : Nat)
  /-- UNASSIGNED_OPCODE (R207). A word with an unassigned opcode executes as NOP and counts in CC_UNDEF. -/
  | unassignedOpcode (c : Nat) (w : BitVec 32)
  /-- IDLE (R277). An engine starts an IDLE command, optionally waiting for a flag. -/
  | idle (c : Nat) (e : Nat)
  /-- IDLE_COMPLETE (R277). An IDLE completes its count after its start or after finding its flag set. -/
  | idleComplete (c : Nat) (e : Nat)
  /-- MMA (R258). The matrix engine starts a matrix product into a well bank. -/
  | mma (c : Nat) (mis : Option Mismatch)
  /-- MMA_COMPLETE (R131). An MMA completes and the bank's totals become final. -/
  | mmaComplete (c : Nat)
  /-- DRAIN (R120). The drain path starts converting a bank's totals into an output tile. -/
  | drain (c : Nat)
  /-- DRAIN_COMPLETE (R131). A DRAIN completes writing its output tile and counts. -/
  | drainComplete (c : Nat)
  /-- DRAIN_RECORD_COMPLETE (R157). The span-wide drain record becomes complete in every member. -/
  | drainRecordComplete (c : Nat)
  /-- WSTORE (R126). The drain path starts writing a bank to a well tile. -/
  | wstore (c : Nat)
  /-- WSTORE_COMPLETE (R131). A WSTORE completes writing its well tile. -/
  | wstoreComplete (c : Nat)
  /-- WLOAD (R127). The drain path starts loading or adding a well tile into a bank. -/
  | wload (c : Nat) (mis : Option Mismatch)
  /-- WLOAD_COMPLETE (R131). A WLOAD completes. -/
  | wloadComplete (c : Nat)
  /-- VOP (R174). The vector engine starts an elementwise operation. -/
  | vop (c : Nat)
  /-- VOP_COMPLETE (R170). A VOP completes and writes its count record if requested. -/
  | vopComplete (c : Nat)
  /-- VRED (R178). The vector engine starts an exact reduction. -/
  | vred (c : Nat)
  /-- VRED_COMPLETE (R170). A VRED completes. -/
  | vredComplete (c : Nat)
  /-- RNG_FILL (R191). The vector engine starts filling a tile with random values. -/
  | rngFill (c : Nat)
  /-- RNG_FILL_COMPLETE (R189). An RNG FILL completes and a free cursor advances. -/
  | rngFillComplete (c : Nat)
  /-- RNG_KEY (R192). A stream slot's key and kind are loaded from the pond. -/
  | rngKey (c : Nat)
  /-- RNG_BIND (R192). A stream slot's micro-batch index is set. -/
  | rngBind (c : Nat)
  /-- RNG_SEEK (R192). A stream slot's cursor is set from the pond. -/
  | rngSeek (c : Nat)
  /-- UPD (R194). The vector engine starts an optimiser update of a shard. -/
  | upd (c : Nat)
  /-- UPD_COMPLETE (R170). An UPD completes. -/
  | updComplete (c : Nat)
  /-- LDT (R267). The stream engine starts copying a tensor region into a pond tile. -/
  | ldt (c : Nat) (errs : List MemErr)
  /-- LDT_COMPLETE (R270). An LDT's data is complete in the pond and its flag is set. -/
  | ldtComplete (c : Nat) (k : Nat)
  /-- STT (R267). The stream engine starts copying a pond tile into a tensor region. -/
  | stt (c : Nat)
  /-- STT_COMPLETE (R270). An STT has read its data, adds fingerprints and sets its flag. -/
  | sttComplete (c : Nat) (k : Nat)
  /-- PRF (R271). The stream engine starts prefetching a region into the lake cache. -/
  | prf (c : Nat)
  /-- PRF_SCAN (R115). The stream engine starts a scan of A and B for an anchor. -/
  | prfScan (c : Nat)
  /-- PRF_COMPLETE (R271). A PRF, with or without scan, completes and sets its flag. -/
  | prfComplete (c : Nat) (k : Nat)
  /-- SEND (R272). The stream engine starts sending a tile's packed image on a flow. -/
  | send (c : Nat)
  /-- SEND_COMPLETE (R272). Every byte of a SEND has entered the retransmit buffer and its flag is set. -/
  | sendComplete (c : Nat) (k : Nat)
  /-- RECV (R272). The stream engine starts taking the next message of a flow. -/
  | recv (c : Nat)
  /-- RECV_COMPLETE (R272). A received message is written to the pond and the flag is set. -/
  | recvComplete (c : Nat) (k : Nat)
  /-- COLL_REDUCE_SCATTER (R431). A reduce-scatter collective starts on a channel. -/
  | collReduceScatter (c : Nat)
  /-- COLL_ALL_GATHER (R429). An all-gather collective starts on a channel. -/
  | collAllGather (c : Nat)
  /-- COLL_ALL_REDUCE (R437). An all-reduce collective starts on a channel. -/
  | collAllReduce (c : Nat)
  /-- COLL_BROADCAST (R429). A broadcast collective from rank 0 starts on a channel. -/
  | collBroadcast (c : Nat)
  /-- COLL_MESSAGE (R433). A collective ring message arrives and is checked and combined. -/
  | collMessage (flow : Nat)
  /-- COLL_COMPLETE (R273). A COLL's result is final and its flag is set. -/
  | collComplete (c : Nat) (k : Nat)
  /-- FLAG_WAIT (R274). The stream engine waits for a local flag, optionally consuming it. -/
  | flagWait (c : Nat)
  /-- FLAG_SET (R274). A FLAG command sets a flag once earlier stream commands complete. -/
  | flagSet (c : Nat)
  /-- FLAG_CLR (R274). A FLAG command clears a flag once earlier stream commands complete. -/
  | flagClr (c : Nat)
  /-- FLAG_CTRADD (R274). A FLAG command adds to a sync counter once earlier stream commands complete. -/
  | flagCtradd (c : Nat)
  /-- FLAG_ACTION_DUE (R274). A deferred FLAG SET, CLR or CTRADD acts when the earlier stream commands have completed. -/
  | flagActionDue (c : Nat) (k : Nat)
  /-- RSVPUSH (R334). The reservoir engine starts staging a tile as a channel entry. -/
  | rsvpush (c : Nat)
  /-- RSVPUSH_COMPLETE (R276). An RSVPUSH completes its copy into the staging area. -/
  | rsvpushComplete (c : Nat)
  /-- RSVPOP (R337). The reservoir engine starts popping the top entry of a channel. -/
  | rsvpop (c : Nat)
  /-- RSVPOP_COMPLETE (R337). An RSVPOP completes and frees its staging space. -/
  | rsvpopComplete (c : Nat)
  /-- RSV_ENTRY_WRITTEN (R334). The reservoir path finishes writing a staged entry to channel memory. -/
  | rsvEntryWritten (c : Nat)
  /-- RSV_ENTRY_STAGED (R336). The reservoir path finishes fetching an entry into the staging area. -/
  | rsvEntryStaged (c : Nat)
  /-- PREFETCH_FILL (R313). A trained prefetch tracker fills a line into the lake cache. -/
  | prefetchFill (c : Nat) (t : Nat)
  /-- DESCRIPTOR_FETCH (R289). A descriptor fetched for a pushed command arrives in the descriptor cache. -/
  | descriptorFetch (c : Nat) (handle : Nat)
  /-- FREEZE_RAISE (R159). At a skewed stamp less F, an empty queue or unset flag wait raises a freeze. -/
  | freezeRaise (c : Nat)
  /-- FREEZE_EFFECT (R160). A raised freeze takes effect F cycles later in every span member. -/
  | freezeEffect (c : Nat)
  /-- FREEZE_END (R162). The span resumes F ticks after its last freeze condition clears. -/
  | freezeEnd (c : Nat)
  /-- STEP_ARRIVAL (R241). A core arrives at the step boundary when the commands ahead of its implicit waits complete. -/
  | stepArrival (c : Nat)
  /-- SPAN_ACTIVATE (R146). A held launch activates its span once every core is free. -/
  | spanActivate (q : Nat)
  /-- LAUNCH_END (R246). A launch ends when every member's queues have emptied after HALT. -/
  | launchEnd (sp : Nat)
  /-- COMMIT_EXCHANGE_ENTER (R508). A module enters the commit all-reduce once all spans arrived and the limit allows. -/
  | commitExchangeEnter (j : Nat)
  /-- STEP_BARRIER_TIMEOUT (R510). The step barrier timer expires and aborts or parks the job. -/
  | stepBarrierTimeout (j : Nat)
  /-- FLAG_TIMEOUT (R383). A flag-class wait reaches its timeout. -/
  | flagTimeout (c : Nat) (eng : Option Nat)
  /-- COUNTER_TIMEOUT (R383). A CTRWAIT reaches its counter-class timeout. -/
  | counterTimeout (c : Nat)
  /-- SLUICE_TIMEOUT (R383). An SLWAIT reaches its sluice-class timeout. -/
  | sluiceTimeout (c : Nat)
  /-- TOKEN_TIMEOUT (R383). A sluice round waiting for its token reaches its timeout. -/
  | tokenTimeout (obj : Nat)
  /-- FLIT_DATA (R410). A DATA flit arrives and is accepted, relayed or discarded by its flow position. -/
  | flitData (p : Nat) (f : Flit)
  /-- FLIT_FACK (R410). A FACK arrives and advances acknowledgement and credit. -/
  | flitFack (p : Nat) (f : Flit)
  /-- FLIT_TOKEN (R375). A sluice token arrives on a flow and counts toward its round. -/
  | flitToken (p : Nat) (f : Flit)
  /-- ATTEMPT_MARKER (R447). An attempt marker arrives and updates the flow's record or aborts the step. -/
  | attemptMarker (p : Nat) (f : Flit)
  /-- FLIT_LNAK (R394). A link LNAK arrives and the transmitter replays from the named flit. -/
  | flitLnak (p : Nat) (f : Flit)
  /-- FLIT_CRC_FAIL (R393). A flit fails its CRC or codeword and the receiver discards and sends LNAK. -/
  | flitCrcFail (p : Nat)
  /-- LCREDIT (R396). A link credit message arrives and returns relay or local credit. -/
  | lcredit (p : Nat) (f : Flit)
  /-- SWAP_REQ (R402). A lane swap request arrives and the lane moves to a spare wavelength. -/
  | swapReq (p : Nat) (f : Flit)
  /-- SWAP_ACK (R401). A swap acknowledgement arrives and the receiver maps the lane. -/
  | swapAck (p : Nat) (f : Flit)
  /-- LMGT_WIDTH (R404). A WIDTH message arrives and the port retrains at the named width. -/
  | lmgtWidth (p : Nat) (f : Flit)
  /-- LMGT_RETRAIN (R397). A RETRAIN message arrives and the port enters RETRAIN. -/
  | lmgtRetrain (p : Nat) (f : Flit)
  /-- HELLO (R398). A HELLO arrives and sets the receive map and partner address. -/
  | hello (p : Nat) (f : Flit)
  /-- NACK (R417). A NACK of a link management kind arrives. -/
  | nack (p : Nat) (f : Flit)
  /-- LINK_REPLAY_TIMEOUT (R394). The oldest unacknowledged flit waits out the replay timer and is resent. -/
  | linkReplayTimeout (p : Nat)
  /-- TRAINING_STATE_COMPLETE (R397). A port completes a training state and moves to the next. -/
  | trainingStateComplete (p : Nat)
  /-- TRAINING_STATE_TIMEOUT (R397). A training state exceeds its limit and the attempt fails. -/
  | trainingStateTimeout (p : Nat)
  /-- DOWN_RETRY (R397). The 10 s retry timer starts a new set of attempts for a DOWN port. -/
  | downRetry (p : Nat)
  /-- ABRUPT_LOSS (R402). A lane loses light or fails 64 codewords and the receiver requests an abrupt swap. -/
  | abruptLoss (p : Nat) (lane : Nat)
  /-- RING_MARGIN_LOW (R400). A ring heater runs out of margin and a planned swap starts. -/
  | ringMarginLow (p : Nat) (lane : Nat)
  /-- SWAP_SWITCH (R401). Both sides switch a planned swap at the named codeword, or cancel it. -/
  | swapSwitch (p : Nat)
  /-- LANE_SWAP_TIMEOUT (R402). A swap not complete in time makes the link retrain. -/
  | laneSwapTimeout (p : Nat)
  /-- SOURCE_FAILURE (R403). A laser source fails and the pilot begins tuning the spare source. -/
  | sourceFailure (p : Nat) (w : Nat)
  /-- SPARE_TUNING_COMPLETE (R403). The spare source is tuned and the wavelength returns as a spare. -/
  | spareTuningComplete (p : Nat)
  /-- SPARE_TUNING_TIMEOUT (R403). Tuning not complete in 20 ms marks the spare source failed. -/
  | spareTuningTimeout (p : Nat)
  /-- FLOW_RETRANSMIT_TIMEOUT (R412). A flow's oldest unacknowledged flit times out and go-back-N resends. -/
  | flowRetransmitTimeout (f : Nat)
  /-- FLOW_PROBE_TIMEOUT (R412). A transmitter held by credit sends a FACK with PROBE. -/
  | flowProbeTimeout (f : Nat)
  /-- FLOW_LATE_TIMEOUT (R413). A RECV or COLL waits out its late timeout. -/
  | flowLateTimeout (f : Nat)
  /-- RANK_REMAP_APPLY (R416). The pilot changes a rank map entry once every flow to the rank is closed or reset. -/
  | rankRemapApply (rank : Nat)
  /-- CKPT_DATA (R520). A checkpoint data message arrives and the holder writes it into a slot. -/
  | ckptData (f : Nat)
  /-- CKPT_END_OF_DATA (R520). The end-of-data message arrives and the holder writes the commit record and acknowledges. -/
  | ckptEndOfData (f : Nat)
  /-- CKPT_ACK (R520). The acknowledgement arrives, the partner copy completes and the job resumes. -/
  | ckptAck (f : Nat)
  /-- CKPT_RESTORE_REQUEST (R526). A restore request arrives and the holder answers from its valid generation. -/
  | ckptRestoreRequest (f : Nat)
  /-- CKPT_ABSENT (R526). An absent answer arrives and the restore fails with RESULT 3. -/
  | ckptAbsent (f : Nat)
  /-- CKPT_RESTORE_DATA_DONE (R527). A restore's data has arrived and is checked and written, and VX_STEP is set. -/
  | ckptRestoreDataDone (j : Nat)
  /-- SNAPSHOT_COPY_COMPLETE (R523). The scribe finishes copying the state set into the snapshot region. -/
  | snapshotCopyComplete (j : Nat)
  /-- FLASH_WRITE_COMPLETE (R523). The flash controller finishes writing a snapshot generation to local flash. -/
  | flashWriteComplete (j : Nat) (bad : Nat)
  /-- MWR (R459). A host memory write flit arrives and writes through a window. -/
  | mwr (f : HFlit)
  /-- MRD (R458). A host memory read flit arrives and is answered with CPL flits. -/
  | mrd (f : HFlit)
  /-- DBELL (R463). A doorbell flit sets a host queue's tail. -/
  | dbell (f : HFlit)
  /-- HOST_CREDIT (R457). A CREDIT flit returns host link credit. -/
  | hostCredit (f : HFlit)
  /-- HOST_LNAK (R457). A host link LNAK arrives and the device replays. -/
  | hostLnak (f : HFlit)
  /-- LINKID (R455). A LINKID management message arrives during ALIGN. -/
  | linkid (f : HFlit)
  /-- MGMT_WIDTH (R455). A host WIDTH management message arrives and the host port retrains at 4 lanes. -/
  | mgmtWidth (f : HFlit)
  /-- GET_VERSION (R482). Keeper answers an SPDM GET_VERSION request. -/
  | getVersion
  /-- GET_CAPABILITIES (R482). Keeper answers an SPDM GET_CAPABILITIES request. -/
  | getCapabilities
  /-- NEGOTIATE_ALGORITHMS (R482). Keeper answers an SPDM NEGOTIATE_ALGORITHMS request. -/
  | negotiateAlgorithms
  /-- GET_DIGESTS (R482). Keeper answers an SPDM GET_DIGESTS request. -/
  | getDigests
  /-- GET_CERTIFICATE (R482). Keeper returns the identity certificate chain of slot 0. -/
  | getCertificate (slot : Nat) (off : Nat) (len : Nat)
  /-- CHALLENGE (R482). Keeper answers an SPDM CHALLENGE with the identity key. -/
  | challenge (slot : Nat) (nonce : List (BitVec 8))
  /-- GET_MEASUREMENTS (R546). Keeper returns the measurements, signed when requested. -/
  | getMeasurements (index : Nat) (signed : Bool) (nonce : List (BitVec 8))
  /-- SPDM_UNSUPPORTED_REQUEST (R482). Keeper answers any other SPDM request with UnsupportedRequest. -/
  | spdmUnsupportedRequest (code : Nat)
  /-- PROGRAM (R464). A PROGRAM entry is taken and its block broadcast to the span's instruction memories. -/
  | program (q : Nat)
  /-- PROGRAM_COMPLETE (R464). Every member holds every word of a PROGRAM block. -/
  | programComplete (q : Nat)
  /-- LAUNCH (R464). A LAUNCH entry is taken and held until its span can activate. -/
  | launch (q : Nat)
  /-- STEP_ENTRY (R465). A STEP entry sets the job's commit limit and checkpoint request. -/
  | stepEntry (q : Nat)
  /-- FLOW_OPEN (R409). A CONTROL FLOW_OPEN entry opens a flow. -/
  | flowOpen (q : Nat)
  /-- FLOW_CLOSE (R409). A CONTROL FLOW_CLOSE entry closes a flow. -/
  | flowClose (q : Nat)
  /-- FLOW_RESET (R415). A CONTROL FLOW_RESET entry resets and reopens a flow. -/
  | flowReset (q : Nat)
  /-- KILL (R465). A CONTROL KILL entry kills the queue's job. -/
  | kill (q : Nat)
  /-- RESUME (R478). A CONTROL RESUME entry resumes an orphaned job. -/
  | resume (q : Nat)
  /-- FENCE (R465). A CONTROL FENCE entry completes once earlier entries have completed. -/
  | fence (q : Nat)
  /-- NOP_ENTRY (R463). A NOP queue entry is taken. -/
  | nopEntry (q : Nat)
  /-- ATTACH (R475). A write to HI_LEASE_ATTACH takes or reattaches the lease. -/
  | attach (sec : Bool) (v : BitVec 64)
  /-- RENEW (R475). A write to HI_LEASE_RENEW restarts the lease count. -/
  | renew (sec : Bool) (v : BitVec 64)
  /-- LEASE_EXPIRY (R476). The lease count expires, messages and queue reads stop. -/
  | leaseExpiry
  /-- HQPTR_WRITE (R463). A write to HI_HQPTR sets a queue tail as a doorbell or frees completion records. -/
  | hqptrWrite (sec : Bool) (q : Nat) (v : BitVec 64)
  /-- HQCFG_WRITE (R479). A write to HI_HQCFG configures a queue, resets its pointers and may end isolation. -/
  | hqcfgWrite (sec : Bool) (q : Nat) (v : BitVec 64)
  /-- EVPTR_WRITE (R468). A write to HI_EVPTR.HEAD frees event records and may send an MSG. -/
  | evptrWrite (sec : Bool) (v : BitVec 64)
  /-- LOGPTR_WRITE (R468). A write to HI_LOGPTR.HEAD frees log records. -/
  | logptrWrite (sec : Bool) (v : BitVec 64)
  /-- SRPTR_WRITE (R515). A write to FW_SRPTR.HEAD frees step record slots and may release a held job. -/
  | srptrWrite (sec : Bool) (j : Nat) (v : BitVec 64)
  /-- SLOGPTR_WRITE (R575). A secure write to FW_SLOGPTR.HEAD frees secure log records. -/
  | slogptrWrite (sec : Bool) (v : BitVec 64)
  /-- RING_CONFIG_WRITE (R470). A write to a ring's configuration resets its pointers or enables it and drains pending records. -/
  | ringConfigWrite (sec : Bool) (addr : Nat) (v : BitVec 64)
  /-- SY_OCFG_WRITE (R379). A write to SY_OCFG configures a sync object and clears its state. -/
  | syOcfgWrite (sec : Bool) (n : Nat) (v : BitVec 64)
  /-- SY_OVAL_WRITE (R370). A write to a counter's SY_OVAL sets it and evaluates waiters. -/
  | syOvalWrite (sec : Bool) (n : Nat) (v : BitVec 64)
  /-- SY_OADD_WRITE (R372). A write to SY_OADD adds to a counter or arrives at a sluice. -/
  | syOaddWrite (sec : Bool) (n : Nat) (v : BitVec 64)
  /-- NW_SPAN_WRITE (R145). A write to a span table entry clamps its fields and decides VALID. -/
  | nwSpanWrite (sec : Bool) (k : Nat) (v : BitVec 64)
  /-- RV_CHANBASE_WRITE (R345). A write to RV_CHANBASE sets the base, zeroes DEPTH and discards staged entries. -/
  | rvChanbaseWrite (sec : Bool) (c : Nat) (ch : Nat) (v : BitVec 64)
  /-- RV_CHAN_WRITE (R335). A write to RV_CHAN sets LIMIT and DEPTH and may end a limit wait. -/
  | rvChanWrite (sec : Bool) (c : Nat) (ch : Nat) (v : BitVec 64)
  /-- RV_STAGE_WRITE (R331). A write to RV_STAGE sets the staging area and discards staged entries. -/
  | rvStageWrite (sec : Bool) (c : Nat) (v : BitVec 64)
  /-- FB_PROFILE_WRITE (R453). A write to FB_PROFILE makes the pilot rebuild every route. -/
  | fbProfileWrite (sec : Bool) (v : BitVec 64)
  /-- FB_ROUTE_WRITE (R408). A write to FB_ROUTE changes routes for later frames. -/
  | fbRouteWrite (sec : Bool) (n : Nat) (v : BitVec 64)
  /-- FB_RANKMAP_WRITE (R416). A write to FB_RANKMAP changes a rank's address for later frames. -/
  | fbRankmapWrite (sec : Bool) (n : Nat) (v : BitVec 64)
  /-- PORT_ENABLE (R397). A write to FB_PCTL.ENABLE turns a port off or starts its training. -/
  | portEnable (sec : Bool) (p : Nat) (v : BitVec 64)
  /-- PORT_RETRAIN (R397). A write of FB_PCTL.RETRAIN retrains an ACTIVE port. -/
  | portRetrain (sec : Bool) (p : Nat) (v : BitVec 64)
  /-- FB_CCFG_WRITE (R454). A write to a collective channel applies from its next COLL. -/
  | fbCcfgWrite (sec : Bool) (ch : Nat) (v : BitVec 64)
  /-- RELEASE (R448). A write of FB_JOBPOL.RELEASE resumes a parked job at step entry. -/
  | release (sec : Bool) (j : Nat) (v : BitVec 64)
  /-- CHECKPOINT_NOW (R519). FW_CKCTL OP 1 starts a checkpoint of a parked job. -/
  | checkpointNow (sec : Bool) (j : Nat) (v : BitVec 64)
  /-- RESTORE_FROM_PARTNER (R526). FW_CKCTL OP 2 requests a restore from the partner module. -/
  | restoreFromPartner (sec : Bool) (j : Nat) (v : BitVec 64)
  /-- RESTORE_FROM_FLASH (R526). FW_CKCTL OP 3 starts a restore from local flash. -/
  | restoreFromFlash (sec : Bool) (j : Nat) (v : BitVec 64)
  /-- RESTORE_FROM_SNAPSHOT (R526). FW_CKCTL OP 4 starts a restore from the snapshot region. -/
  | restoreFromSnapshot (sec : Bool) (j : Nat) (v : BitVec 64)
  /-- RELEASE_SNAPSHOT (R524). FW_CKCTL OP 5 releases a held snapshot. -/
  | releaseSnapshot (sec : Bool) (j : Nat) (v : BitVec 64)
  /-- INVALIDATE (R559). A write of FW_BOOTCTL.INVALIDATE erases the saved settings. -/
  | invalidate (sec : Bool) (v : BitVec 64)
  /-- FUNCTION_LEVEL_RESET (R567). A write of FW_FLR.GO starts a function-level reset. -/
  | functionLevelReset (sec : Bool) (v : BitVec 64)
  /-- FLR_COMPLETE (R567). The function-level reset's zeroing ends and FLR clears. -/
  | flrComplete
  /-- PER_CORE_RESET (R568). A write of FW_CORERST.GO resets a core or its whole span and kills its job. -/
  | perCoreReset (sec : Bool) (v : BitVec 64)
  /-- IMAGE_UPDATE_GO (R540). A write of FW_UPDLEN.GO starts copying and checking a new image. -/
  | imageUpdateGo (sec : Bool) (v : BitVec 64)
  /-- IMAGE_UPDATE_CHECKED (R540). Keeper finishes checking an update image and refuses it or begins writing. -/
  | imageUpdateChecked
  /-- IMAGE_UPDATE_WRITTEN (R540). Keeper finishes writing the update image to the boot flash. -/
  | imageUpdateWritten
  /-- KEEPER_REQUEST (R547). A write of FW_KCTL.GO submits a secure setting request to keeper. -/
  | keeperRequest (sec : Bool) (v : BitVec 64)
  /-- KEEPER_REQUEST_DONE (R549). Keeper finishes an admitted request, including any world clearing work. -/
  | keeperRequestDone
  /-- NW_FENCEREQ (R485). A write of NW_FENCEREQ.GO makes a core suspect with reason 7. -/
  | nwFencereq (sec : Bool) (v : BitVec 64)
  /-- RECOVERY_WRITE (R538). FL_RECOVCTL.WRITE programs the recovery buffer into the image area. -/
  | recoveryWrite (sec : Bool) (v : BitVec 64)
  /-- RECOVERY_WRITE_DONE (R538). ROM finishes programming a recovery range. -/
  | recoveryWriteDone
  /-- RECOVERY_FINISH (R538). FL_RECOVCTL.FINISH checks the new image and restarts or stays in recovery. -/
  | recoveryFinish (sec : Bool) (v : BitVec 64)
  /-- SW_REGION_WRITE (R319). A secure write to a world or region register changes worlds, zeroing regions made non-secure. -/
  | swRegionWrite (sec : Bool) (addr : Nat) (v : BitVec 64)
  /-- REGION_ZEROING_COMPLETE (R319). Zeroing of a region made non-secure ends and the change takes effect. -/
  | regionZeroingComplete
  /-- CORE_WINDOW_IMEM_WRITE (R249). A core-window write to instruction memory tags the word with epoch 0. -/
  | coreWindowImemWrite (sec : Bool) (c : Nat) (idx : Nat) (v : BitVec 32)
  /-- CORE_WINDOW_POND_ACCESS (R298). A core-window access reaches the pond through the stream engine's slots. -/
  | coreWindowPondAccess (sec : Bool) (c : Nat) (off : Nat) (len : Nat) (wr : Option (List (BitVec 8)))
  /-- REGISTER_WRITE (R582). A write to a register with no behaviour of its own sets its fields after clamping. -/
  | registerWrite (sec : Bool) (addr : Nat) (v : BitVec 64)
  /-- POISON_KILL (R326). A consumption reaches the steward, which halts the job and posts the kill. -/
  | poisonKill (j : Nat)
  /-- ROW_FENCE (R491). Once every job of a row is held, the steward shifts the row's map and state. -/
  | rowFence (y : Nat)
  /-- ROW_SHIFT_COMPLETE (R491). A row's state move ends and its new map applies. -/
  | rowShiftComplete (y : Nat)
  /-- MESH_LINK_ERROR (R484). A mesh flit fails its parity and is resent, counting a link retry. -/
  | meshLinkError (pc : Nat)
  /-- ERROR_DECAY (R485). The steward halves every core's corrected-error and link counters. -/
  | errorDecay
  /-- PAGE_RETIRED_COPY_DONE (R305). A retired page's copy ends and its map switches. -/
  | pageRetiredCopyDone (mc : Nat)
  /-- PCH_SPARE_COPY_DONE (R306). A pseudo-channel sparing copy ends. -/
  | pchSpareCopyDone (mc : Nat)
  /-- PATROL_SCRUB (R308). The patrol scrub reads and corrects or poisons granules over its period. -/
  | patrolScrub (mc : Nat) (errs : List MemErr)
  /-- GOVERNOR_INTERVAL (R502). Every microsecond the governor sets stretch for waking and ramping units. -/
  | governorInterval
  /-- THERMAL_EVALUATION (R591). Every millisecond the thermal throttle evaluates Tmax and sets its request. -/
  | thermalEvaluation (temps : List Int)
  /-- POWER_CAP_EVALUATION (R592). Every millisecond the power cap evaluates input power and adjusts its request. -/
  | powerCapEvaluation (vin : Nat) (iin : Nat) (pin : Nat)
  /-- WATCHDOG_EXPIRY (R571). A firmware processor's watchdog expires and it crashes. -/
  | watchdogExpiry (fp : Nat)
  /-- FW_RESTART_COMPLETE (R572). Keeper finishes restarting a crashed processor or moves its role to the spare. -/
  | fwRestartComplete (fp : Nat) (ok : Bool)
  /-- KEEPER_ROM_RESTART_COMPLETE (R573). ROM finishes reloading a crashed keeper. -/
  | keeperRomRestartComplete
  /-- POWER_ON_RESET (R598). VIN rising through 39.0 V starts the standby rail and a power-on reset. -/
  | powerOnReset
  /-- RST_N_ASSERT (R566). RST_N going low holds the device in warm reset. -/
  | rstNAssert
  /-- RST_N_DEASSERT (R586). RST_N rising samples the straps and begins start-up. -/
  | rstNDeassert (feed : Nat) (slot : Nat)
  /-- VIN_LOW_TIMEOUT (R594). VIN below 40.0 V for over 100 µs causes a warm reset with cause 3. -/
  | vinLowTimeout
  /-- VIN_RESTORED (R598). VIN returning to 40.0 V ends the held warm reset. -/
  | vinRestored
  /-- VIN_BELOW_36 (R598). VIN below 36.0 V switches every die rail off. -/
  | vinBelow36
  /-- REFCLK_LOSS (R594). Loss of REFCLK, or PLL lock lost over 10 µs, causes a warm reset with cause 2. -/
  | refclkLoss
  /-- REFCLK_RESTORED (R594). The reference returns and the PLL locks, releasing the held reset. -/
  | refclkRestored
  /-- THERMAL_TRIP (R602). The junction reaching 115 °C switches the rails off and asserts THERMTRIP_N. -/
  | thermalTrip
  /-- FIRMWARE_SELF_TEST_DONE (R536). Stage 0 ends with fuse read, processor self-test and role assignment. -/
  | firmwareSelfTestDone (failed : List Bool) (temp : Nat)
  /-- IMAGE_CHECK_DONE (R534). Stage 1 ends with the image loaded and checked, or recovery mode entered. -/
  | imageCheckDone
  /-- POWER_WAVE (R552). Each 50 µs a further wave of two physical rows is powered. -/
  | powerWave (k : Nat)
  /-- STACK_POWER_UP (R553). An HBM stack is powered, 10 ms after the previous one. -/
  | stackPowerUp (k : Nat)
  /-- LASER_BANK_POWER_UP (R553). A laser bank is powered, 15 ms after the previous one. -/
  | laserBankPowerUp (p : Nat)
  /-- BIST_DONE (R563). Stage 3 ends and keeper compares BIST failures with the start history. -/
  | bistDone (failures : List Nat)
  /-- HBM_TRAINING_DONE (R560). Stage 4 ends with every stack trained, from saved values or cold. -/
  | hbmTrainingDone (failedSaved : List Nat)
  /-- MEMORY_TEST_DONE (R555). Stage 5 ends with repair, retirement and sparing done. -/
  | memoryTestDone (mc : Nat) (pages : List Nat) (pchs : List Nat) (uncorr : Nat)
  /-- OPTICAL_TUNING_DONE (R554). Stage 6 ends when every port has reached ACTIVE or failed a first attempt. -/
  | opticalTuningDone
  /-- STARTUP_COMPLETE (R556). Stage 7 ends, start-up completes and the device accepts work. -/
  | startupComplete
  /-- SMBUS_READ_IDENTITY (R605). An SMBus Block Read of code 0x00 returns the device word and serial. -/
  | smbusReadIdentity
  /-- SMBUS_READ_STATUS (R605). An SMBus Read Word of code 0x01 returns power, reset and start status. -/
  | smbusReadStatus
  /-- SMBUS_READ_TMAX (R605). An SMBus Read Word of code 0x02 returns Tmax. -/
  | smbusReadTmax
  /-- SMBUS_READ_VIN (R605). An SMBus Read Word of code 0x03 returns VIN. -/
  | smbusReadVin
  /-- SMBUS_READ_IIN (R605). An SMBus Read Word of code 0x04 returns IIN. -/
  | smbusReadIin
  /-- SMBUS_READ_PIN (R605). An SMBus Read Word of code 0x05 returns input power. -/
  | smbusReadPin
  /-- SMBUS_READ_RESETCAUSE (R605). An SMBus Read Byte of code 0x06 returns the reset cause. -/
  | smbusReadResetcause
  /-- SMBUS_READ_FEED_ID (R605). An SMBus Read Byte of code 0x07 returns FEED_ID. -/
  | smbusReadFeedId
  /-- SMBUS_ALERT_RESPONSE (R604). A read of the Alert Response Address is answered with 0x4A while the alert is pending. -/
  | smbusAlertResponse
  /-- SMBUS_NACK (R605). Any other code or any write has its command byte NACKed. -/
  | smbusNack (code : Nat) (write : Bool)
  /-- PROCESSOR_CRASH (R571). A firmware processor double-faults, or an uncorrectable error strikes its memory, and it crashes. -/
  | processorCrash (fp : Nat)
  /-- LCREDIT_INTERVAL (R396). A link receiver sends LCREDIT, or CREDIT on the host link, when 256 flit times have passed since its last credit message. -/
  | lcreditInterval (p : Nat)
deriving DecidableEq, Repr

end Sys2Proof
end

