-- ==== Sys2Proof/WellFormed.lean ====
section
/-! DEFINITION. Well-formed commands: the operands that name a part of the device name one that a device can have, and
the data from outside has the length its format gives it. A command that is not well-formed names nothing, so its event
does not happen (log 1). -/

namespace Sys2Proof

/-- An optional number below a bound. -/
def optBelow (o : Option Nat) (n : Nat) : Bool := match o with | none => true | some x => decide (x < n)

/-- A fabric flit has at most 240 payload bytes (R391); payload bytes that are not given are 0. -/
def flitWf (f : Flit) : Bool :=
  decide (f.payload.length ≤ 240)

/-- A host-link flit has at most 240 payload bytes (R456). -/
def hflitWf (f : HFlit) : Bool := decide (f.payload.length ≤ 240)

/-- A residue mismatch names elements of a bank (R110, R141). -/
def misWf (m : Option Mismatch) : Bool := match m with | none => true | some m => m.elems.all (fun i => decide (i < 2304))

/-- Data of the stated length. -/
def optLen (w : Option (List Byte)) (n : Nat) : Bool := match w with | none => true | some l => decide (l.length = n)

/-- Whether a command's operands are well-formed. -/
def Instr.wf : Instr → Bool
  | .nop c => decide (c < 1024)
  | .alu c _ _ _ _ => decide (c < 1024)
  | .addi c _ _ _ => decide (c < 1024)
  | .andi c _ _ _ => decide (c < 1024)
  | .ori c _ _ _ => decide (c < 1024)
  | .xori c _ _ _ => decide (c < 1024)
  | .shli c _ _ _ => decide (c < 1024)
  | .shri c _ _ _ => decide (c < 1024)
  | .sari c _ _ _ => decide (c < 1024)
  | .muli c _ _ _ => decide (c < 1024)
  | .lui c _ _ => decide (c < 1024)
  | .shori c _ _ _ => decide (c < 1024)
  | .cmp c _ _ _ _ => decide (c < 1024)
  | .cmpi c _ _ _ _ => decide (c < 1024)
  | .plog c _ _ _ _ => decide (c < 1024)
  | .mfs c _ _ => decide (c < 1024)
  | .mts c _ _ => decide (c < 1024)
  | .ld8 c _ _ _ => decide (c < 1024)
  | .ld16 c _ _ _ => decide (c < 1024)
  | .ld32 c _ _ _ => decide (c < 1024)
  | .ld64 c _ _ _ => decide (c < 1024)
  | .lds8 c _ _ _ => decide (c < 1024)
  | .lds16 c _ _ _ => decide (c < 1024)
  | .lds32 c _ _ _ => decide (c < 1024)
  | .st8 c _ _ _ => decide (c < 1024)
  | .st16 c _ _ _ => decide (c < 1024)
  | .st32 c _ _ _ => decide (c < 1024)
  | .st64 c _ _ _ => decide (c < 1024)
  | .br c _ _ _ _ => decide (c < 1024)
  | .jr c _ _ => decide (c < 1024)
  | .loop c _ _ _ _ => decide (c < 1024)
  | .cset c _ _ _ _ => decide (c < 1024)
  | .cseti c _ _ => decide (c < 1024)
  | .push c _ => decide (c < 1024)
  | .pushStallEnd c => decide (c < 1024)
  | .qlvl c _ _ => decide (c < 1024)
  | .qdue c _ _ => decide (c < 1024)
  | .fset c _ _ => decide (c < 1024)
  | .fclr c _ _ => decide (c < 1024)
  | .ftst c _ _ _ => decide (c < 1024)
  | .fwait c _ _ _ => decide (c < 1024)
  | .fwaitRelease c => decide (c < 1024)
  | .ctradd c _ _ _ _ => decide (c < 1024)
  | .ctraddReply c => decide (c < 1024)
  | .ctrwait c _ _ _ _ => decide (c < 1024)
  | .ctrwaitRelease c => decide (c < 1024)
  | .slarr c _ _ _ => decide (c < 1024)
  | .slwait c _ _ _ _ => decide (c < 1024)
  | .slwaitRelease c => decide (c < 1024)
  | .evt c _ _ => decide (c < 1024)
  | .step c => decide (c < 1024)
  | .halt c => decide (c < 1024)
  | .unassignedOpcode c _ => decide (c < 1024)
  | .idle c e => decide (c < 1024 ∧ e < 4)
  | .idleComplete c e => decide (c < 1024 ∧ e < 4)
  | .mma c mis => decide (c < 1024 ∧ misWf mis)
  | .mmaComplete c => decide (c < 1024)
  | .drain c => decide (c < 1024)
  | .drainComplete c => decide (c < 1024)
  | .drainRecordComplete c => decide (c < 1024)
  | .wstore c => decide (c < 1024)
  | .wstoreComplete c => decide (c < 1024)
  | .wload c mis => decide (c < 1024 ∧ misWf mis)
  | .wloadComplete c => decide (c < 1024)
  | .vop c => decide (c < 1024)
  | .vopComplete c => decide (c < 1024)
  | .vred c => decide (c < 1024)
  | .vredComplete c => decide (c < 1024)
  | .rngFill c => decide (c < 1024)
  | .rngFillComplete c => decide (c < 1024)
  | .rngKey c => decide (c < 1024)
  | .rngBind c => decide (c < 1024)
  | .rngSeek c => decide (c < 1024)
  | .upd c => decide (c < 1024)
  | .updComplete c => decide (c < 1024)
  | .ldt c _ => decide (c < 1024)
  | .ldtComplete c _ => decide (c < 1024)
  | .stt c => decide (c < 1024)
  | .sttComplete c _ => decide (c < 1024)
  | .prf c => decide (c < 1024)
  | .prfScan c => decide (c < 1024)
  | .prfComplete c _ => decide (c < 1024)
  | .send c => decide (c < 1024)
  | .sendComplete c _ => decide (c < 1024)
  | .recv c => decide (c < 1024)
  | .recvComplete c _ => decide (c < 1024)
  | .collReduceScatter c => decide (c < 1024)
  | .collAllGather c => decide (c < 1024)
  | .collAllReduce c => decide (c < 1024)
  | .collBroadcast c => decide (c < 1024)
  | .collMessage flow => decide (flow < 3072)
  | .collComplete c _ => decide (c < 1024)
  | .flagWait c => decide (c < 1024)
  | .flagSet c => decide (c < 1024)
  | .flagClr c => decide (c < 1024)
  | .flagCtradd c => decide (c < 1024)
  | .flagActionDue c _ => decide (c < 1024)
  | .rsvpush c => decide (c < 1024)
  | .rsvpushComplete c => decide (c < 1024)
  | .rsvpop c => decide (c < 1024)
  | .rsvpopComplete c => decide (c < 1024)
  | .rsvEntryWritten c => decide (c < 1024)
  | .rsvEntryStaged c => decide (c < 1024)
  | .prefetchFill c t => decide (c < 1024 ∧ t < 8)
  | .descriptorFetch c _ => decide (c < 1024)
  | .freezeRaise c => decide (c < 1024)
  | .freezeEffect c => decide (c < 1024)
  | .freezeEnd c => decide (c < 1024)
  | .stepArrival c => decide (c < 1024)
  | .spanActivate q => decide (q < 256)
  | .launchEnd sp => decide (sp < 256)
  | .commitExchangeEnter j => decide (1 ≤ j ∧ j ≤ 63)
  | .stepBarrierTimeout j => decide (1 ≤ j ∧ j ≤ 63)
  | .flagTimeout c eng => decide (c < 1024 ∧ optBelow eng 4)
  | .counterTimeout c => decide (c < 1024)
  | .sluiceTimeout c => decide (c < 1024)
  | .tokenTimeout obj => decide (obj < 16384)
  | .flitData p f => decide (p < 9 ∧ flitWf f)
  | .flitFack p f => decide (p < 9 ∧ flitWf f)
  | .flitToken p f => decide (p < 9 ∧ flitWf f)
  | .attemptMarker p f => decide (p < 9 ∧ flitWf f)
  | .flitLnak p f => decide (p < 9 ∧ flitWf f)
  | .flitCrcFail p => decide (p < 9)
  | .lcredit p f => decide (p < 9 ∧ flitWf f)
  | .swapReq p f => decide (p < 9 ∧ flitWf f)
  | .swapAck p f => decide (p < 9 ∧ flitWf f)
  | .lmgtWidth p f => decide (p < 9 ∧ flitWf f)
  | .lmgtRetrain p f => decide (p < 9 ∧ flitWf f)
  | .hello p f => decide (p < 9 ∧ flitWf f)
  | .nack p f => decide (p < 9 ∧ flitWf f)
  | .linkReplayTimeout p => decide (p < 9)
  | .trainingStateComplete p => decide (p < 9)
  | .trainingStateTimeout p => decide (p < 9)
  | .downRetry p => decide (p < 9)
  | .abruptLoss p lane => decide (p < 9 ∧ lane < 18)
  | .ringMarginLow p lane => decide (p < 9 ∧ lane < 18)
  | .swapSwitch p => decide (p < 9)
  | .laneSwapTimeout p => decide (p < 9)
  | .sourceFailure p w => decide (p < 9 ∧ w ≤ if p = 8 then 9 else 18)
  | .spareTuningComplete p => decide (p < 9)
  | .spareTuningTimeout p => decide (p < 9)
  | .flowRetransmitTimeout f => decide (f < 3072)
  | .flowProbeTimeout f => decide (f < 3072)
  | .flowLateTimeout f => decide (f < 3072)
  | .rankRemapApply rank => decide (rank < 4096)
  | .ckptData f => decide (f < 3072)
  | .ckptEndOfData f => decide (f < 3072)
  | .ckptAck f => decide (f < 3072)
  | .ckptRestoreRequest f => decide (f < 3072)
  | .ckptAbsent f => decide (f < 3072)
  | .ckptRestoreDataDone j => decide (1 ≤ j ∧ j ≤ 63)
  | .snapshotCopyComplete j => decide (1 ≤ j ∧ j ≤ 63)
  | .flashWriteComplete j _ => decide (1 ≤ j ∧ j ≤ 63)
  | .mwr f => decide (hflitWf f)
  | .mrd f => decide (hflitWf f)
  | .dbell f => decide (hflitWf f)
  | .hostCredit f => decide (hflitWf f)
  | .hostLnak f => decide (hflitWf f)
  | .linkid f => decide (hflitWf f)
  | .mgmtWidth f => decide (hflitWf f)
  | .getVersion => true
  | .getCapabilities => true
  | .negotiateAlgorithms => true
  | .getDigests => true
  | .getCertificate _ _ _ => true
  | .challenge _ nonce => decide (nonce.length = 32)
  | .getMeasurements _ _ nonce => decide (nonce.length = 32)
  | .spdmUnsupportedRequest code => decide (code < 256)
  | .program q => decide (q < 256)
  | .programComplete q => decide (q < 256)
  | .launch q => decide (q < 256)
  | .stepEntry q => decide (q < 256)
  | .flowOpen q => decide (q < 256)
  | .flowClose q => decide (q < 256)
  | .flowReset q => decide (q < 256)
  | .kill q => decide (q < 256)
  | .resume q => decide (q < 256)
  | .fence q => decide (q < 256)
  | .nopEntry q => decide (q < 256)
  | .attach _ _ => true
  | .renew _ _ => true
  | .leaseExpiry => true
  | .hqptrWrite _ q _ => decide (q < 256)
  | .hqcfgWrite _ q _ => decide (q < 256)
  | .evptrWrite _ _ => true
  | .logptrWrite _ _ => true
  | .srptrWrite _ j _ => decide (1 ≤ j ∧ j ≤ 63)
  | .slogptrWrite _ _ => true
  | .ringConfigWrite _ addr _ => decide (addr < 2 ^ 40)
  | .syOcfgWrite _ n _ => decide (n < 16384)
  | .syOvalWrite _ n _ => decide (n < 16384)
  | .syOaddWrite _ n _ => decide (n < 16384)
  | .nwSpanWrite _ k _ => decide (k < 256)
  | .rvChanbaseWrite _ c ch _ => decide (c < 1024 ∧ ch < 32)
  | .rvChanWrite _ c ch _ => decide (c < 1024 ∧ ch < 32)
  | .rvStageWrite _ c _ => decide (c < 1024)
  | .fbProfileWrite _ _ => true
  | .fbRouteWrite _ n _ => decide (n < 256)
  | .fbRankmapWrite _ n _ => decide (n < 4096)
  | .portEnable _ p _ => decide (p < 9)
  | .portRetrain _ p _ => decide (p < 9)
  | .fbCcfgWrite _ ch _ => decide (ch < 1024)
  | .release _ j _ => decide (1 ≤ j ∧ j ≤ 63)
  | .checkpointNow _ j _ => decide (1 ≤ j ∧ j ≤ 63)
  | .restoreFromPartner _ j _ => decide (1 ≤ j ∧ j ≤ 63)
  | .restoreFromFlash _ j _ => decide (1 ≤ j ∧ j ≤ 63)
  | .restoreFromSnapshot _ j _ => decide (1 ≤ j ∧ j ≤ 63)
  | .releaseSnapshot _ j _ => decide (1 ≤ j ∧ j ≤ 63)
  | .invalidate _ _ => true
  | .functionLevelReset _ _ => true
  | .flrComplete => true
  | .perCoreReset _ _ => true
  | .imageUpdateGo _ _ => true
  | .imageUpdateChecked => true
  | .imageUpdateWritten => true
  | .keeperRequest _ _ => true
  | .keeperRequestDone => true
  | .nwFencereq _ _ => true
  | .recoveryWrite _ _ => true
  | .recoveryWriteDone => true
  | .recoveryFinish _ _ => true
  | .swRegionWrite _ addr _ => decide (addr < 2 ^ 40)
  | .regionZeroingComplete => true
  | .coreWindowImemWrite _ c idx _ => decide (c < 1024 ∧ idx < 16384)
  | .coreWindowPondAccess _ c off len wr => decide (c < 1024 ∧ off + len ≤ 196608 ∧ optLen wr len)
  | .registerWrite _ addr _ => decide (addr < 2 ^ 40)
  | .poisonKill j => decide (1 ≤ j ∧ j ≤ 63)
  | .rowFence y => decide (y < 32)
  | .rowShiftComplete y => decide (y < 32)
  | .meshLinkError pc => decide (pc < 1152)
  | .errorDecay => true
  | .pageRetiredCopyDone mc => decide (mc < 8)
  | .pchSpareCopyDone mc => decide (mc < 8)
  | .patrolScrub mc _ => decide (mc < 8)
  | .governorInterval => true
  | .thermalEvaluation temps => decide (temps.length = 16)
  | .powerCapEvaluation _ _ _ => true
  | .watchdogExpiry fp => decide (fp < 6)
  | .fwRestartComplete fp _ => decide (fp < 6)
  | .keeperRomRestartComplete => true
  | .powerOnReset => true
  | .rstNAssert => true
  | .rstNDeassert _ _ => true
  | .vinLowTimeout => true
  | .vinRestored => true
  | .vinBelow36 => true
  | .refclkLoss => true
  | .refclkRestored => true
  | .thermalTrip => true
  | .firmwareSelfTestDone failed _ => decide (failed.length = 6)
  | .imageCheckDone => true
  | .powerWave k => decide (k < 16)
  | .stackPowerUp k => decide (k < 8)
  | .laserBankPowerUp p => decide (p < 9)
  | .bistDone _ => true
  | .hbmTrainingDone _ => true
  | .memoryTestDone mc _ _ _ => decide (mc < 8)
  | .opticalTuningDone => true
  | .startupComplete => true
  | .smbusReadIdentity => true
  | .smbusReadStatus => true
  | .smbusReadTmax => true
  | .smbusReadVin => true
  | .smbusReadIin => true
  | .smbusReadPin => true
  | .smbusReadResetcause => true
  | .smbusReadFeedId => true
  | .smbusAlertResponse => true
  | .smbusNack code _ => decide (code < 256)
  | .processorCrash fp => decide (fp < 6)
  | .lcreditInterval p => decide (p < 9)

/-- The logical core a command names, if it names one. -/
def Instr.core? : Instr → Option Nat
  | .nop c => some c
  | .alu c _ _ _ _ => some c
  | .addi c _ _ _ => some c
  | .andi c _ _ _ => some c
  | .ori c _ _ _ => some c
  | .xori c _ _ _ => some c
  | .shli c _ _ _ => some c
  | .shri c _ _ _ => some c
  | .sari c _ _ _ => some c
  | .muli c _ _ _ => some c
  | .lui c _ _ => some c
  | .shori c _ _ _ => some c
  | .cmp c _ _ _ _ => some c
  | .cmpi c _ _ _ _ => some c
  | .plog c _ _ _ _ => some c
  | .mfs c _ _ => some c
  | .mts c _ _ => some c
  | .ld8 c _ _ _ => some c
  | .ld16 c _ _ _ => some c
  | .ld32 c _ _ _ => some c
  | .ld64 c _ _ _ => some c
  | .lds8 c _ _ _ => some c
  | .lds16 c _ _ _ => some c
  | .lds32 c _ _ _ => some c
  | .st8 c _ _ _ => some c
  | .st16 c _ _ _ => some c
  | .st32 c _ _ _ => some c
  | .st64 c _ _ _ => some c
  | .br c _ _ _ _ => some c
  | .jr c _ _ => some c
  | .loop c _ _ _ _ => some c
  | .cset c _ _ _ _ => some c
  | .cseti c _ _ => some c
  | .push c _ => some c
  | .pushStallEnd c => some c
  | .qlvl c _ _ => some c
  | .qdue c _ _ => some c
  | .fset c _ _ => some c
  | .fclr c _ _ => some c
  | .ftst c _ _ _ => some c
  | .fwait c _ _ _ => some c
  | .fwaitRelease c => some c
  | .ctradd c _ _ _ _ => some c
  | .ctraddReply c => some c
  | .ctrwait c _ _ _ _ => some c
  | .ctrwaitRelease c => some c
  | .slarr c _ _ _ => some c
  | .slwait c _ _ _ _ => some c
  | .slwaitRelease c => some c
  | .evt c _ _ => some c
  | .step c => some c
  | .halt c => some c
  | .unassignedOpcode c _ => some c
  | .idle c _ => some c
  | .idleComplete c _ => some c
  | .mma c _ => some c
  | .mmaComplete c => some c
  | .drain c => some c
  | .drainComplete c => some c
  | .drainRecordComplete c => some c
  | .wstore c => some c
  | .wstoreComplete c => some c
  | .wload c _ => some c
  | .wloadComplete c => some c
  | .vop c => some c
  | .vopComplete c => some c
  | .vred c => some c
  | .vredComplete c => some c
  | .rngFill c => some c
  | .rngFillComplete c => some c
  | .rngKey c => some c
  | .rngBind c => some c
  | .rngSeek c => some c
  | .upd c => some c
  | .updComplete c => some c
  | .ldt c _ => some c
  | .ldtComplete c _ => some c
  | .stt c => some c
  | .sttComplete c _ => some c
  | .prf c => some c
  | .prfScan c => some c
  | .prfComplete c _ => some c
  | .send c => some c
  | .sendComplete c _ => some c
  | .recv c => some c
  | .recvComplete c _ => some c
  | .collReduceScatter c => some c
  | .collAllGather c => some c
  | .collAllReduce c => some c
  | .collBroadcast c => some c
  | .collMessage _ => none
  | .collComplete c _ => some c
  | .flagWait c => some c
  | .flagSet c => some c
  | .flagClr c => some c
  | .flagCtradd c => some c
  | .flagActionDue c _ => some c
  | .rsvpush c => some c
  | .rsvpushComplete c => some c
  | .rsvpop c => some c
  | .rsvpopComplete c => some c
  | .rsvEntryWritten c => some c
  | .rsvEntryStaged c => some c
  | .prefetchFill c _ => some c
  | .descriptorFetch c _ => some c
  | .freezeRaise c => some c
  | .freezeEffect c => some c
  | .freezeEnd c => some c
  | .stepArrival c => some c
  | .spanActivate _ => none
  | .launchEnd _ => none
  | .commitExchangeEnter _ => none
  | .stepBarrierTimeout _ => none
  | .flagTimeout c _ => some c
  | .counterTimeout c => some c
  | .sluiceTimeout c => some c
  | .tokenTimeout _ => none
  | .flitData _ _ => none
  | .flitFack _ _ => none
  | .flitToken _ _ => none
  | .attemptMarker _ _ => none
  | .flitLnak _ _ => none
  | .flitCrcFail _ => none
  | .lcredit _ _ => none
  | .swapReq _ _ => none
  | .swapAck _ _ => none
  | .lmgtWidth _ _ => none
  | .lmgtRetrain _ _ => none
  | .hello _ _ => none
  | .nack _ _ => none
  | .linkReplayTimeout _ => none
  | .trainingStateComplete _ => none
  | .trainingStateTimeout _ => none
  | .downRetry _ => none
  | .abruptLoss _ _ => none
  | .ringMarginLow _ _ => none
  | .swapSwitch _ => none
  | .laneSwapTimeout _ => none
  | .sourceFailure _ _ => none
  | .spareTuningComplete _ => none
  | .spareTuningTimeout _ => none
  | .flowRetransmitTimeout _ => none
  | .flowProbeTimeout _ => none
  | .flowLateTimeout _ => none
  | .rankRemapApply _ => none
  | .ckptData _ => none
  | .ckptEndOfData _ => none
  | .ckptAck _ => none
  | .ckptRestoreRequest _ => none
  | .ckptAbsent _ => none
  | .ckptRestoreDataDone _ => none
  | .snapshotCopyComplete _ => none
  | .flashWriteComplete _ _ => none
  | .mwr _ => none
  | .mrd _ => none
  | .dbell _ => none
  | .hostCredit _ => none
  | .hostLnak _ => none
  | .linkid _ => none
  | .mgmtWidth _ => none
  | .getVersion => none
  | .getCapabilities => none
  | .negotiateAlgorithms => none
  | .getDigests => none
  | .getCertificate _ _ _ => none
  | .challenge _ _ => none
  | .getMeasurements _ _ _ => none
  | .spdmUnsupportedRequest _ => none
  | .program _ => none
  | .programComplete _ => none
  | .launch _ => none
  | .stepEntry _ => none
  | .flowOpen _ => none
  | .flowClose _ => none
  | .flowReset _ => none
  | .kill _ => none
  | .resume _ => none
  | .fence _ => none
  | .nopEntry _ => none
  | .attach _ _ => none
  | .renew _ _ => none
  | .leaseExpiry => none
  | .hqptrWrite _ _ _ => none
  | .hqcfgWrite _ _ _ => none
  | .evptrWrite _ _ => none
  | .logptrWrite _ _ => none
  | .srptrWrite _ _ _ => none
  | .slogptrWrite _ _ => none
  | .ringConfigWrite _ _ _ => none
  | .syOcfgWrite _ _ _ => none
  | .syOvalWrite _ _ _ => none
  | .syOaddWrite _ _ _ => none
  | .nwSpanWrite _ _ _ => none
  | .rvChanbaseWrite _ c _ _ => some c
  | .rvChanWrite _ c _ _ => some c
  | .rvStageWrite _ c _ => some c
  | .fbProfileWrite _ _ => none
  | .fbRouteWrite _ _ _ => none
  | .fbRankmapWrite _ _ _ => none
  | .portEnable _ _ _ => none
  | .portRetrain _ _ _ => none
  | .fbCcfgWrite _ _ _ => none
  | .release _ _ _ => none
  | .checkpointNow _ _ _ => none
  | .restoreFromPartner _ _ _ => none
  | .restoreFromFlash _ _ _ => none
  | .restoreFromSnapshot _ _ _ => none
  | .releaseSnapshot _ _ _ => none
  | .invalidate _ _ => none
  | .functionLevelReset _ _ => none
  | .flrComplete => none
  | .perCoreReset _ _ => none
  | .imageUpdateGo _ _ => none
  | .imageUpdateChecked => none
  | .imageUpdateWritten => none
  | .keeperRequest _ _ => none
  | .keeperRequestDone => none
  | .nwFencereq _ _ => none
  | .recoveryWrite _ _ => none
  | .recoveryWriteDone => none
  | .recoveryFinish _ _ => none
  | .swRegionWrite _ _ _ => none
  | .regionZeroingComplete => none
  | .coreWindowImemWrite _ c _ _ => some c
  | .coreWindowPondAccess _ c _ _ _ => some c
  | .registerWrite _ _ _ => none
  | .poisonKill _ => none
  | .rowFence _ => none
  | .rowShiftComplete _ => none
  | .meshLinkError _ => none
  | .errorDecay => none
  | .pageRetiredCopyDone _ => none
  | .pchSpareCopyDone _ => none
  | .patrolScrub _ _ => none
  | .governorInterval => none
  | .thermalEvaluation _ => none
  | .powerCapEvaluation _ _ _ => none
  | .watchdogExpiry _ => none
  | .fwRestartComplete _ _ => none
  | .keeperRomRestartComplete => none
  | .powerOnReset => none
  | .rstNAssert => none
  | .rstNDeassert _ _ => none
  | .vinLowTimeout => none
  | .vinRestored => none
  | .vinBelow36 => none
  | .refclkLoss => none
  | .refclkRestored => none
  | .thermalTrip => none
  | .firmwareSelfTestDone _ _ => none
  | .imageCheckDone => none
  | .powerWave _ => none
  | .stackPowerUp _ => none
  | .laserBankPowerUp _ => none
  | .bistDone _ => none
  | .hbmTrainingDone _ => none
  | .memoryTestDone _ _ _ _ => none
  | .opticalTuningDone => none
  | .startupComplete => none
  | .smbusReadIdentity => none
  | .smbusReadStatus => none
  | .smbusReadTmax => none
  | .smbusReadVin => none
  | .smbusReadIin => none
  | .smbusReadPin => none
  | .smbusReadResetcause => none
  | .smbusReadFeedId => none
  | .smbusAlertResponse => none
  | .smbusNack _ _ => none
  | .processorCrash _ => none
  | .lcreditInterval _ => none

end Sys2Proof
end

