-- ==== Sys2Proof/Config.lean ====
section
/-! DEFINITION. What no rule of the spec fixes: the free values (a value the spec leaves open, log 6) and the
cryptographic functions whose definitions stand in other documents (log 7). None has a body: no proof can see a value. -/

namespace Sys2Proof

/-- A free value: the `n`-th value that the spec leaves open, as a number (log 6). -/
opaque Config.free : Nat → Nat

/-- The value of a transcendental function where the enclosures of Machine/Transcendental.lean do not decide the rounding:
operation code and operand (log 8). -/
opaque Config.transcendental : Nat → Int → Nat → Int

/-- SHA-384 of a byte sequence (FIPS 180-4), as a number (log 7). -/
opaque Config.sha384 : List Byte → Nat

/-- Whether a brainpoolP384r1 ECDSA signature over a digest verifies under a public key: key bytes, r, s, digest (log 7). -/
opaque Config.imageSignatureGood : List Byte → List Byte → List Byte → Nat → Bool

/-- The identity key's ECDSA signature over a byte sequence: r then s, 96 bytes as one number (R515, R546; log 7). -/
opaque Config.identitySignature : List Byte → Nat

/-- The ROM version word and ROM patch bank that measurement 1 digests (R545; log 7). -/
opaque Config.romPatch : List Byte

/-- The code of the transmit direction in event records; the receive direction has the other (the spec names the field and
no code; log 23). -/
opaque Config.txDirection : Nat

/-- The set of a slice in which the lake holds a line (the spec names 16 ways and no set index; log 12). -/
opaque Config.lakeSet : Nat → Nat

/-- Where the firmware data area holds the retransmit buffer of a flow (the spec names its size and no place; log 63). -/
opaque Config.rtxPlace : Nat → Nat

/-- The SFDP space of the boot flash (R532): the spec names no flash part (log 69). -/
opaque Config.sfdp : Nat → Byte

/-- What follows the first two bytes of an SPDM message of a code that carries these contents: its format stands in another
document (log 70). -/
opaque Config.spdmBody : Nat → List Byte → List Byte

/-- The free value as a bit vector. -/
def Config.freeBits (w n : Nat) : BitVec w := BitVec.ofNat w (Config.free n)

end Sys2Proof
end

