-- ==== Sys2Proof/Machine/RegTable.lean ====
section
/-! DEFINITION. The register tables of the spec as data: address, stride, count and fields with access, reset value and
clamping class (00_scope R13, R14; 18_register_space R588). Reserved bits are RZ and are not listed. A field whose Reset
entry is "fuse", "strap" or "live", or that the spec computes from other state, is marked `live` and computed when read. -/

namespace Sys2Proof.Machine

/-- Access of a field (Table: Access codes); `live` is RO and computed when read, `slot` is RW with a home in a core's
stream slots. -/
inductive Acc where
  | rw | ro | wo | live | slot
deriving DecidableEq, Repr

/-- Clamping class of a field (Table: Clamping by field class). -/
inductive Clamp where
  | any
  /-- outside the range: the nearer limit -/
  | range (lo hi : Nat)
  /-- low bits stored as 0 -/
  | align (bits : Nat)
  /-- a value above the largest is stored as the code named -/
  | code (largest stored : Nat)
  /-- the range depends on another field or register; see `clampSpecial` of Machine/Ops.lean -/
  | special
deriving DecidableEq, Repr

structure Field where
  lo : Nat
  w : Nat
  acc : Acc
  reset : Nat
  clamp : Clamp
  secure : Bool
deriving DecidableEq, Repr

structure RegDesc where
  name : String
  base : Nat
  stride : Nat
  count : Nat
  fields : List Field
deriving DecidableEq, Repr

def fRW (lo w reset : Nat) (c : Clamp := .any) : Field := ⟨lo, w, .rw, reset, c, false⟩
def fSW (lo w reset : Nat) (c : Clamp := .any) : Field := ⟨lo, w, .rw, reset, c, true⟩
def fRO (lo w reset : Nat) : Field := ⟨lo, w, .ro, reset, .any, false⟩
def fWO (lo w : Nat) (c : Clamp := .any) : Field := ⟨lo, w, .wo, 0, c, false⟩
def fSlot (lo w : Nat) : Field := ⟨lo, w, .slot, 0, .any, false⟩
def fLive (lo w : Nat) : Field := ⟨lo, w, .live, 0, .any, false⟩

/-- `n` fields of width `w` at `lo + step·i`. -/
def fMany (n lo step w reset : Nat) (a : Acc) (c : Clamp := .any) (sec : Bool := false) : List Field :=
  (List.range n).map fun i => ⟨lo + step * i, w, a, reset, c, sec⟩

/-- Core-window registers: offsets in the window (R142, R165, R199, R252, R293, R327, R364, R386, R505, R595). -/
def coreRegTable : List RegDesc := [
  ⟨"CC_STATUS", 0x80000, 8, 1, [fLive 0 64]⟩,
  ⟨"CC_PC", 0x80008, 8, 1, [fLive 0 14]⟩,
  ⟨"CC_EPOCH", 0x80010, 8, 1, [fLive 0 16]⟩,
  ⟨"CC_CYC", 0x80018, 8, 1, [fLive 0 64]⟩,
  ⟨"CC_QLEVEL", 0x80020, 8, 1, [fLive 0 64]⟩,
  ⟨"CC_ENTRY", 0x80028, 8, 1, [fLive 0 14]⟩,
  ⟨"CC_FAULT", 0x80030, 8, 1, [fRO 0 14 0, fRO 16 16 0, fRO 32 2 0]⟩,
  ⟨"CC_DUE", 0x80040, 8, 4, [fLive 0 33]⟩,
  ⟨"CC_STALL", 0x80060, 8, 1, [fRW 0 64 0]⟩,
  ⟨"CC_FREEZE", 0x80068, 8, 1, [fRW 0 64 0]⟩,
  ⟨"CC_LATE", 0x80070, 8, 1, [fRW 0 64 0]⟩,
  ⟨"CC_UNDEF", 0x80078, 8, 1, [fRW 0 64 0]⟩,
  ⟨"CC_G", 0x80100, 8, 32, [fLive 0 64]⟩,
  ⟨"MX_STATUS", 0x81000, 8, 1, [fLive 0 3]⟩,
  ⟨"MX_BANK", 0x81008, 8, 2, [fLive 0 13]⟩,
  ⟨"MX_SCAN", 0x81020, 8, 8, [fRW 0 11 0]⟩,
  ⟨"MX_CTR", 0x81080, 8, 4, [fRW 0 64 0]⟩,
  ⟨"MX_RESIDUE", 0x810A0, 8, 1, [fLive 0 42]⟩,
  ⟨"VX_STATUS", 0x81400, 8, 1, [fLive 0 9]⟩,
  ⟨"VX_STEP", 0x81408, 8, 1, [fRO 0 48 0]⟩,
  ⟨"VX_CTR", 0x81410, 8, 5, [fRW 0 64 0]⟩,
  ⟨"VX_SKEYA", 0x81500, 32, 16, [fSlot 0 64]⟩,
  ⟨"VX_SKEYB", 0x81508, 32, 16, [fSlot 0 33]⟩,
  ⟨"VX_SCUR", 0x81510, 32, 16, [fSlot 0 64]⟩,
  ⟨"VX_SMB", 0x81518, 32, 16, [fSlot 0 24]⟩,
  ⟨"SX_STATUS", 0x81800, 8, 1, [fLive 0 8]⟩,
  ⟨"SX_DCACHE", 0x81808, 8, 1, [fRO 0 32 0, fRO 32 32 0]⟩,
  ⟨"SX_RXTRUNC", 0x81810, 8, 1, [fRW 0 64 0]⟩,
  ⟨"SX_FPPOISON", 0x81818, 8, 1, [fRW 0 16 0]⟩,
  ⟨"SX_PFCTL", 0x81820, 8, 1, [fRW 0 1 1, fRW 1 3 2]⟩,
  ⟨"SX_PFSTAT", 0x81828, 8, 1, [fLive 0 24]⟩,
  ⟨"SX_FP", 0x81880, 8, 16, [fRW 0 64 0]⟩,
  ⟨"NW_CORE_SPAN", 0x82000, 8, 1, [fLive 0 28]⟩,
  ⟨"RV_STATUS", 0x82400, 8, 1, [fLive 0 37]⟩,
  ⟨"RV_STAGE", 0x82408, 8, 1, [fRW 0 18 0 (.align 6), fRW 18 18 0 .special]⟩,
  ⟨"RV_EMPTY", 0x82410, 8, 1, [fRW 0 64 0]⟩,
  ⟨"RV_MISMATCH", 0x82418, 8, 1, [fRW 0 64 0]⟩,
  ⟨"RV_REJECT", 0x82420, 8, 1, [fRW 0 64 0]⟩,
  ⟨"RV_CHANBASE", 0x82500, 16, 32, [fRW 0 40 0 (.align 6)]⟩,
  ⟨"RV_CHAN", 0x82508, 16, 32, [fRW 0 32 0 (.align 6), fRW 32 32 0 .special]⟩,
  ⟨"PD_ECC", 0x82800, 8, 1, [fLive 0 64]⟩,
  ⟨"SY_FLAGS", 0x82C00, 8, 1, [fLive 0 64]⟩,
  ⟨"FT_CORE", 0x83000, 8, 1, [fLive 0 45]⟩,
  ⟨"CW_IDENT", 0x83800, 8, 1, [fLive 0 36]⟩]

/-- Chip registers, sync object configurations and flow contexts by device address. -/
def chipRegTable : List RegDesc := [
  -- identity (R589)
  ⟨"ID", 0x8100000000, 8, 8, [fLive 0 64]⟩,
  -- power, clock, thermal (R590 to R594, R505)
  ⟨"PM_STATUS", 0x8100100000, 8, 1, [fRO 0 5 16, fRO 5 5 16, fRO 10 1 0, fRO 11 1 0, fRO 12 1 0, fLive 13 8]⟩,
  ⟨"PM_CLK", 0x8100100008, 8, 1, [fLive 0 2]⟩,
  ⟨"PM_RESETCAUSE", 0x8100100010, 8, 1, [fRO 0 2 0]⟩,
  ⟨"PM_INPUT", 0x8100100018, 8, 1, [fLive 0 48]⟩,
  ⟨"PM_PCAP", 0x8100100020, 8, 1, [fRW 0 16 1200 .special, fRW 16 1 1]⟩,
  ⟨"PM_THERM_CFG", 0x8100100028, 8, 1, [fSW 0 8 95 (.range 60 105), fSW 8 4 3 (.range 1 15), fSW 12 8 105 .special]⟩,
  ⟨"PM_HBMTEMP", 0x8100100030, 8, 1, [fLive 0 64]⟩,
  ⟨"PM_TEMP", 0x8100100080, 8, 16, [fLive 0 9]⟩,
  ⟨"PM_GOV_CFG", 0x8100100100, 8, 1, [fRW 0 8 40 (.range 4 255), fRW 8 12 1200 (.range 100 4095)]⟩,
  ⟨"PM_GOV_STAT", 0x8100100108, 8, 1, [fRO 0 32 0]⟩,
  ⟨"PM_RAIL", 0x8100100140, 8, 8, [fLive 0 37]⟩,
  -- host interface (R483)
  ⟨"HI_STATUS", 0x8100200000, 8, 1, [fLive 0 21]⟩,
  ⟨"HI_LEASE_CFG", 0x8100200008, 8, 1, [fSW 0 16 250 (.range 1 65535)]⟩,
  ⟨"HI_LEASE_ATTACH", 0x8100200010, 8, 1, [fWO 0 64]⟩,
  ⟨"HI_LEASE_RENEW", 0x8100200018, 8, 1, [fWO 0 64]⟩,
  ⟨"HI_EVRING", 0x8100200020, 8, 1, [fRW 0 40 0 (.align 12), fRW 40 5 6 (.range 6 24), fRW 45 11 0, fRW 56 1 0, fRW 57 1 0]⟩,
  ⟨"HI_EVPTR", 0x8100200028, 8, 1, [fRW 0 24 0, fRO 24 24 0, fRO 48 16 0]⟩,
  ⟨"HI_LOGRING", 0x8100200030, 8, 1, [fRW 0 40 0 (.align 12), fRW 40 5 6 (.range 6 24), fRW 45 11 0, fRW 56 1 0, fRW 57 1 0]⟩,
  ⟨"HI_LOGPTR", 0x8100200038, 8, 1, [fRW 0 24 0, fRO 24 24 0, fRO 48 16 0]⟩,
  ⟨"HI_VPOLICY", 0x8100200040, 8, 1, [fSW 0 8 16 (.range 1 255), fSW 8 8 16 (.range 1 255)]⟩,
  ⟨"HI_VIOL", 0x8100200080, 8, 16, [fRW 0 32 0]⟩,
  ⟨"HI_WIN0", 0x8100200100, 8, 1, [fSW 0 19 0, fSW 19 19 0x7FFFF .special, fSW 38 1 1, fSW 39 1 1]⟩,
  ⟨"HI_WIN", 0x8100200108, 8, 7, [fSW 0 19 0, fSW 19 19 0 .special, fSW 38 1 0, fSW 39 1 0]⟩,
  ⟨"HI_TRACE", 0x8100200200, 8, 4, [fRW 0 64 0]⟩,
  ⟨"HI_HQCFG", 0x8100210000, 32, 256, [fRW 0 40 0 (.align 12), fRW 40 5 4 (.range 4 16), fRW 45 6 0, fRW 51 8 0, fRW 59 1 0, fRO 60 1 0, fLive 61 1]⟩,
  ⟨"HI_HQDT", 0x8100210008, 32, 256, [fRW 0 40 0 (.align 6)]⟩,
  ⟨"HI_HQCQ", 0x8100210010, 32, 256, [fRW 0 40 0 (.align 12), fRW 40 5 4 (.range 4 16), fRW 45 11 0, fRW 56 1 0]⟩,
  ⟨"HI_HQPTR", 0x8100210018, 32, 256, [fRW 0 16 0, fRO 16 16 0, fRW 32 16 0, fRO 48 16 0]⟩,
  -- fabric (R420) and collectives (R454)
  ⟨"FB_CFG", 0x8100300000, 8, 1, [fSW 0 12 0, fRW 12 4 15 (.range 1 15), fRW 16 1 1]⟩,
  ⟨"FB_STATUS", 0x8100300008, 8, 1, [fLive 0 41]⟩,
  ⟨"FB_TO_LINK", 0x8100300010, 8, 1, [fRW 0 6 13 (.range 10 40), fRW 8 4 8 (.range 1 15), fRW 16 6 17 (.range 10 40)]⟩,
  ⟨"FB_TO_FLOW", 0x8100300018, 8, 1, [fRW 0 6 19 (.range 10 40), fRW 8 4 4 (.range 1 15), fRW 16 6 18 (.range 10 40), fRW 24 6 25 (.range 10 40)]⟩,
  ⟨"FB_VPOLICY", 0x8100300020, 8, 1, [fRW 0 8 16 (.range 1 255), fRW 8 8 16 (.range 1 255)]⟩,
  ⟨"FB_PROFILE", 0x8100300028, 8, 1, fMany 4 0 2 2 0 .rw .any true ++ fMany 4 8 12 12 1 .rw .special true⟩,
  ⟨"FB_PCTL", 0x8100301000, 0x100, 9, [fSW 0 1 1 .special, fWO 1 1, fSW 2 7 8 (.range 1 50)]⟩,
  ⟨"FB_PSTATE", 0x8100301008, 0x100, 9, [fRO 0 4 0, fRO 4 5 0, fRO 9 5 0, fRO 14 12 0, fRO 26 1 0, fRO 27 2 0]⟩,
  ⟨"FB_PTXW0", 0x8100301010, 0x100, 9, fMany 12 0 5 5 18 .ro⟩,
  ⟨"FB_PTXW1", 0x8100301018, 0x100, 9, fMany 6 0 5 5 18 .ro⟩,
  ⟨"FB_PRXW0", 0x8100301020, 0x100, 9, fMany 12 0 5 5 18 .ro⟩,
  ⟨"FB_PRXW1", 0x8100301028, 0x100, 9, fMany 6 0 5 5 18 .ro⟩,
  ⟨"FB_PLASER", 0x8100301030, 0x100, 9, [fRO 0 18 0, fRO 18 1 0, fRO 19 1 0, fRO 20 5 0]⟩,
  ⟨"FB_PERR", 0x8100301038, 0x100, 9, [fRO 0 32 0, fRO 32 32 0]⟩,
  ⟨"FB_PFEC", 0x8100301040, 0x100, 9, [fRO 0 64 0]⟩,
  ⟨"FB_PVIOL0", 0x8100301080, 8, 16, [fRW 0 32 0]⟩,
  ⟨"FB_PVIOL1", 0x8100301180, 8, 16, [fRW 0 32 0]⟩,
  ⟨"FB_PVIOL2", 0x8100301280, 8, 16, [fRW 0 32 0]⟩,
  ⟨"FB_PVIOL3", 0x8100301380, 8, 16, [fRW 0 32 0]⟩,
  ⟨"FB_PVIOL4", 0x8100301480, 8, 16, [fRW 0 32 0]⟩,
  ⟨"FB_PVIOL5", 0x8100301580, 8, 16, [fRW 0 32 0]⟩,
  ⟨"FB_PVIOL6", 0x8100301680, 8, 16, [fRW 0 32 0]⟩,
  ⟨"FB_PVIOL7", 0x8100301780, 8, 16, [fRW 0 32 0]⟩,
  ⟨"FB_ROUTE", 0x8100302000, 8, 256, fMany 16 0 4 4 15 .rw (.code 8 15) true⟩,
  ⟨"FB_RANKMAP", 0x8100304000, 8, 4096, [fSW 0 12 0, fSW 12 1 0]⟩,
  ⟨"FB_CCFG", 0x8100310000, 16, 1024, [fRW 0 12 1, fRW 12 12 0 .special, fRW 24 12 0 (.range 0 3071), fRW 36 6 0, fRW 42 2 0, fRW 44 1 0, fRW 45 1 0]⟩,
  ⟨"FB_CSTAT", 0x8100310008, 16, 1024, [fRO 0 21 0, fRO 21 11 0, fRO 32 1 0, fRO 33 1 0, fRO 34 1 0, fRO 35 1 0, fLive 36 1, fRO 37 27 0]⟩,
  ⟨"FB_JOBPOL", 0x8100314008, 8, 63, [fRW 0 3 2, fRW 3 1 0, fWO 4 1, fRO 16 16 0, fRO 32 13 0x1000, fRO 45 1 0]⟩,
  -- memory controllers and lake (R327)
  ⟨"MC_STATUS", 0x8100400000, 0x10000, 8, [fRO 0 1 0, fRO 1 5 0, fRO 6 1 0, fRO 7 5 0, fRO 12 1 0, fRO 13 1 0, fRO 14 1 0]⟩,
  ⟨"MC_ECC", 0x8100400008, 0x10000, 8, [fRO 0 32 0, fRO 32 32 0]⟩,
  ⟨"MC_RETIRE", 0x8100400010, 0x10000, 8, [fRO 0 16 0, fRO 16 16 49152]⟩,
  ⟨"MC_POLICY", 0x8100400018, 0x10000, 8, [fRW 0 8 16 (.range 1 255), fRW 8 12 64 (.range 1 4095), fRW 20 16 1440 (.range 60 65535)]⟩,
  ⟨"MC_BEYOND", 0x8100400020, 0x10000, 8, [fRW 0 64 0]⟩,
  ⟨"MC_LASTERR", 0x8100400028, 0x10000, 8, [fRO 0 40 0]⟩,
  ⟨"LK_HITMISS", 0x8100500000, 0x10000, 16, [fRO 0 32 0, fRO 32 32 0]⟩,
  ⟨"LK_ECC", 0x8100500008, 0x10000, 16, [fRO 0 32 0, fRO 32 32 0]⟩,
  ⟨"LK_PF", 0x8100500010, 0x10000, 16, [fRO 0 32 0, fRO 32 32 0]⟩,
  -- worlds and regions (R327)
  ⟨"SW_REGION", 0x8100600000, 8, 2048, [fRW 0 64 0 .special]⟩,
  ⟨"SW_WCORE", 0x8100604000, 8, 16, [fRW 0 64 0]⟩,
  ⟨"SW_WSX", 0x8100604080, 8, 16, [fRW 0 64 0]⟩,
  ⟨"SW_WHQ", 0x8100604100, 8, 4, [fRW 0 64 0]⟩,
  ⟨"SW_WFLOW", 0x8100604200, 8, 48, [fRW 0 64 0]⟩,
  ⟨"SW_WFL", 0x8100604400, 8, 1, [fRW 0 1 1]⟩,
  ⟨"SW_BLOCKED", 0x8100604408, 8, 1, [fRW 0 64 0]⟩,
  ⟨"SW_SCRUB", 0x8100604410, 8, 1, [fRO 0 1 0, fRO 1 17 0]⟩,
  -- fuse view (R576)
  ⟨"FU_VARIANT", 0x8100700000, 8, 1, [fLive 0 19]⟩,
  ⟨"FU_BAD", 0x8100700100, 8, 18, [fLive 0 64]⟩,
  ⟨"FU_INFIELD", 0x8100700200, 8, 1, [fLive 0 7]⟩,
  ⟨"FU_ROLLBACK", 0x8100700208, 8, 1, [fLive 0 7]⟩,
  ⟨"FU_FPBAD", 0x8100700210, 8, 1, [fLive 0 6]⟩,
  ⟨"FU_KEYHASH", 0x8100700300, 8, 6, [fLive 0 64]⟩,
  -- sync block (R386)
  ⟨"SY_STATUS", 0x8100800000, 8, 1, [fRO 0 1 0]⟩,
  ⟨"SY_TO_FLAG", 0x8100800008, 8, 1, [fRW 0 6 24 (.range 10 40)]⟩,
  ⟨"SY_TO_COUNTER", 0x8100800010, 8, 1, [fRW 0 6 27 (.range 10 40)]⟩,
  ⟨"SY_TO_SLUICE", 0x8100800018, 8, 1, [fRW 0 6 30 (.range 10 40)]⟩,
  ⟨"SY_TO_TOKEN", 0x8100800020, 8, 1, [fRW 0 6 31 (.range 10 40)]⟩,
  ⟨"SY_REJECT", 0x8100800028, 8, 1, [fRW 0 32 0, fRW 32 32 0]⟩,
  ⟨"SY_TIMEOUTS", 0x8100800030, 8, 1, [fRW 0 64 0]⟩,
  -- firmware processors and log (R576, R530)
  ⟨"FW_STATUS", 0x8100900000, 8, 1, [fRO 0 3 0, fRO 3 1 0, fRO 4 1 0, fRO 5 1 0, fRO 6 1 0, fLive 7 1, fRO 8 1 0, fRO 16 7 0]⟩,
  ⟨"FW_BOOTCTL", 0x8100900008, 8, 1, [fWO 0 1]⟩,
  ⟨"FW_WDCFG", 0x8100900010, 8, 1, [fRW 0 6 24 (.range 20 32), fRW 8 8 10 (.range 1 255)]⟩,
  ⟨"FW_FLR", 0x8100900018, 8, 1, [fWO 0 1]⟩,
  ⟨"FW_CORERST", 0x8100900020, 8, 1, [fWO 0 10, fWO 10 1]⟩,
  ⟨"FW_UPDATE", 0x8100900028, 8, 1, [fRW 0 40 0 (.align 12)]⟩,
  ⟨"FW_UPDLEN", 0x8100900030, 8, 1, [fRW 0 26 0 (.range 0 50331648), fWO 26 1]⟩,
  ⟨"FW_UPDSTAT", 0x8100900038, 8, 1, [fRO 0 3 0, fRO 3 4 0]⟩,
  ⟨"FW_SLOGPTR", 0x8100900040, 8, 1, [fRW 0 16 0, fRO 16 16 0, fRO 32 32 0]⟩,
  ⟨"FW_KADDR", 0x8100900048, 8, 1, [fRW 0 40 0 (.align 3)]⟩,
  ⟨"FW_KDATA", 0x8100900050, 8, 1, [fRW 0 64 0]⟩,
  ⟨"FW_KTOKEN", 0x8100900058, 8, 1, [fWO 0 64]⟩,
  ⟨"FW_KCTL", 0x8100900060, 8, 1, [fWO 0 1, fRO 1 2 0, fRO 3 4 0]⟩,
  ⟨"FW_PROC0", 0x8100900100, 8, 1, [fRO 0 3 0, fRO 3 2 0, fRO 5 16 0]⟩,
  ⟨"FW_PROC1", 0x8100900108, 8, 1, [fRO 0 3 1, fRO 3 2 0, fRO 5 16 0]⟩,
  ⟨"FW_PROC2", 0x8100900110, 8, 1, [fRO 0 3 2, fRO 3 2 0, fRO 5 16 0]⟩,
  ⟨"FW_PROC3", 0x8100900118, 8, 1, [fRO 0 3 3, fRO 3 2 0, fRO 5 16 0]⟩,
  ⟨"FW_PROC4", 0x8100900120, 8, 1, [fRO 0 3 4, fRO 3 2 0, fRO 5 16 0]⟩,
  ⟨"FW_PROC5", 0x8100900128, 8, 1, [fRO 0 3 5, fRO 3 2 0, fRO 5 16 0]⟩,
  ⟨"FW_STEPCFG", 0x8100908080, 0x80, 63, [fRW 0 10 0, fRW 10 6 30 (.range 10 40), fRW 16 16 0, fRW 32 1 0, fRW 33 1 0, fRW 34 1 0, fRW 35 18 0 (.align 3), fRW 53 10 0]⟩,
  ⟨"FW_SRRING", 0x8100908088, 0x80, 63, [fRW 0 40 0 (.align 12), fRW 40 5 4 (.range 1 16), fRW 45 5 16 (.range 12 24), fRW 50 1 0]⟩,
  ⟨"FW_SRPTR", 0x8100908090, 0x80, 63, [fRW 0 16 0, fRO 16 16 0, fRO 32 32 0]⟩,
  ⟨"FW_CKCFG", 0x8100908098, 0x80, 63, [fRW 0 12 0, fRW 12 12 0 (.range 0 3070), fRW 24 1 0, fRW 25 4 0 (.range 0 7), fRW 29 1 1, fRW 30 1 0]⟩,
  ⟨"FW_CKSNAP", 0x81009080A0, 0x80, 63, [fRW 0 40 0 (.align 12)]⟩,
  ⟨"FW_CKHOLD", 0x81009080A8, 0x80, 63, [fRW 0 40 0 (.align 12), fRW 40 12 0, fRW 52 10 0 (.align 1)]⟩,
  ⟨"FW_CKLIST", 0x81009080B0, 0x80, 63, [fRW 0 40 0 (.align 4), fRW 40 12 0]⟩,
  ⟨"FW_CKCTL", 0x81009080B8, 0x80, 63, [fWO 0 4, fWO 4 48]⟩,
  ⟨"FW_CKSTAT", 0x81009080C0, 0x80, 63, [fRO 0 3 0, fRO 3 4 0, fRO 7 1 0, fRO 8 1 0]⟩,
  ⟨"FW_CKSTEP", 0x81009080C8, 0x80, 63, [fRO 0 32 0, fRO 32 32 0]⟩,
  -- flash (R576, R577)
  ⟨"FL_STATUS", 0x8100A00000, 8, 1, [fRO 0 1 0, fRO 1 1 0, fRO 16 16 0, fRW 32 16 64 (.range 1 65535)]⟩,
  ⟨"FL_WEAR", 0x8100A00008, 8, 1, [fRO 0 7 0, fRO 32 32 0]⟩,
  ⟨"FL_RECOVCTL", 0x8100A00100, 8, 1, [fRW 0 26 0 .special, fRW 26 17 0 (.range 1 65536), fWO 43 1, fWO 44 1]⟩,
  ⟨"FL_RECOVSTAT", 0x8100A00108, 8, 1, [fRO 0 2 0, fRO 2 4 0]⟩,
  ⟨"FL_RECOVBUF", 0x8100A10000, 8, 8192, [fRW 0 64 0]⟩,
  -- network and spans (R165, R505)
  ⟨"NW_CAPACITY", 0x8100B00000, 8, 1, [fLive 0 24, fRO 24 1 0]⟩,
  ⟨"NW_FTPOLICY", 0x8100B00008, 8, 1, [fRW 0 16 256 (.range 1 65535), fRW 16 16 1024 (.range 1 65535), fRW 32 16 60 (.range 1 65535)]⟩,
  ⟨"NW_FENCEREQ", 0x8100B00010, 8, 1, [fWO 0 10, fWO 10 1]⟩,
  ⟨"NW_SPAN", 0x8100B01000, 8, 256, [fRW 0 5 0 .special, fRW 5 5 0, fRW 10 5 0 .special, fRW 15 5 0 .special, fRW 20 8 0, fRW 28 1 0 .special, fRW 29 1 0 .special, fRW 32 6 0]⟩,
  ⟨"NW_SPAN_STATUS", 0x8100B01800, 8, 256, [fLive 0 22]⟩,
  ⟨"NW_ROWMAP", 0x8100B02000, 8, 32, [fLive 0 50]⟩,
  -- sync objects (R386)
  ⟨"SY_OCFG", 0x8300000000, 64, 16384, [fRW 0 2 0 (.code 2 0), fRW 2 6 0, fSW 8 1 0, fRW 9 16 1 (.range 1 65535), fRW 25 13 1 (.range 1 4096), fRW 38 12 0 .special, fRW 50 12 0 .special]⟩,
  ⟨"SY_OVAL", 0x8300000008, 64, 16384, [fLive 0 64]⟩,
  ⟨"SY_OADD", 0x8300000010, 64, 16384, [fWO 0 64]⟩,
  -- flow contexts (R415)
  ⟨"FC_W0", 0x8400000000, 256, 3072, [fRO 0 3 0, fLive 3 1, fRO 4 6 0, fRO 10 12 0, fRO 22 12 0]⟩,
  ⟨"FC_W1", 0x8400000008, 256, 3072, [fRO 0 12 0, fRO 16 12 0, fRO 32 12 0]⟩,
  ⟨"FC_W2", 0x8400000010, 256, 3072, [fRO 0 12 0, fRO 16 12 0]⟩,
  ⟨"FC_W3", 0x8400000018, 256, 3072, [fRO 0 40 0]⟩,
  ⟨"FC_W4", 0x8400000020, 256, 3072, [fRW 0 6 0 .special]⟩,
  ⟨"FC_W5", 0x8400000028, 256, 3072, [fRO 0 64 0]⟩,
  ⟨"FC_W6", 0x8400000030, 256, 3072, [fRO 0 64 0]⟩,
  ⟨"FC_W7", 0x8400000038, 256, 3072, [fRO 0 32 0, fRO 32 32 0]⟩,
  ⟨"FC_W8", 0x8400000040, 256, 3072, [fRO 0 32 0]⟩]

/-- The descriptor that covers an address of a table, if one does. -/
def findReg : List RegDesc → Nat → Option RegDesc
  | [], _ => none
  | d :: ds, a =>
    if d.base ≤ a ∧ (a - d.base) % d.stride = 0 ∧ (a - d.base) / d.stride < d.count then some d else findReg ds a

/-- Base of the core windows (R294). -/
def coreBase : Nat := 0x8000000000

/-- Address of a core-window register (R297). -/
def cw (c off : Nat) : Nat := coreBase + c * 0x100000 + off

/-- The core of a core-window address, and the offset in its window (R297). -/
def winCore (a : Nat) : Nat := (a - coreBase) / 0x100000
def winOff (a : Nat) : Nat := (a - coreBase) % 0x100000
def isWindow (a : Nat) : Bool := decide (coreBase ≤ a) && decide (a < 0x8040000000)

/-- The descriptor of a register address, core windows included. -/
def regDesc (a : Nat) : Option RegDesc :=
  if coreBase ≤ a ∧ a < 0x8040000000 then findReg coreRegTable ((a - coreBase) % 0x100000)
  else if 0x8100000000 ≤ a then findReg chipRegTable a
  else none

/-- The number that the reset values of a register's fields make (R14). -/
def fieldsReset (fs : List Field) : Nat := fs.foldl (fun v f => v + f.reset * 2 ^ f.lo) 0

/-- Reset value of a register address; 0 where none lies. -/
def regReset (a : Nat) : Reg :=
  match regDesc a with
  | some d => BitVec.ofNat 64 (fieldsReset d.fields)
  | none => 0

end Sys2Proof.Machine
end

