-- ==== Sys2Proof/Machine/State.lean ====
section
/-! DEFINITION. The state of the device: what every register, queue, buffer, memory, mode and pin of the spec holds.

Registers that the spec gives an address are held in ONE table, `State.regs`, keyed by device address; an address that
the table does not list holds its reset value (Machine/RegTable.lean). Registers of the silicon that a row shift does not
move (FT_CORE, PD_ECC, MX_RESIDUE; R491) are keyed by physical core in `State.silicon`. Fields that the spec computes from
other state ("live") are computed when they are read. -/

namespace Sys2Proof.Machine

/-- Reasons a step can stop with a fault. No rule of the spec stops the device: the constructor stands for nothing that
occurs, and no meaning raises it (safe). -/
inductive Fault where
  | none
deriving DecidableEq, Repr

/-- Reasons a step can be refused. -/
inductive Refusal where
  /-- Raised by Dispatch.lean alone, for a row without a meaning yet (safe: the model stops). -/
  | notModelled (mnemonic : String)
deriving DecidableEq, Repr

/-- A memory: bytes in canonical form, and the 32-byte granules that carry a poison mark (R300), rising. -/
structure Mem where
  bytes : List Host.Cell
  poison : List Nat
deriving DecidableEq, Repr

/-- The special state of a well register, a well tag or a reduction tag (R92, R98). -/
inductive Special where
  | finite | posInf | negInf | nan
deriving DecidableEq, Repr

/-- One well register element (R110) with the copybook state of R357. -/
structure Elem where
  n : BitVec 160
  special : Special
  sat : Bool
  grid : Bool
  overRange : Bool
  poison : Bool
  acc : BitVec 32
  lev : List (Option (BitVec 32))
  kc : Nat
deriving DecidableEq, Repr

/-- A well bank (R110): anchor, mode, VALID (R142), and its elements by row·48 + column. `inflight` counts MMAs into it
that have started and not completed (R132). -/
structure Bank where
  anchor : Int
  copybook : Bool
  valid : Bool
  elems : Map Elem
  inflight : Nat
deriving DecidableEq, Repr

/-- The four counts of a command (R136, R198). -/
structure Counts where
  sat : Nat
  grid : Nat
  flush : Nat
  nan : Nat
deriving DecidableEq, Repr

/-- A command in a queue: its eight words (R253), whether it counts as late (R233), and whether it is the implicit wait
of a STEP (R241). -/
structure QCmd where
  words : List Word
  late : Bool
  implicit : Bool
deriving DecidableEq, Repr

/-- A write of elements, as a command will make it: bytes as (address, mask of the bits written, value), and the granules
that it marks poisoned. -/
structure PondWrite where
  cells : List (Nat × Byte × Byte)
  bad : List Nat
deriving DecidableEq, Repr

/-- An exact value as data: its special state, and its numerator and denominator where it is finite. -/
structure HeldVal where
  kind : Special
  num : Int
  den : Nat
deriving DecidableEq, Repr

/-- An output element that a command has formed and not yet converted (R124, R158, R171): which of the command's outputs it
belongs to, index, operation of Table: VOP operations with its operands, marks, draw. -/
structure HeldOut where
  tile : Nat
  ix : List Nat
  op : Nat
  a : HeldVal
  b : HeldVal
  z : HeldVal
  sat : Bool
  grid : Bool
  poison : Bool
  draw : Option Nat
deriving DecidableEq, Repr

/-- A random stream slot (R186). -/
structure Slot where
  k0 : BitVec 32
  k1 : BitVec 32
  k2 : BitVec 32
  free : Bool
  cursor : Reg
  mbatch : BitVec 24
deriving DecidableEq, Repr

/-- An operand of an MMA as a member has it (R151, R153): format, whether it is block-scaled, and for each row the K steps read so
far: element bits, scale byte, poison. -/
structure Operand where
  fmt : Nat
  scaled : Bool
  rows : List (List (Nat × Nat × Bool))
deriving DecidableEq, Repr

/-- A command of an engine with fixed durations that has started and not completed: its code (R254), words, completion
cycle (R131, R170, R276), and what its completion brings: writes, counts, record address, bins, cursor, number on the
drain path, output elements still to convert. A command works through `units` pieces (rows, groups, output elements), piece
u read `unit` × u cycles after `start` and written `lag` cycles after it is read (R131, R171); `pos` pieces have been read,
`later` holds writes with the cycle in which they are made. `slot` is the stream slot as it was at the start (R190), `params`
what UPD read of its parameter block (R193), `anchor` the drain record's anchor (R138), `rows` and `cols` the part of the bank
that an MMA or WLOAD writes, `cross` whether blocks are shared in the span (R158). An MMA keeps in `opA` and `opB` the K steps that
it has read of its operands, by row as element bits, scale and poison, with the format and whether it is block-scaled, and in
`marked` the elements that a residue mismatch names (R141, R153). -/
structure Run where
  code : Nat
  words : List Word
  due : Reg
  start : Reg
  unit : Nat
  units : Nat
  lag : Nat
  pos : Nat
  later : List (Reg × PondWrite)
  bank : Nat
  rows : Nat
  cols : Nat
  anchor : Int
  cross : Bool
  write : PondWrite
  counts : Counts
  record : Option Nat
  bins : List Nat
  slot : Slot
  params : List Nat
  cursor : Option (Nat × Reg)
  seq : Nat
  outs : List HeldOut
  opA : Operand
  opB : Operand
  marked : List Nat
deriving DecidableEq, Repr

/-- A transfer or deferred action of the stream engine that is outstanding (R274, R275): identity, code, words, the
start order, whether it moves nothing, and for a scan its number (R156). -/
structure Xfer where
  id : Nat
  code : Nat
  words : List Word
  done : Bool
  empty : Bool
  scan : Option Nat
deriving DecidableEq, Repr

/-- One unit of an engine: the cycle from which it is free, and the commands running in it. -/
structure EUnit where
  busyUntil : Reg
  runs : List Run
deriving DecidableEq, Repr

/-- An active hardware loop (R221): counter, first and last word of its body. -/
structure LoopFrame where
  n : Nat
  start : Nat
  last : Nat
deriving DecidableEq, Repr

/-- A command queue (R41) with its contents as they stood at the end of the previous core clock tick (R232), the cycles in
which it was so seen empty while a unit was free, as intervals for each unit (0 the array or the engine's only unit, 1 the
drain path, 2 for IDLE, which takes none; R233), the cycle before which no command behind an IDLE may start (R256), the
completion cycles of IDLEs that run (R277), the tick at which the flag wait at its head began and whether it has timed out
(R382, R383). `fresh` counts the commands that entered it in this tick (R233). -/
structure EngQ where
  cmds : List QCmd
  seen : List QCmd
  fresh : Nat
  idle : List (Nat × Nat × Nat)
  idleUntil : Reg
  idleRuns : List Reg
  waitTick : Option Nat
  timedOut : Bool
deriving DecidableEq, Repr

/-- What a control core waits on (R235). -/
inductive Stall where
  | none
  /-- a PUSH waits for a queue entry or a descriptor-cache entry (R228, R289) -/
  | push (cmd : QCmd) (eng : Nat)
  /-- FWAIT on a local flag (R238) -/
  | flag (n : Nat) (rd : BitVec 5)
  /-- CTRADD or SLARR before the sync block's reply (R239) -/
  | reply (rd : BitVec 5) (v : Reg)
  /-- CTRWAIT (R239) -/
  | counter (obj : Nat) (rd : BitVec 5) (operand : Reg)
  /-- SLWAIT (R239) -/
  | sluice (obj : Nat) (rd : BitVec 5) (sense : Bool)
  /-- STEP placing its implicit waits: engines still to place (R241) -/
  | stepPlace (engines : List Nat) (stamp : Word)
  /-- STEP waiting for its outcome; whether the core has arrived (R241) -/
  | stepWait (arrived : Bool)
  /-- STEP whose outcome has come, before its core goes on: the step has committed, and the freeze, a hold or a checkpoint keeps
  the core at the boundary (R162, R509) -/
  | stepOver
  /-- held at a step's entry, no STEP having issued: a job that a repeat parked (R448) -/
  | held
deriving DecidableEq, Repr

/-- Run state of a control core: halted, or fetching (CC_STATUS). `poisoned` marks the stop of R218. -/
inductive CoreMode where
  | halted | running | poisoned
deriving DecidableEq, Repr

/-- The step shadow (R200), with the flags (R367), reservoir depths (R342) and fingerprints (R287) it holds. -/
structure Shadow where
  g : Vector Reg 32
  p : BitVec 8
  c : Vector Word 8
  lc : Vector Word 4
  loops : List LoopFrame
  pc : BitVec 14
  cyc : Reg
  flags : BitVec 64
  depths : List Nat
  fps : List Reg
  fpPoison : Reg
deriving DecidableEq, Repr

/-- An entry of the descriptor cache (R289): queue, handle, the 512-bit descriptor once it has arrived, pins. -/
structure DEntry where
  hq : Nat
  handle : Nat
  desc : Option (BitVec 512)
  pins : Nat
deriving DecidableEq, Repr

/-- A prefetch tracker (R312): pattern as SX_PFSTAT codes it, the handle or channel it follows, the last events that it saw, whether
it has trained, and of a raster the dimension along which the origin advances and the one that advances when it returns to 0, as far
as steps have told them. -/
structure Tracker where
  pattern : Nat
  source : Nat
  history : List (List Int)
  trained : Bool
  fast : Option Nat
  slow : Option Nat
deriving DecidableEq, Repr

/-- Where a staged reservoir entry stands (R334, R336): a push to be written, a push being written to channel memory, an entry
being fetched from there, an entry that is staged. -/
inductive StageState where
  | pushed | writing | fetching | staged
deriving DecidableEq, Repr

/-- An entry of the staging area (R331): channel, device address, size with trailer, the 64-byte units of the area that it
occupies, in its order, whether its push still copies, and whether a pop has taken it. Its bytes stand in the pond. -/
structure Staged where
  chan : Nat
  addr : Nat
  size : Nat
  units : List Nat
  st : StageState
  copying : Bool
  popped : Bool
deriving DecidableEq, Repr

/-- The launch that a core runs (R201): span entry, host queue, job, local position. -/
structure CoreLaunch where
  span : Nat
  hq : Nat
  job : Nat
  lx : Nat
  ly : Nat
deriving DecidableEq, Repr

/-- The dynamic state of one logical core (R40, R200). Its addressed registers stand in `State.regs`. `dueNext` holds what QDUE set
in this tick and takes effect in the next (R231), `dueSeen` the dues whose evaluation cycle has passed (R159). `setStream` and `setNow`
are the flags set in this tick, by the stream engine and by any other source (R238, R366), `acted` the flags on which
commands of the stream engine acted in this tick, each with the last in queue order (R275); `imemBlocks` holds the blocks (first
word, length) that the dispatcher wrote under the core's current epoch (R248); `stores` holds stores that engine
reads do not see yet: tick, pond address, bytes (R216); `records` holds count records with the cycle in which they are
written (R198); `scanSeq` numbers the scans of a launch (R156). -/
structure Core where
  mode : CoreMode
  haltNext : Bool
  stall : Stall
  stallTick : Nat
  g : Vector Reg 32
  p : BitVec 8
  c : Vector Word 8
  lc : Vector Word 4
  loops : List LoopFrame
  pc : BitVec 14
  cyc : Reg
  epoch : BitVec 16
  dues : Vector (BitVec 32 × Bool) 4
  dueNext : List (Nat × BitVec 32)
  dueSeen : List Nat
  shadow : Shadow
  imem : Map (Word × BitVec 16)
  imemEpoch : BitVec 16
  imemBlocks : List (Nat × Nat)
  launch : Option CoreLaunch
  flags : BitVec 64
  setNow : BitVec 64
  setStream : BitVec 64
  acted : List (Nat × Nat)
  stepFlag : Bool
  pond : Mem
  stores : List (Nat × Nat × List Byte)
  records : List (Reg × Nat × List Byte)
  queues : Vector EngQ 4
  array : EUnit
  path : EUnit
  vec : EUnit
  rsv : EUnit
  streamBusy : Reg
  xfers : List Xfer
  nextXfer : Nat
  scanSeq : Nat
  bank0 : Bank
  bank1 : Bank
  mmaSeq : Nat
  pathSeq : Nat
  slots : Vector Slot 16
  dcache : List DEntry
  trackers : List Tracker
  staged : List Staged
  rsvOverflow : Bool
deriving DecidableEq, Repr

/-- A freeze that has been raised (R159 to R162): effect cycle, whether it has taken effect, the conditions merged into
it (member, engine), the tick of the effect and the tick at which the last condition cleared. -/
structure Freeze where
  effect : Reg
  active : Bool
  conds : List (Nat × Nat)
  effectTick : Nat
  clearTick : Option Nat
deriving DecidableEq, Repr

/-- Operands in flight in the operand network of a span (R152, R153): the MMA's number, A (rows) or B (columns), the band,
what the edge has injected so far, and how many members have still to take all of it. -/
structure Wave where
  seq : Nat
  isA : Bool
  band : Nat
  op : Operand
  left : Nat
deriving DecidableEq, Repr

/-- The record of a span-wide drain being formed (R157): its number, members still to finish, sums of counts and bins,
where each member writes it, and the cycle at which it is complete. -/
structure DrainSum where
  seq : Nat
  left : Nat
  counts : Counts
  bins : List Nat
  anchor : Int
  addrs : List (Nat × Nat)
  due : Reg
deriving DecidableEq, Repr

/-- A scan in a span (R156): its number, members that have contributed, and for each K-block the largest exponents of A and B. -/
structure ScanSum where
  seq : Nat
  joined : Nat
  blocks : List (Nat × Option Int × Option Int)
deriving DecidableEq, Repr

/-- What the elements of one block tell of its scale: a NaN, or floor(log2) of the largest magnitude (R87); whether one of them is
poisoned (R614). -/
structure BlockMax where
  key : Nat
  nan : Bool
  top : Option Int
  bad : Bool
deriving DecidableEq, Repr

/-- An active span (R146): `blockMax` holds what members tell of the blocks that they share, by number of the drain (R124), `stretch` is its setting (R58, R59). -/
structure ActiveSpan where
  span : Nat
  x0 : Nat
  y0 : Nat
  w : Nat
  h : Nat
  hq : Nat
  job : Nat
  tag : BitVec 32
  epoch : BitVec 16
  freeze : Option Freeze
  waves : List Wave
  drains : List DrainSum
  blockMax : List (Nat × BlockMax)
  scans : List ScanSum
  stretch : Nat
  fault : Option Nat
deriving DecidableEq, Repr

/-- The summary that a collective message carries (R432): OVER, GRID, SAT, NEED (−32,768 when none) and Pc. -/
structure Summary where
  overRange : Bool
  grid : Bool
  sat : Bool
  need : Int
  pc : Nat
deriving DecidableEq, Repr

/-- A running COLL of one member on one channel (R421 to R444), with the channel's configuration as it was at its start
(R454). `stage`: 0 reduction ring, 1 summary complete, 2 gather ring, 3 S1 exchange, 4 result ready; `t` is the ring step and
`pass` tells the second pass. `own` are its words of the pass, `shards` the sums it holds by rank, `bits` gathered or S1
payloads by rank, `blot` the blotter's new residuals. `waiting`: an earlier COLL of its channel runs (R423), or its reads wait for earlier accesses of its core (`late`, R310). `empty`: it
moves nothing (R285). -/
structure Coll where
  core : Nat
  xfer : Nat
  job : Nat
  chan : Nat
  base : Nat
  n : Nat
  rank : Nat
  absent : Bool
  member : Nat
  seq : Nat
  op : Nat
  word : Nat
  anchor : Int
  anchor2 : Int
  parts : Nat
  e : Nat
  stage : Nat
  t : Nat
  pass : Bool
  own : List (Int × Special)
  shards : List (Nat × List (Int × Special))
  bits : List (Nat × List Byte)
  ownSum : Summary
  sum : Summary
  mismatch : Option (Nat × Nat)
  waiting : Bool
  late : Bool
  empty : Bool
  blot : PondWrite
deriving DecidableEq, Repr

/-- A COLL that completed in the current attempt, as the step record lists it (R512). -/
structure CollEntry where
  chan : Nat
  seq : Nat
  a : Int
  final : Int
  word : Nat
  repeated : Bool
  grid : Bool
  sat : Bool
  mismatch : Bool
  pc : Nat
  reduction : Bool
  p : Nat
deriving DecidableEq, Repr

/-- The commit vector of R508. -/
structure CommitVec where
  fps : List Reg
  fpPoison : BitVec 16
  ranks : List Nat
  modules : Nat
deriving DecidableEq, Repr

/-- The commit exchange of a job in progress on this module (R508): channel, first flow, sequence number, ring size and
position, ring step, the vector to pass on next, and the combination so far. -/
structure Exchange where
  chan : Nat
  base : Nat
  seq : Nat
  n : Nat
  rank : Nat
  t : Nat
  own : CommitVec
  acc : CommitVec
  mismatch : Bool
deriving DecidableEq, Repr

/-- Progress of a checkpoint or restore of a job (R519 to R527): the partner copy of a step, the flash write that a
correlated checkpoint waits for (R525), a restore of a step from tier 2 (partner), 3 (flash) or 4 (snapshot), named by OP, that
waits for the scribe (R574) or is under way. -/
inductive CkState where
  | idle
  | partnerCopy (step : Nat)
  | flashFirst (step : Nat)
  | restoreAsked (step op : Nat)
  | restoring (step op : Nat)
deriving DecidableEq, Repr

/-- A partner copy that arrives in this module's hold region (R520): flow, owner, step, owner's FEED_ID, slot, whether it
is correlated, data bytes written, S once it is known. -/
structure HoldIn where
  flow : Nat
  rank : Nat
  step : Nat
  feed : Nat
  slot : Nat
  correlated : Bool
  got : Nat
  size : Option Nat
deriving DecidableEq, Repr

/-- A checkpoint generation held in local flash (R523): step, data, for each byte whether it is poisoned, its fingerprint, and whether it was written while the
flash controller was secure (R549). -/
structure Generation where
  step : Nat
  secure : Bool
  data : List Byte
  bad : List Bool
  print : Reg
deriving DecidableEq, Repr

/-- Why a job's spans stay at a boundary. -/
inductive Hold where
  /-- parked after repeats or from the exchange (R448, R510) -/
  | parked
  /-- killed and held (R497) -/
  | killed
  /-- orphaned (R477) -/
  | orphaned
  /-- full record ring with HOLD (R515) -/
  | record
  /-- held for a row fence (R489) -/
  | fence
  /-- a checkpoint runs (R519) -/
  | checkpoint
deriving DecidableEq, Repr

/-- A job's state on the module: carried poison (R323), commit limit (R466), steps whose STEP entries asked for a
checkpoint (R519), the consumption that reached the steward (kind, core, flow, address), a step abort that waits for the
dispatcher (R574: blamed rank, marker), reasons to hold, the suspect cores that held it at its last kill (R497), commit exchange, COLLs completed in
the attempt, the records that wait for a slot (R515), one that waits for the end of its checkpoint, records that the scribe has still to
write, the last committed step's record, ring state, lapse and whether the last commit came after it (R477), checkpoint progress,
snapshot region (step, filled, held), flash write in progress and whether it is that of a correlated checkpoint (R525), flash generations newest first, hold region progress, restore data received by offset, its
S and its fingerprint. -/
structure Job where
  carried : Bool
  limit : Nat
  ckSteps : List Nat
  killLatch : Option (Nat × Nat × Nat × Nat)
  abortDue : Option (Nat × Option Nat)
  holds : List Hold
  suspects : List Nat
  exchange : Option Exchange
  colls : List CollEntry
  heldRecords : List (List Byte)
  ckRecord : Option (List Byte)
  records : List (List Byte)
  lastRecord : List Byte
  srPhase : Bool
  srFull : Bool
  lapsing : Bool
  lapseCk : Bool
  ck : CkState
  snapshot : Option Nat
  snapshotFilled : Bool
  snapshotHeld : Bool
  flashWriting : Option Nat
  flashOwn : Bool
  gens : List Generation
  holdIn : Option HoldIn
  restoreIn : List (Nat × List Byte × List Bool)
  restoreSize : Option Nat
  restorePrint : Option Nat
deriving DecidableEq, Repr

/-- What the dispatcher holds of a host queue (R463 to R470). -/
inductive HeldEntry where
  | none
  | program (entry : List Byte) (members : List Nat) (epoch : BitVec 16) (words : List Word)
  | launch (entry : List Byte)
  | fence (entry : List Byte)
deriving DecidableEq, Repr

/-- The state of one host queue beside its registers. -/
structure HQ where
  held : HeldEntry
  cqPhase : Bool
  cqFull : Bool
  violRun : Nat
  pendingCpl : List (List Byte)
deriving DecidableEq, Repr

/-- A record in the pending buffer (R470): its 32 bytes without phase, gap and sequence, and the rings it is meant for. -/
structure PendRec where
  bytes : List Byte
  forEvent : Bool
  forLog : Bool
deriving DecidableEq, Repr

/-- Pass, sequence number and gap mark of the event or log ring (R468, R470, R472). -/
structure RingState where
  phase : Bool
  seq : BitVec 16
  gap : Bool
  full : Bool
deriving DecidableEq, Repr

/-- A swap of a lane onto a spare wavelength (R401, R402); wavelength 31 while it waits for an earlier one (R404). `transmit`: the
direction whose lane moves; `asked`: the partner requested it, and it waits for an earlier one of its direction. -/
structure Swap where
  lane : Nat
  wavelength : Nat
  planned : Bool
  transmit : Bool
  acked : Bool
  asked : Bool
deriving DecidableEq, Repr

/-- The link layer of a port (R393 to R404). Port 8 is the host port's optical layer. Totals modulo 2^16 of each class
(R396): sent, freed by the partner as it reported, received, freed here, and freed here as last reported. `waiting` holds
flits not yet sent, with the port on which a relayed one arrived. `fast`: the attempt began from saved or current settings
(R397); `hello`: a HELLO or LINKID has come in this alignment; `txLanes`, `rxLanes`: the width at which each
direction trains (R404); `lost`: transmit lanes whose source failed and that are not swapped yet, with their wavelength (R403);
`nakDue`: an LNAK waits for the last swap of the receive direction (R402); `tainted`: the flit in hand broke a rule (R417);
`failed`: a flit failed, and those behind it are discarded with it (R393); `early`: numbers of flits that acted before their turn
(R395, R402). -/
structure Port where
  txNext : BitVec 12
  rxExpect : BitVec 12
  replay : List Flit
  lnakSent : Bool
  replays : Nat
  relaySent : BitVec 16
  localSent : BitVec 16
  relayIn : BitVec 16
  localIn : BitVec 16
  relayGot : BitVec 16
  localGot : BitVec 16
  relayFreed : BitVec 16
  localFreed : BitVec 16
  relayTold : BitVec 16
  localTold : BitVec 16
  waiting : List (Flit × Option Nat)
  wire : List Flit
  violRun : Nat × Nat
  swaps : List Swap
  spareTuning : Option Nat
  firstAttemptDone : Bool
  fast : Bool
  hello : Bool
  txLanes : Nat
  rxLanes : Nat
  lost : List (Nat × Nat)
  nakDue : Bool
  tainted : Bool
  failed : Bool
  early : List (BitVec 12)
deriving DecidableEq, Repr

/-- An attempt marker of a later step (R447), with the flits that came behind it. -/
structure HeldMarker where
  step : Nat
  attempt : Nat
  behind : List Flit
deriving DecidableEq, Repr

/-- A flow beside its context words (R409 to R417, R445, R447): its retransmit buffer, flits that wait for room in it
with the core and transfer whose SEND they belong to, accepted flits, the flits that the waiting consumer has taken of its
message so far (R411), the CLIMIT last sent, the last marker (step, attempt), markers held for a later step. -/
structure Flow where
  rtx : List Flit
  txq : List (Flit × Option (Nat × Nat))
  rx : List Flit
  part : List Flit
  told : BitVec 12
  marker : Option (Nat × Nat)
  heldMarkers : List HeldMarker
  heard : Bool
  latePosted : Bool
  tries : Nat
  acceptedSince : Nat
  violRun : Nat × Nat
  stalledPosted : Bool
deriving DecidableEq, Repr

/-- The state of a sync object beside SY_OCFG (R368 to R376). `tokens` holds (round, sense, count). -/
structure Obj where
  value : Reg
  arrived : Nat
  sense : Bool
  round : Nat
  remote : Bool
  phases : BitVec 32
  tokens : List (Nat × Bool × Nat)
  timedOut : Bool
deriving DecidableEq, Repr

/-- A line that the lake holds (R309): whether a prefetch brought it and no demand has used it, and whether it is dirty. -/
structure LakeLine where
  prefetched : Bool
  dirty : Bool
deriving DecidableEq, Repr

/-- A page or pseudo-channel copy of a memory controller (R305, R306). -/
inductive McCopy where
  | page (pch page : Nat)
  | pch (pch : Nat)
deriving DecidableEq, Repr

/-- A memory controller beside its registers. `errs` counts corrected errors per page (pseudo-channel, page); `targets` gives
the pool page that takes the place of a page (R305, R306). -/
structure MemCtl where
  errs : Map Nat
  retired : List (Nat × Nat)
  targets : Map Nat
  copies : List McCopy
  exhaustedLogged : Bool
deriving DecidableEq, Repr

/-- The lease (R475). -/
inductive Lease where
  | none
  | held (token : Reg)
  | lapsed (token : Reg)
deriving DecidableEq, Repr

/-- The host link layer (R456 to R458, R479, R481): as `Port`, with the adapter's buffer sizes (R457), the totals of posted
flits sent and freed by the adapter, those received and last reported as freed, and the fragments
of a management message so far. -/
structure HostLink where
  txNext : BitVec 12
  rxExpect : BitVec 12
  replay : List HFlit
  wire : List HFlit
  waiting : List HFlit
  lnakSent : Bool
  replays : Nat
  postedBuf : Nat
  requestBuf : Nat
  sent : BitVec 16
  freedIn : BitVec 16
  postedGot : BitVec 16
  requestGot : BitVec 16
  postedTold : BitVec 16
  requestTold : BitVec 16
  fragKind : Option Nat
  fragments : List Byte
  violRun : Nat × Nat
  tainted : Bool
  failed : Bool
  early : List (BitVec 12)
deriving DecidableEq, Repr

/-- Fuses; an in-field entry has its ID blown and, when it counts, its valid bit (R2, R535, R562 to R565, R576, R589). -/
structure Fuses where
  part : Nat
  bad : List Nat
  infield : List (Nat × Bool)
  rollback : Nat
  fpbad : List Nat
  keyhash : Nat
  serial : Reg
  stepping : BitVec 8
  romver : BitVec 8
deriving DecidableEq, Repr

/-- The input voltage as the thresholds of R598 divide it. -/
inductive Vin where
  | off | below36 | low | ok
deriving DecidableEq, Repr

/-- Supply, clock, straps and trip (R594, R598, R600 to R602). `rstIgnored`: a trip has come and VIN has not fallen below 36.0 V since. -/
structure Power where
  vin : Vin
  rstN : Bool
  refOk : Bool
  lock : Bool
  rails : Bool
  tripped : Bool
  rstIgnored : Bool
  feedId : BitVec 4
  slotId : BitVec 6
  vinMv : BitVec 16
  iin : BitVec 16
  pin : BitVec 16
  temps : List (Int × Bool)
  hbmTemps : List Nat
  railEnd : List Nat
deriving DecidableEq, Repr

/-- The saved settings area (R558): trained values of the HBM channels, ring heater set points, laser bias currents and equaliser taps of
the lanes, the CRC-32 with which a write ends, the temperature at the write and the module's serial number. The values themselves are
free (log 36). -/
structure Saved where
  hbm : List Nat
  heaters : List Nat
  bias : List Nat
  taps : List Nat
  crc : Option (BitVec 32)
  temp : Int
  serial : Reg
deriving DecidableEq, Repr

/-- A copy of the start history (R563): the physical cores that failed BIST, and the CRC with which its write ends. -/
structure HistoryCopy where
  ids : List Nat
  crc : Option (BitVec 32)
deriving DecidableEq, Repr

/-- A step of what keeper writes to fuses and boot flash: the ID and the valid bit of an in-field entry (R564), the body and CRC of a
copy of the start history (R563) and of the saved settings (R561), and the anti-rollback bits up to a count (R535). -/
inductive KeeperWrite where
  | infieldId (p : Nat) | infieldValid (p : Nat)
  | historyBody (ids : List Nat) | historyCrc
  | savedBody (a : Saved) | savedCrc
  | rollback (count : Nat)
deriving DecidableEq, Repr

/-- A request that keeper works on (R547 to R550): register and value, whether it has been checked and admitted, and for a
rank map entry the rank that waits for its flows, with the flows that have been reset since. -/
structure KeeperWork where
  addr : Nat
  value : Reg
  admitted : Bool
  waitRank : Option Nat
  resets : List Nat
deriving DecidableEq, Repr

/-- An SPDM response that keeper has given (R481, R482, R546): its kind and content as far as the spec states it. -/
inductive SpdmReply where
  | version | capabilities | algorithms | digests (chain : List Byte) | certificate (part : List Byte)
  | challengeAuth (nonce : List Byte) (signature : Nat)
  | measurements (index : Nat) (values : List Nat) (nonce : List Byte) (signature : Option Nat)
  | errorBusy | errorUnsupported | errorInvalid
deriving DecidableEq, Repr

/-- An SPDM request that has arrived (R481, R482); `other`: one that R482 does not list, with its code. -/
inductive SpdmRequest where
  | version | capabilities | algorithms | digests
  | certificate (slot off len : Nat)
  | challenge (slot : Nat) (nonce : List Byte)
  | measurements (index : Nat) (signed : Bool) (nonce : List Byte)
  | other (code : Nat)
deriving DecidableEq, Repr

/-- The fast-read modes of the boot flash (R532): 1-4-4, 1-1-4, 1-1-1. -/
inductive FlashRead where
  | quadIo | quadOutput | single
deriving DecidableEq, Repr

/-- What ROM takes from the flash's parameter tables (R532): whether it addresses with 4 bytes and how the table says the mode is
entered, the read mode, its instruction and dummy cycles, and the erase sizes in bytes with their instructions. -/
structure FlashMode where
  fourByte : Bool
  enter : Nat
  read : FlashRead
  opcode : Nat
  dummy : Nat
  erases : List (Nat × Nat)
deriving DecidableEq, Repr

/-- Firmware state beside its registers (R531 to R577): boot flash (an unlisted byte is erased, log 4), the image header that
recovery mode holds back (R538), progress of the start-up stages, whether keeper is still in ROM, failed processors, the start
history's copies newest first and this start's BIST failures (R563), saved settings (R558, R559), what keeper has still to write
to fuses and flash (R570), measurements 1 to 4 (R545), SPDM
replies, the token and the request that keeper works on (R547), the copy of an update image (R540), resets that wait (R568,
R569), the last SMBus answer and the number of NACKs (R605), ports that hold their traffic for the pilot (R574), SPDM requests that
wait for keeper (R481), event records dropped since the reset and how many when each processor crashed (R473), how ROM reads the
flash (R532), governor intervals of stage 3 (R552), router failures that wait for the steward (R488, R574), whether the pilot has
routes to rebuild (R453), the packet error code of the last SMBus answer (R604), the copies of the image's components and the digests
of the loaded ones, and when each processor last crashed and restarted (R572). -/
structure Firm where
  flash : Map Byte
  recov : Option (List Byte)
  wave : Nat
  poweredStacks : Nat
  banks : Nat
  tested : List Nat
  recovery : Bool
  inRom : Bool
  fpFailed : List Nat
  history : List HistoryCopy
  bist : List Nat
  saved : Option Saved
  writes : List KeeperWrite
  startTemp : Int
  measurements : List Nat
  replies : List SpdmReply
  token : Reg
  keeper : Option KeeperWork
  updating : List Byte
  flrPending : Bool
  resetsDue : List Nat
  smbus : Option (List Byte)
  smbusNacks : Nat
  defer : List Nat
  asked : List SpdmRequest
  losses : Nat
  crashLosses : Map Nat
  flashMode : Option FlashMode
  bistTicks : Nat
  routersDue : List Nat
  reroute : Bool
  smbusPec : Option Byte
  copies : List (List Byte)
  loaded : List Nat
  crashTick : Map Nat
  restartTick : Map Nat
deriving DecidableEq, Repr

/-- A row fence pending or under way (R489 to R495): row, suspect physical cores. -/
structure RowFence where
  row : Nat
  shifting : Bool
  fenced : List Nat
  narrow : Bool
deriving DecidableEq, Repr

/-- A wait request of a core at the sync block (R371): object, operand or sense. -/
structure Waiter where
  obj : Nat
  operand : Reg
  isSluice : Bool
  refused : Bool
  released : Bool
deriving DecidableEq, Repr

/-- The device. `loopback` holds frames that stay on the module, with the port on which a relayed one arrived (R406); `collDone`
what a COLL that some members of its span have completed will show in FB_CSTAT, by channel and sequence number (R454), `collCfg` the configuration with which the first
member started a COLL that runs (R454). `hidden`
lists granules that HBM holds poisoned beneath a line that the lake holds (R303, R309). -/
structure State where
  pending : List Instr
  ticks : Nat
  freeCtr : Nat
  regs : Map Reg
  silicon : Map Reg
  mem : Mem
  cores : Map Core
  active : List ActiveSpan
  colls : List Coll
  collSeq : Map Nat
  collCfg : Map Reg
  collDone : Map CollEntry
  jobs : Map Job
  hqs : Map HQ
  spanEpoch : Map (BitVec 16)
  eventRing : RingState
  logRing : RingState
  secureLog : RingState
  pendRecs : List PendRec
  lease : Lease
  hostLink : HostLink
  ports : Map Port
  flows : Map Flow
  loopback : List (Option Nat × Flit)
  tokensIn : List (Nat × Option Nat × Flit)
  objs : Map Obj
  objCopies : Map Obj
  waiters : Map Waiter
  mcs : Map MemCtl
  lake : Map LakeLine
  hidden : List Nat
  zeroing : List Nat
  fuses : Fuses
  power : Power
  firm : Firm
  fences : List RowFence
  governor : Map Nat
  fencedField : List Nat
  width : Nat
deriving DecidableEq, Repr

/-- Memory after power-on: nothing listed, nothing poisoned (log 4). -/
def Mem.reset : Mem := { bytes := [], poison := [] }

/-- A well register element that holds 0 (R114). -/
def Elem.zero : Elem :=
  { n := 0, special := .finite, sat := false, grid := false, overRange := false, poison := false, acc := 0, lev := [], kc := 0 }

def Bank.reset : Bank := { anchor := 0, copybook := false, valid := false, elems := [], inflight := 0 }

def Counts.zero : Counts := { sat := 0, grid := 0, flush := 0, nan := 0 }

def PondWrite.none : PondWrite := { cells := [], bad := [] }

def EUnit.reset : EUnit := { busyUntil := 0, runs := [] }

def Operand.empty : Operand := { fmt := 0, scaled := false, rows := [] }

def EngQ.reset : EngQ :=
  { cmds := [], seen := [], fresh := 0, idle := [(0, 0, 0), (1, 0, 0), (2, 0, 0)], idleUntil := 0, idleRuns := [], waitTick := none, timedOut := false }

def Slot.reset : Slot := { k0 := 0, k1 := 0, k2 := 0, free := false, cursor := 0, mbatch := 0 }

def Shadow.reset : Shadow :=
  { g := Vector.replicate 32 0, p := 1, c := Vector.replicate 8 0, lc := Vector.replicate 4 0, loops := [], pc := 0,
    cyc := 0, flags := 0, depths := [], fps := [], fpPoison := 0 }

/-- A core after reset (R200, R201): halted, every register 0, p0 true. -/
def Core.reset : Core :=
  { mode := .halted, haltNext := false, stall := .none, stallTick := 0, g := Vector.replicate 32 0, p := 1, c := Vector.replicate 8 0,
    lc := Vector.replicate 4 0, loops := [], pc := 0, cyc := 0, epoch := 0, dues := Vector.replicate 4 (0, false),
    dueNext := [], dueSeen := [], shadow := Shadow.reset, imem := [], imemEpoch := 0, imemBlocks := [], launch := none, flags := 0, setNow := 0,
    setStream := 0, acted := [], stepFlag := false, pond := Mem.reset, stores := [], records := [], queues := Vector.replicate 4 EngQ.reset,
    array := EUnit.reset, path := EUnit.reset, vec := EUnit.reset, rsv := EUnit.reset, streamBusy := 0, xfers := [],
    nextXfer := 0, scanSeq := 0, bank0 := Bank.reset, bank1 := Bank.reset, mmaSeq := 0, pathSeq := 0,
    slots := Vector.replicate 16 Slot.reset, dcache := [], trackers := [], staged := [], rsvOverflow := false }

def Job.reset : Job :=
  { carried := false, limit := 2 ^ 48 - 1, ckSteps := [], killLatch := none, abortDue := none, holds := [], suspects := [], exchange := none, colls := [],
    heldRecords := [], ckRecord := none, records := [], lastRecord := [], srPhase := true, srFull := false, lapsing := false,
    lapseCk := false, ck := .idle, snapshot := none, snapshotFilled := false, snapshotHeld := false, flashWriting := none,
    flashOwn := false, gens := [],
    holdIn := none, restoreIn := [], restoreSize := none, restorePrint := none }

def HQ.reset : HQ := { held := .none, cqPhase := true, cqFull := false, violRun := 0, pendingCpl := [] }

def RingState.reset : RingState := { phase := true, seq := 0, gap := false, full := false }

def HostLink.reset : HostLink :=
  { txNext := 0, rxExpect := 0, replay := [], wire := [], waiting := [], lnakSent := false, replays := 0, postedBuf := 0,
    requestBuf := 0, sent := 0, freedIn := 0, postedGot := 0, requestGot := 0, postedTold := 0, requestTold := 0, fragKind := none,
    fragments := [], violRun := (0, 0), tainted := false, failed := false, early := [] }

def Port.reset : Port :=
  { txNext := 0, rxExpect := 0, replay := [], lnakSent := false, replays := 0, relaySent := 0, localSent := 0,
    relayIn := 0, localIn := 0, relayGot := 0, localGot := 0, relayFreed := 0, localFreed := 0, relayTold := 0,
    localTold := 0, waiting := [], wire := [],
    violRun := (0, 0), swaps := [], spareTuning := none, firstAttemptDone := false, fast := false, hello := false, txLanes := 16,
    rxLanes := 16, lost := [], nakDue := false, tainted := false, failed := false, early := [] }

def Flow.reset : Flow :=
  { rtx := [], txq := [], rx := [], part := [], told := 512, marker := none, heldMarkers := [], heard := false,
    latePosted := false, tries := 0, acceptedSince := 0, violRun := (0, 0), stalledPosted := false }

def Obj.reset : Obj :=
  { value := 0, arrived := 0, sense := false, round := 0, remote := false, phases := 0, tokens := [], timedOut := false }

def MemCtl.reset : MemCtl := { errs := [], retired := [], targets := [], copies := [], exhaustedLogged := false }

/-- Fuses of the modelled module: ZMT-1024-256 without a defect (log 3). -/
def Fuses.reset : Fuses :=
  { part := 0, bad := [], infield := [], rollback := 0, fpbad := [], keyhash := 0, serial := 0, stepping := 0, romver := 0 }

/-- Input in range, reset held low by the pull-down of RST_N (R600), die rails off until it rises (R610), straps at their
unconnected values (R601). -/
def Power.reset : Power :=
  { vin := .ok, rstN := false, refOk := true, lock := true, rails := false, tripped := false, rstIgnored := false, feedId := 15, slotId := 63,
    vinMv := 4400, iin := 0, pin := 0, temps := List.replicate 16 (60, true), hbmTemps := List.replicate 8 50, railEnd := List.replicate 8 0 }

/-- Firmware before start-up: boot flash erased (log 4), keeper in ROM. -/
def Firm.reset : Firm :=
  { flash := [], recov := none, wave := 0, poweredStacks := 0, banks := 0, tested := [], recovery := false, inRom := true, fpFailed := [],
    history := [], bist := [], saved := none, writes := [], startTemp := 0, measurements := [], replies := [], token := 0,
    keeper := none, updating := [], flrPending := false, resetsDue := [], smbus := none, smbusNacks := 0, defer := [],
    asked := [], losses := 0, crashLosses := [], flashMode := none, bistTicks := 0, routersDue := [],
    reroute := false, smbusPec := none, copies := [], loaded := [], crashTick := [], restartTick := [] }

/-- The device right after a power-on reset (R566): RST_N still low, start-up not begun, every register at its Reset
value, the command queue empty. -/
def State.reset : State :=
  { pending := [], ticks := 0, freeCtr := 0, regs := [], silicon := [], mem := Mem.reset, cores := [], active := [],
    colls := [], collSeq := [], collCfg := [], collDone := [], jobs := [], hqs := [], spanEpoch := [], eventRing := RingState.reset, logRing := RingState.reset,
    secureLog := RingState.reset, pendRecs := [], lease := .none, hostLink := HostLink.reset, ports := [], flows := [], loopback := [], tokensIn := [],
    objs := [], objCopies := [], waiters := [], mcs := [], lake := [], hidden := [], zeroing := [], fuses := Fuses.reset,
    power := Power.reset, firm := Firm.reset, fences := [], governor := [], fencedField := [], width := 32 }

end Sys2Proof.Machine
end

