-- ==== Sys2Proof/Machine/Ops.lean ====
section
/-! DEFINITION. Named operations over tables, memories, registers and cores, which every meaning uses. -/

namespace Sys2Proof.Machine

open Sys2Proof

/-! ## Bits -/

/-- Bits [lo + w − 1 : lo] of a number. -/
def bitsOf (v lo w : Nat) : Nat := v / 2 ^ lo % 2 ^ w

/-- The number `v` with bits [lo + w − 1 : lo] replaced by `x`. -/
def setBitsOf (v lo w x : Nat) : Nat := v - bitsOf v lo w * 2 ^ lo + x % 2 ^ w * 2 ^ lo

/-- Whether bit `i` is 1. -/
def bitOf (v i : Nat) : Bool := v / 2 ^ i % 2 = 1

/-- Two's complement reading of the low `w` bits. -/
def signedOf (w v : Nat) : Int :=
  let x := v % 2 ^ w
  if x < 2 ^ (w - 1) then (x : Int) else (x : Int) - 2 ^ w

/-- Two's complement encoding in `w` bits. -/
def toSigned (w : Nat) (i : Int) : Nat := (i % (2 ^ w : Int)).toNat

/-- The `n` little-endian bytes of a number (R11). -/
def leBytes : Nat → Nat → List Byte
  | 0, _ => []
  | n + 1, v => BitVec.ofNat 8 v :: leBytes n (v / 256)

/-- The number that little-endian bytes make (R11). -/
def leNat : List Byte → Nat
  | [] => 0
  | b :: bs => b.toNat + 256 * leNat bs

/-- Addition that saturates at the largest value of a field of `w` bits. -/
def satAdd (w v n : Nat) : Nat := min (v + n) (2 ^ w - 1)

/-! ## Tables -/

/-- The value that a table holds at a key, `d` where the key is not listed. -/
def mget {α : Type} (m : Map α) (d : α) (k : Nat) : α :=
  match m.find? (fun e => e.1 == k) with
  | some e => e.2
  | none => d

/-- Whether a key is listed. -/
def mhas {α : Type} (m : Map α) (k : Nat) : Bool := m.any (fun e => e.1 == k)

/-- The table with a value at a key, keys staying in rising order. -/
def mput {α : Type} : Map α → Nat → α → Map α
  | [], k, v => [(k, v)]
  | (k', v') :: m, k, v =>
    if k < k' then (k, v) :: (k', v') :: m
    else if k = k' then (k, v) :: m
    else (k', v') :: mput m k v

/-- The table without a key. -/
def mdel {α : Type} (m : Map α) (k : Nat) : Map α := m.filter (fun e => e.1 != k)

/-- Insertion into a rising list of numbers without repeats. -/
def insertNat : List Nat → Nat → List Nat
  | [], k => [k]
  | a :: l, k => if k < a then k :: a :: l else if k = a then a :: l else a :: insertNat l k

/-! ## Memories -/

/-- The cells for bytes laid from `a` upward, zero bytes unlisted (log 4). -/
def cellsOf : Nat → List Byte → List Host.Cell
  | _, [] => []
  | a, b :: bs => if b = 0 then cellsOf (a + 1) bs else (a, b) :: cellsOf (a + 1) bs

/-- Reads `n` bytes from `a` of a list whose addresses are at or above `a`. -/
def readFrom : List Host.Cell → Nat → Nat → List Byte
  | _, _, 0 => []
  | [], a, n + 1 => 0 :: readFrom [] (a + 1) n
  | (k, b) :: l, a, n + 1 => if k = a then b :: readFrom l (a + 1) n else 0 :: readFrom ((k, b) :: l) (a + 1) n

/-- One byte of a cell list. -/
def cellAt (l : List Host.Cell) (a : Nat) : Byte :=
  match l.find? (fun e => e.1 == a) with
  | some e => e.2
  | none => 0

/-- The byte at an address: 0 where none is listed (log 4). -/
def Mem.byte (m : Mem) (a : Nat) : Byte := cellAt m.bytes a

/-- `n` bytes from `a`. -/
def Mem.read (m : Mem) (a n : Nat) : List Byte := readFrom (m.bytes.dropWhile (fun e => e.1 < a)) a n

/-- The bytes written, marks untouched. -/
def cellsPut (l : List Host.Cell) (a : Nat) (d : List Byte) : List Host.Cell :=
  l.takeWhile (fun e => e.1 < a) ++ (cellsOf a d ++ l.dropWhile (fun e => e.1 < a + d.length))

/-- Whether the granule of a byte is poisoned (R300). -/
def Mem.bad (m : Mem) (a : Nat) : Bool := m.poison.contains (a / 32)

/-- Whether any granule of a range is poisoned. -/
def Mem.badRange (m : Mem) (a n : Nat) : Bool :=
  m.poison.any (fun g => a < g * 32 + 32 && g * 32 < a + n)

/-- A write of unpoisoned data: it clears the mark of every granule that it covers whole (R301). -/
def Mem.write (m : Mem) (a : Nat) (d : List Byte) : Mem :=
  { bytes := cellsPut m.bytes a d
    poison := m.poison.filter (fun g => !(a ≤ g * 32 && g * 32 + 32 ≤ a + d.length)) }

/-- Marks the granule of a byte (R300). -/
def Mem.mark (m : Mem) (a : Nat) : Mem := { m with poison := insertNat m.poison (a / 32) }

/-- Marks granules. -/
def Mem.marks (m : Mem) (gs : List Nat) : Mem := { m with poison := gs.foldl insertNat m.poison }

/-- Removes the mark of a granule. -/
def Mem.unmark (m : Mem) (g : Nat) : Mem := { m with poison := m.poison.filter (· != g) }

/-- The granules of a range that are poisoned. -/
def Mem.badList (m : Mem) (a n : Nat) : List Nat :=
  m.poison.filter (fun g => a < g * 32 + 32 && g * 32 < a + n)

/-- The canonical form: addresses rising, no zero byte listed, granules rising. -/
def Mem.wf (m : Mem) : Prop :=
  m.bytes.Pairwise (fun x y => x.1 < y.1) ∧ (∀ e ∈ m.bytes, e.2 ≠ 0) ∧ m.poison.Pairwise (· < ·)

/-- Makes the granules that a list of cells covers partly or whole take a list of writes; used for scattered elements. -/
def Mem.writeCells (m : Mem) (cs : List Host.Cell) : Mem :=
  cs.foldl (fun m c => { m with bytes := cellsPut m.bytes c.1 [c.2] }) m

/-! ## Registers -/

/-- A register's stored value (R13, R14). -/
def State.reg (s : State) (a : Nat) : Reg :=
  match s.regs.find? (fun e => e.1 == a) with
  | some e => e.2
  | none => regReset a

/-- Stores a register's value. -/
def State.setReg (s : State) (a : Nat) (v : Reg) : State :=
  { s with regs := if v = regReset a then mdel s.regs a else mput s.regs a v }

/-- A field of a register. -/
def State.fld (s : State) (a lo w : Nat) : Nat := bitsOf (s.reg a).toNat lo w

/-- Sets a field of a register. -/
def State.setFld (s : State) (a lo w x : Nat) : State :=
  s.setReg a (BitVec.ofNat 64 (setBitsOf (s.reg a).toNat lo w x))

/-- Adds to a field, saturating. -/
def State.satFld (s : State) (a lo w n : Nat) : State := s.setFld a lo w (satAdd w (s.fld a lo w) n)

/-- Adds to a field, wrapping. -/
def State.addFld (s : State) (a lo w n : Nat) : State := s.setFld a lo w (s.fld a lo w + n)

/-! ## Cores -/

def State.core (s : State) (c : Nat) : Core := mget s.cores Core.reset c

def State.setCore (s : State) (c : Nat) (k : Core) : State := { s with cores := mput s.cores c k }

def State.modCore (s : State) (c : Nat) (f : Core → Core) : State := s.setCore c (f (s.core c))

/-- A logical ID that names a core (R8, R45): its x lies below the logical width. -/
def State.hasCore (s : State) (c : Nat) : Bool := decide (c < 1024 ∧ c % 32 < s.width)

def State.job (s : State) (j : Nat) : Job := mget s.jobs Job.reset j

def State.setJob (s : State) (j : Nat) (x : Job) : State := { s with jobs := mput s.jobs j x }

def State.modJob (s : State) (j : Nat) (f : Job → Job) : State := s.setJob j (f (s.job j))

def State.hq (s : State) (q : Nat) : HQ := mget s.hqs HQ.reset q

def State.setHq (s : State) (q : Nat) (x : HQ) : State := { s with hqs := mput s.hqs q x }

def State.modHq (s : State) (q : Nat) (f : HQ → HQ) : State := s.setHq q (f (s.hq q))

def State.port (s : State) (p : Nat) : Port := mget s.ports Port.reset p

def State.setPort (s : State) (p : Nat) (x : Port) : State := { s with ports := mput s.ports p x }

def State.modPort (s : State) (p : Nat) (f : Port → Port) : State := s.setPort p (f (s.port p))

def State.flow (s : State) (f : Nat) : Flow := mget s.flows Flow.reset f

def State.setFlow (s : State) (f : Nat) (x : Flow) : State := { s with flows := mput s.flows f x }

def State.modFlow (s : State) (f : Nat) (g : Flow → Flow) : State := s.setFlow f (g (s.flow f))

def State.obj (s : State) (n : Nat) : Obj := mget s.objs Obj.reset n

def State.setObj (s : State) (n : Nat) (x : Obj) : State := { s with objs := mput s.objs n x }

def State.modObj (s : State) (n : Nat) (f : Obj → Obj) : State := s.setObj n (f (s.obj n))

def State.mc (s : State) (n : Nat) : MemCtl := mget s.mcs MemCtl.reset n

def State.setMc (s : State) (n : Nat) (x : MemCtl) : State := { s with mcs := mput s.mcs n x }

/-- The next free value as a number below `2 ^ w`, and the state that has used it (log 6). -/
def State.freeVal (s : State) (w : Nat) : Nat × State :=
  (Config.free s.freeCtr % 2 ^ w, { s with freeCtr := s.freeCtr + 1 })

/-- `n` free values of `w` bits. -/
def State.freeVals (s : State) (w n : Nat) : List Nat × State :=
  ((List.range n).map fun i => Config.free (s.freeCtr + i) % 2 ^ w, { s with freeCtr := s.freeCtr + n })

/-- Whether FU_BAD marks a core: by manufacture, or by an in-field entry with its valid bit (R562, R564). -/
def Fuses.marks (f : Fuses) (p : Nat) : Bool := f.bad.contains p || f.infield.contains (p, true)

/-! ## Addresses of registers the meanings name -/

def hqCfg (q : Nat) : Nat := 0x8100210000 + 32 * q
def hqDt (q : Nat) : Nat := 0x8100210008 + 32 * q
def hqCq (q : Nat) : Nat := 0x8100210010 + 32 * q
def hqPtr (q : Nat) : Nat := 0x8100210018 + 32 * q
def evRingReg : Nat := 0x8100200020
def evPtr : Nat := 0x8100200028
def logRingReg : Nat := 0x8100200030
def logPtr : Nat := 0x8100200038
def slogPtr : Nat := 0x8100900040
def fwProc (p : Nat) : Nat := 0x8100900100 + 8 * p
def fwStatus : Nat := 0x8100900000
def swRegion (n : Nat) : Nat := 0x8100600000 + 8 * n
def swWcore (n : Nat) : Nat := 0x8100604000 + 8 * n
def swWsx (n : Nat) : Nat := 0x8100604080 + 8 * n
def swWhq (n : Nat) : Nat := 0x8100604100 + 8 * n
def swWflow (n : Nat) : Nat := 0x8100604200 + 8 * n
def swWfl : Nat := 0x8100604400
def swBlocked : Nat := 0x8100604408
def swScrub : Nat := 0x8100604410
def syOcfg (n : Nat) : Nat := 0x8300000000 + 64 * n
def nwSpan (k : Nat) : Nat := 0x8100B01000 + 8 * k
def nwCapacity : Nat := 0x8100B00000
def fbCfg : Nat := 0x8100300000
def fbPctl (p : Nat) : Nat := 0x8100301000 + 0x100 * p
def fbPstate (p : Nat) : Nat := 0x8100301008 + 0x100 * p
def fbCcfg (ch : Nat) : Nat := 0x8100310000 + 16 * ch
def fbCstat (ch : Nat) : Nat := 0x8100310008 + 16 * ch
def fbJobpol (j : Nat) : Nat := 0x8100314000 + 8 * j
def fcWord (f w : Nat) : Nat := 0x8400000000 + 256 * f + 8 * w
def fwStepcfg (j : Nat) : Nat := 0x8100908000 + 0x80 * j
def fwSrring (j : Nat) : Nat := 0x8100908008 + 0x80 * j
def fwSrptr (j : Nat) : Nat := 0x8100908010 + 0x80 * j
def fwCkcfg (j : Nat) : Nat := 0x8100908018 + 0x80 * j
def fwCksnap (j : Nat) : Nat := 0x8100908020 + 0x80 * j
def fwCkhold (j : Nat) : Nat := 0x8100908028 + 0x80 * j
def fwCklist (j : Nat) : Nat := 0x8100908030 + 0x80 * j
def fwCkctl (j : Nat) : Nat := 0x8100908038 + 0x80 * j
def fwCkstat (j : Nat) : Nat := 0x8100908040 + 0x80 * j
def fwCkstep (j : Nat) : Nat := 0x8100908048 + 0x80 * j
def vxStep (c : Nat) : Nat := cw c 0x81408

/-- The job of a host queue (HI_HQCFG.JOB). -/
def State.hqJob (s : State) (q : Nat) : Nat := s.fld (hqCfg q) 45 6

end Sys2Proof.Machine
end

