-- ==== Sys2Proof/Machine/Numbers.lean ====
section
/-! DEFINITION. Exact numbers: rationals kept as a numerator over a positive denominator, and values with the special
states of R72 and R93. -/

namespace Sys2Proof.Machine

open Sys2Proof

/-- A rational number `num / den`; `den` is never 0 in a number that the model builds. -/
structure Q where
  num : Int
  den : Nat
deriving DecidableEq, Repr

/-- A finite number, an infinity, or NaN. -/
inductive Val where
  | nan
  | inf (neg : Bool)
  | fin (q : Q)
deriving DecidableEq, Repr

def Q.ofInt (i : Int) : Q := ⟨i, 1⟩

def Q.zero : Q := ⟨0, 1⟩

/-- `i × 2^e`. -/
def Q.dyadic (i : Int) (e : Int) : Q := if 0 ≤ e then ⟨i * 2 ^ e.toNat, 1⟩ else ⟨i, 2 ^ (-e).toNat⟩

def Q.isZero (a : Q) : Bool := a.num = 0

def Q.neg (a : Q) : Q := ⟨-a.num, a.den⟩

def Q.isNeg (a : Q) : Bool := a.num < 0

def Q.abs (a : Q) : Q := ⟨a.num.natAbs, a.den⟩

/-- Sum; where one denominator divides the other, the larger is kept. -/
def Q.add (a b : Q) : Q :=
  if a.den = b.den then ⟨a.num + b.num, a.den⟩
  else if b.den % a.den = 0 then ⟨a.num * (b.den / a.den) + b.num, b.den⟩
  else if a.den % b.den = 0 then ⟨a.num + b.num * (a.den / b.den), a.den⟩
  else ⟨a.num * b.den + b.num * a.den, a.den * b.den⟩

def Q.sub (a b : Q) : Q := a.add b.neg

/-- Powers of two common to numerator and denominator removed, so that long sums and products stay small. -/
def Q.trim (a : Q) : Q :=
  if a.num = 0 then ⟨0, 1⟩ else
    let g := Nat.gcd a.num.natAbs a.den
    ⟨a.num / g, a.den / g⟩

def Q.mul (a b : Q) : Q := Q.trim ⟨a.num * b.num, a.den * b.den⟩

/-- Quotient by a non-zero number. -/
def Q.div (a b : Q) : Q :=
  if b.num < 0 then Q.trim ⟨-(a.num * b.den), a.den * b.num.natAbs⟩ else Q.trim ⟨a.num * b.den, a.den * b.num.natAbs⟩

def Q.lt (a b : Q) : Bool := a.num * b.den < b.num * a.den

def Q.le (a b : Q) : Bool := a.num * b.den ≤ b.num * a.den

def Q.eq (a b : Q) : Bool := a.num * b.den = b.num * a.den

def Q.max (a b : Q) : Q := if a.lt b then b else a

/-- `a × 2^e`. -/
def Q.scale (a : Q) (e : Int) : Q := if 0 ≤ e then Q.trim ⟨a.num * 2 ^ e.toNat, a.den⟩ else Q.trim ⟨a.num, a.den * 2 ^ (-e).toNat⟩

/-- floor(a). -/
def Q.floor (a : Q) : Int := a.num / a.den

/-- floor(log2 |a|) of a non-zero number. -/
def Q.log2 (a : Q) : Int :=
  let n := a.num.natAbs
  let e : Int := (n.log2 : Int) - (a.den.log2 : Int)
  -- 2^(e−1) < |a| < 2^(e+1)
  if 0 ≤ e then (if a.den * 2 ^ e.toNat ≤ n then e else e - 1)
  else (if a.den ≤ n * 2 ^ (-e).toNat then e else e - 1)

/-- The integer nearest to a, ties to even. -/
def Q.rne (a : Q) : Int :=
  let f := a.floor
  let r := 2 * (a.num - f * a.den)
  if r < a.den then f
  else if (a.den : Int) < r then f + 1
  else if f % 2 = 0 then f else f + 1

/-- Stochastic rounding to an integer with the draw u (R83). -/
def Q.sr (a : Q) (u : Nat) : Int :=
  let f := a.floor
  let t := ((a.num - f * a.den).toNat * 2 ^ 32) / a.den
  if u < t then f + 1 else f

/-- Rounds to an integer: to nearest-even, or with a draw. -/
def Q.roundInt (a : Q) (draw : Option Nat) : Int :=
  match draw with
  | none => a.rne
  | some u => a.sr u

/-- Rounds to a multiple of 2^e: the multiplier. -/
def Q.grid (a : Q) (e : Int) (draw : Option Nat) : Int := (a.scale (-e)).roundInt draw

/-- Largest integer whose square does not exceed n. -/
def natSqrtGo : Nat → Nat → Nat → Nat
  | 0, _, r => r
  | k + 1, n, r =>
    let r' := r + 2 ^ k
    natSqrtGo k n (if r' * r' ≤ n then r' else r)

def natSqrt (n : Nat) : Nat := natSqrtGo (n.log2 / 2 + 1) n 0

/-! ## Values -/

def Val.zero : Val := .fin Q.zero

def Val.isNan : Val → Bool
  | .nan => true
  | _ => false

def Val.isFin : Val → Bool
  | .fin _ => true
  | _ => false

def Val.neg : Val → Val
  | .nan => .nan
  | .inf b => .inf (!b)
  | .fin q => .fin q.neg

def Val.abs : Val → Val
  | .nan => .nan
  | .inf _ => .inf false
  | .fin q => .fin q.abs

/-- The combination rules of R93. -/
def Val.add : Val → Val → Val
  | .nan, _ => .nan
  | _, .nan => .nan
  | .inf a, .inf b => if a = b then .inf a else .nan
  | .inf a, .fin _ => .inf a
  | .fin _, .inf b => .inf b
  | .fin a, .fin b => .fin (a.add b)

/-- Whether the value is below zero (an infinity by its sign). -/
def Val.isNeg : Val → Bool
  | .nan => false
  | .inf b => b
  | .fin q => q.isNeg

def Val.isZero : Val → Bool
  | .fin q => q.isZero
  | _ => false

/-- Product: an infinity times zero is NaN (IEEE 754). -/
def Val.mul : Val → Val → Val
  | .nan, _ => .nan
  | _, .nan => .nan
  | .fin a, .fin b => .fin (a.mul b)
  | a, b => if a.isZero || b.isZero then .nan else .inf (a.isNeg != b.isNeg)

def Special.combine : Special → Special → Special
  | .nan, _ => .nan
  | _, .nan => .nan
  | .finite, b => b
  | a, .finite => a
  | .posInf, .posInf => .posInf
  | .negInf, .negInf => .negInf
  | _, _ => .nan

def Val.special : Val → Special
  | .nan => .nan
  | .inf false => .posInf
  | .inf true => .negInf
  | .fin _ => .finite

/-- A number with a special state (R81). -/
def Special.val (sp : Special) (q : Q) : Val :=
  match sp with
  | .finite => .fin q
  | .posInf => .inf false
  | .negInf => .inf true
  | .nan => .nan

def Special.code : Special → Nat
  | .finite => 0
  | .posInf => 1
  | .negInf => 2
  | .nan => 3

def Special.ofCode (n : Nat) : Special :=
  if n = 0 then .finite else if n = 1 then .posInf else if n = 2 then .negInf else .nan

end Sys2Proof.Machine
end

