-- ==== Sys2Proof/Machine/Formats.lean ====
section
/-! DEFINITION. Element formats: decoding, rounding into a format, block scales (03_number_formats). Formats are named by the
codes of Table: Format codes. -/

namespace Sys2Proof.Machine

open Sys2Proof

/-- Bits per element (R63). A tensor of format S1 that LDT, STT or a gather moves is held as 1 bit per element, without magnitudes:
DESIGN CHOICE, the 32 bits per 256 elements of the table have no place in a tile (log 58). -/
def fmtBits (f : Nat) : Nat :=
  match f with
  | 0 => 8 | 1 => 8 | 2 => 6 | 3 => 6 | 4 => 4 | 5 => 8 | 6 => 4 | 7 => 16 | 8 => 16 | 9 => 32 | 10 => 48 | 11 => 128
  | 12 => 32 | 13 => 48 | 14 => 64 | _ => 1

/-- Whether the format has a scale plane, given the descriptor's bit (R64). -/
def fmtScaled (f : Nat) (bit : Bool) : Bool :=
  match f with
  | 0 => bit | 1 => bit | 2 => true | 3 => true | 4 => true | 5 => bit | 6 => bit | _ => false

/-- The floating-point formats (R69). -/
def fmtIsFloat (f : Nat) : Bool := f ≤ 4 || f = 7 || f = 8 || f = 9 || f = 10

/-- The formats whose subnormals are flushed (R70, R81). -/
def fmtLong (f : Nat) : Bool := f = 7 || f = 8 || f = 9 || f = 10

/-- Fraction bits (Table: Floating-point formats). -/
def fmtM (f : Nat) : Nat :=
  match f with
  | 0 => 3 | 1 => 2 | 2 => 2 | 3 => 3 | 4 => 1 | 7 => 7 | 8 => 10 | 9 => 23 | 10 => 39 | _ => 0

/-- Exponent bits. -/
def fmtE (f : Nat) : Nat :=
  match f with
  | 0 => 4 | 1 => 5 | 2 => 3 | 3 => 2 | 4 => 2 | 7 => 8 | 8 => 5 | 9 => 8 | 10 => 8 | _ => 0

def fmtBias (f : Nat) : Int :=
  match f with
  | 0 => 7 | 1 => 15 | 2 => 3 | 3 => 1 | 4 => 1 | 7 => 127 | 8 => 15 | 9 => 127 | 10 => 127 | _ => 0

/-- Exponent of the largest finite element (R78). -/
def fmtEmax (f : Nat) : Int :=
  match f with
  | 0 => 8 | 1 => 15 | 2 => 4 | 3 => 2 | 4 => 2 | _ => 0

/-- The largest finite value as significand (with M + 1 bits) and exponent field. -/
def fmtTop (f : Nat) : Nat × Nat :=
  match f with
  | 0 => (14, 15)                                     -- 1.110 × 2^8 = 448
  | 1 => (7, 30)
  | 2 => (7, 7)
  | 3 => (15, 3)
  | 4 => (3, 3)
  | 8 => (2 ^ 11 - 1, 30)
  | _ => (2 ^ (fmtM f + 1) - 1, 254)

/-- Largest finite magnitude of a floating-point format. -/
def fmtMax (f : Nat) : Q :=
  let t := fmtTop f
  Q.dyadic t.1 ((t.2 : Int) - fmtBias f - fmtM f)

/-- Bits of a format with a sign, exponent and fraction field. -/
def fmtPack (f : Nat) (neg : Bool) (e m : Nat) : Nat :=
  (if neg then 2 ^ (fmtE f + fmtM f) else 0) + e * 2 ^ fmtM f + m

/-- Encoding of a magnitude `n × 2^(1 − bias − M)`-multiple: significand `n` (< 2^(M+1)) at exponent field `e`. -/
def fmtTopBits (f : Nat) (neg : Bool) : Nat :=
  let t := fmtTop f
  fmtPack f neg t.2 (t.1 - 2 ^ fmtM f)

/-- Value of a floating-point element under R69 to R71. -/
def decodeFloat (f bits : Nat) : Val :=
  let m := bits % 2 ^ fmtM f
  let e := bits / 2 ^ fmtM f % 2 ^ fmtE f
  let neg := bitOf bits (fmtE f + fmtM f)
  let sgn : Int := if neg then -1 else 1
  let top := 2 ^ fmtE f - 1
  if f = 0 ∧ e = 15 ∧ m = 7 then .nan
  else if (f = 1 || fmtLong f) && e = top then (if m = 0 then .inf neg else .nan)
  else if e = 0 then
    if fmtLong f then Val.zero else .fin (Q.dyadic (sgn * m) (1 - fmtBias f - fmtM f))
  else .fin (Q.dyadic (sgn * (m + 2 ^ fmtM f : Nat)) ((e : Int) - fmtBias f - fmtM f))

/-- Value of an element, its block's scale byte given when it is scaled (R77 to R79). L128, whose value depends on an anchor, is
read elsewhere. A reduction word outside COLL and an S1 element, which a converting LDT or STT may find in its source, are
taken as 0: DESIGN CHOICE, the spec gives them no value there (log 58). -/
def decodeElem (f : Nat) (scale : Option Nat) (bits : Nat) : Val :=
  match scale with
  | some 255 => .nan
  | some e =>
    let k : Int := (e : Int) - 127
    if f = 5 then .fin (Q.dyadic (signedOf 8 bits) (k - 6))
    else if f = 6 then .fin (Q.dyadic (signedOf 4 bits) (k - 2))
    else
      match decodeFloat f bits with
      | .fin q => .fin (q.scale k)
      | v => v
  | none =>
    if f = 5 then .fin (Q.ofInt (signedOf 8 bits))
    else if f = 6 then .fin (Q.ofInt (signedOf 4 bits))
    else if fmtIsFloat f then decodeFloat f bits
    else Val.zero

/-- What converting an element gives: bits and what is counted (R86). -/
structure Conv where
  bits : Nat
  sat : Bool
  flush : Bool
  nan : Bool
deriving DecidableEq, Repr

/-- Encoding of NaN in a format without scales (R72). Reduction words, S1 and unscaled INT4, in which an all-gather or a broadcast
whose members disagree writes a NaN (R434), have none in the table; 0 is written there: DESIGN CHOICE, as R72 has it for INT8
(log 58). -/
def nanEnc (f : Nat) : Nat :=
  match f with
  | 0 => 0x7F | 1 => 0x7E | 5 => 0 | 7 => 0x7FC0 | 8 => 0x7E00 | 9 => 0x7FC00000 | 10 => 0x7FC000000000 | _ => 0

/-- Encoding of an infinity (R72). -/
def infEnc (f : Nat) (neg : Bool) : Nat :=
  match f with
  | 1 => if neg then 0xFC else 0x7C
  | 5 => if neg then 0x80 else 0x7F
  | 7 => if neg then 0xFF80 else 0x7F80
  | 8 => if neg then 0xFC00 else 0x7C00
  | 9 => if neg then 0xFF800000 else 0x7F800000
  | 10 => if neg then 0xFF8000000000 else 0x7F8000000000
  | _ => fmtTopBits f neg

/-- Overflow result (R84). -/
def overflowEnc (f : Nat) (neg sat : Bool) : Nat :=
  if f = 5 then (if neg then 0x80 else 0x7F)
  else if f = 1 || fmtLong f then (if sat then fmtTopBits f neg else infEnc f neg)
  else fmtTopBits f neg

/-- Rounding of a non-zero finite value into a floating-point format and its encoding (R81 to R84). -/
def convertFloat (f : Nat) (v : Q) (draw : Option Nat) (sat : Bool) : Conv :=
  let emin : Int := 1 - fmtBias f
  let e := if v.log2 < emin then emin else v.log2
  let n := v.grid (e - fmtM f) draw
  let neg := n < 0
  let a := n.natAbs
  -- a carry out of the significand moves to the next exponent
  let (a, e) := if 2 ^ (fmtM f + 1) ≤ a then (a / 2, e + 1) else (a, e)
  let r := Q.dyadic a (e - fmtM f)
  if (fmtMax f).lt r then { bits := overflowEnc f neg sat, sat := true, flush := false, nan := false }
  else if fmtLong f && a < 2 ^ fmtM f then { bits := 0, sat := false, flush := true, nan := false }
  else if a = 0 then { bits := 0, sat := false, flush := true, nan := false }
  else if a < 2 ^ fmtM f then { bits := fmtPack f neg 0 a, sat := false, flush := false, nan := false }
  else { bits := fmtPack f neg (e + fmtBias f).toNat (a - 2 ^ fmtM f), sat := false, flush := false, nan := false }

/-- Rounding into an integer format; the element integer is in units of `2^unit` (R78, R79). -/
def convertInt (v : Q) (unit : Int) (draw : Option Nat) : Conv :=
  let n := v.grid unit draw
  if 127 < n then { bits := 0x7F, sat := true, flush := false, nan := false }
  else if n < -128 then { bits := 0x80, sat := true, flush := false, nan := false }
  else { bits := toSigned 8 n, sat := false, flush := n = 0, nan := false }

/-- Converts an element (R81). `scaled` tells that the output is block-scaled: the value is then the element's own value
divided by the block's scale. -/
def convert (f : Nat) (scaled : Bool) (v : Val) (draw : Option Nat) (sat : Bool) : Conv :=
  match v with
  | .nan => { bits := nanEnc f, sat := false, flush := false, nan := true }
  | .inf neg => { bits := infEnc f neg, sat := false, flush := false, nan := false }
  | .fin q =>
    if q.isZero then { bits := 0, sat := false, flush := false, nan := false }
    else if f = 5 then convertInt q (if scaled then -6 else 0) draw
    else convertFloat f q draw sat

/-- The scale of an output block (R87). -/
def scaleBlock (f : Nat) (vals : List Val) : Nat :=
  if vals.any Val.isNan then 255
  else
    let amax := vals.foldl (fun m v => match v with | .fin q => m.max q.abs | _ => m) Q.zero
    if amax.isZero then 127
    else
      let e := amax.log2 - fmtEmax f + 127
      if e < 0 then 0 else if 254 < e then 254 else e.toNat

/-- Converts the element of a scaled block with scale byte `e` (R72, R86, R87). -/
def convertScaled (f e : Nat) (v : Val) (draw : Option Nat) (sat : Bool) : Conv :=
  if e = 255 then { bits := 0, sat := false, flush := false, nan := true }
  else
    match v with
    | .fin q => convert f true (.fin (q.scale (127 - (e : Int)))) draw sat
    | v => convert f true v draw sat

/-- The accepted format nearest to a named code, the lower on a tie (R65). -/
def nearestFmt (accepted : List Nat) (f : Nat) : Nat :=
  accepted.foldl (fun best c =>
    let d := fun x => if x < f then f - x else x - f
    if d c < d best || (d c = d best && c < best) then c else best) (accepted.headD 0)

/-- Formats that a matrix operand accepts (R63). -/
def matrixFmts : List Nat := [0, 1, 2, 3, 4, 5, 6, 7, 8, 9]

/-- Output formats of a drain. -/
def drainFmts : List Nat := [0, 1, 2, 3, 4, 5, 7, 8, 9]

/-- Value of a well word (R89): `n × 2^(anchor − 126)`. -/
def wellValue (n : Int) (anchor : Int) : Q := Q.dyadic n (anchor - 126)

/-- Clamping of an anchor (R90). -/
def clampAnchor (a : Int) : Int := if a < -1024 then -1024 else if 1023 < a then 1023 else a

/-- FP32 encoding of an exact value, to nearest-even. -/
def toFp32 (v : Val) (sat : Bool := false) : Nat := (convert 9 false v none sat).bits

/-- Value of an FP32 word (R70). -/
def ofFp32 (w : Nat) : Val := decodeFloat 9 w

end Sys2Proof.Machine
end

