-- ==== Sys2Proof/Machine/Access.lean ====
section
/-! DEFINITION. Access to device memory and firmware data: decoding, capacity, worlds, the lake's counters and the secure
log (09_memory; 17 R575). A byte that an access does not reach reads zero. -/

namespace Sys2Proof.Machine

open Sys2Proof

/-- End of firmware data and end of device memory space (R294). -/
def fwBase : Nat := 0x4000000000
def fwEnd : Nat := 0x4200000000

/-- Addressable device memory of the part number in units of 64 GiB (R2, R576). -/
def State.cap64 (s : State) : Nat := if s.fuses.part = 0 then 4 else if s.fuses.part = 1 then 3 else 2

/-- Addressable device memory in bytes. -/
def State.capacity (s : State) : Nat := s.cap64 * 0x1000000000

/-- Line number as R302 interleaves it: firmware data from F = address − 0x40_0000_0000. -/
def lineIndex (a : Nat) : Nat := (if a < fwBase then a else a - fwBase) / 256

def lineStack (a : Nat) : Nat := lineIndex a % 8
def linePch (a : Nat) : Nat := lineIndex a / 8 % 32
/-- Offset within the pseudo-channel; firmware data above 1,024 MiB (R302). -/
def lineOffset (a : Nat) : Nat := lineIndex a / 256 * 256 + a % 256 + (if a < fwBase then 0 else 0x40000000)
def lineSlice (a : Nat) : Nat := 2 * lineStack a + lineIndex a / 8 % 2

def mcReg (c off : Nat) : Nat := 0x8100400000 + 0x10000 * c + off
def lkReg (k off : Nat) : Nat := 0x8100500000 + 0x10000 * k + off

/-- The world of the region of a device memory address (R316). -/
def State.regionSecure (s : State) (a : Nat) : Bool := bitOf (s.reg (swRegion (a / 0x200000 / 64))).toNat (a / 0x200000 % 64)

/-- How an access to the line of an address fares. -/
inductive Reach where
  | ok | beyond | blocked | reserved
deriving DecidableEq, Repr

/-- R294 to R296, R317, R319: capacity first (R296 holds in both worlds), then the world check. -/
def State.reach (s : State) (sec : Bool) (a : Nat) : Reach :=
  if a < fwBase then
    if s.capacity ≤ a then .beyond
    else if !sec && (s.regionSecure a || s.zeroing.contains (a / 0x200000)) then .blocked
    else .ok
  else if a < fwEnd then (if sec then .ok else .blocked)
  else if a < 0x4800000000 then (if sec then .reserved else .blocked)
  else .reserved

/-- The pieces of a range by 256-byte line: address and length. -/
def pieces (a n : Nat) : List (Nat × Nat) :=
  if n = 0 then [] else
    (List.range ((a + n - 1) / 256 + 1 - a / 256)).map fun i =>
      let lo := max a ((a / 256 + i) * 256)
      (lo, min (a + n) ((a / 256 + i + 1) * 256) - lo)

/-- The bytes that a read returns. -/
def State.devBytes (s : State) (sec : Bool) (a n : Nat) : List Byte :=
  (pieces a n).flatMap fun p => if s.reach sec p.1 = .ok then s.mem.read p.1 p.2 else List.replicate p.2 0

/-- The poisoned granules that a read meets; a blocked read returns no poison (R317). -/
def State.devBad (s : State) (sec : Bool) (a n : Nat) : List Nat :=
  (pieces a n).flatMap fun p => if s.reach sec p.1 = .ok then s.mem.badList p.1 p.2 else []

/-- A write: pieces that the access does not reach are dropped. -/
def State.devPut (s : State) (sec : Bool) (a : Nat) (d : List Byte) : State :=
  let put := fun (m : Mem) (p : Nat × Nat) =>
    if s.reach sec p.1 = .ok then m.write p.1 ((d.drop (p.1 - a)).take p.2) else m
  { s with mem := (pieces a d.length).foldl put s.mem }

/-- Marks the granules of a written range that carry poison. -/
def State.devMark (s : State) (sec : Bool) (gs : List Nat) : State :=
  { s with mem := s.mem.marks (gs.filter fun g => s.reach sec (g * 32) = .ok) }

/-- Ways of a set, and sets of a slice: 8 MiB of 256-byte lines, 16-way (R309). -/
def lakeWays : Nat := 16
def lakeSets : Nat := 2048

/-- Whether two lines compete for the ways of one set; the set of a line is not stated (log 12). -/
def sameSet (l m : Nat) : Bool :=
  lineSlice (l * 256) == lineSlice (m * 256) && Config.lakeSet l % lakeSets == Config.lakeSet m % lakeSets

def State.lakeLine (s : State) (line : Nat) : LakeLine := mget s.lake { prefetched := false, dirty := false } line

/-- A line leaves the lake: a dirty line is written back, which overwrites what HBM held; behind a clean line a granule that
HBM could not correct meanwhile shows (R303, R309). That a dirty line is written back whole is a DESIGN CHOICE: the spec does
not say what part of it is (log 12). -/
def State.lakeEvict (s : State) (line : Nat) : State :=
  let mem := if (s.lakeLine line).dirty then s.mem else s.mem.marks (s.hidden.filter fun g => g / 8 == line)
  { s with lake := mdel s.lake line, hidden := s.hidden.filter fun g => g / 8 != line, mem := mem }

/-- Makes room for a line in its set; which line leaves a full set is not stated: a free value chooses (log 12). -/
def State.lakeRoom (s : State) (line : Nat) : State :=
  if s.lake.length < lakeWays then s
  else
    let held := s.lake.filter fun e => sameSet e.1 line
    if held.length < lakeWays then s
    else
      let (v, s) := s.freeVal 32
      match held[v % held.length]? with
      | some e => s.lakeEvict e.1
      | none => s

/-- A demand access to a line, which a write leaves dirty (R309, R327: LK_HITMISS, LK_PF.HIGH). -/
def State.lakeDemand (s : State) (line : Nat) (wr : Bool) : State :=
  let k := lineSlice (line * 256)
  if mhas s.lake line then
    let x := s.lakeLine line
    let s := s.addFld (lkReg k 0) 0 32 1
    let s := if x.prefetched then s.addFld (lkReg k 0x10) 32 32 1 else s
    { s with lake := mput s.lake line { prefetched := false, dirty := x.dirty || wr } }
  else
    let s := (s.addFld (lkReg k 0) 32 32 1).lakeRoom line
    { s with lake := mput s.lake line { prefetched := false, dirty := wr } }

/-- Whether a prefetch of a line has an effect (R313). -/
def State.fillable (s : State) (sec : Bool) (line : Nat) : Bool :=
  s.reach sec (line * 256) = .ok && !s.mem.badRange (line * 256) 256 && !mhas s.lake line

/-- A prefetch of a line (R313): dropped without effect where blocked, beyond capacity or poisoned. -/
def State.lakeFill (s : State) (sec : Bool) (line : Nat) : State :=
  if s.fillable sec line then
    let k := lineSlice (line * 256)
    let s := (s.addFld (lkReg k 0x10) 0 32 1).lakeRoom line
    { s with lake := mput s.lake line { prefetched := true, dirty := false } }
  else s

/-- One record written to the secure log (R575): a ring of 65,536 records in firmware data that overwrites its oldest
record when full, written through the lake (R310). `rec` has 32 bytes; phase, gap and sequence number are filled in. -/
def State.secureLogPut (s : State) (rec : List Byte) : State :=
  let st := s.secureLog
  let tail := s.fld slogPtr 16 16
  let head := s.fld slogPtr 0 16
  let flags := leNat ((rec.drop 2).take 1)
  let full := st.full
  let s := if full then (s.setFld slogPtr 0 16 (head + 1)).satFld slogPtr 32 32 1 else s
  let body := rec.take 2 ++ [BitVec.ofNat 8 (setBitsOf flags 0 2 (if st.phase then 1 else 0))] ++ (rec.drop 3).take 11 ++
    leBytes 2 st.seq.toNat ++ rec.drop 16
  let s := State.lakeDemand { s with mem := s.mem.write (fwBase + 32 * tail) body } ((fwBase + 32 * tail) / 256) true
  let tail' := (tail + 1) % 65536
  let s := s.setFld slogPtr 16 16 tail'
  { s with secureLog := { st with seq := st.seq + 1, phase := if tail' = 0 then !st.phase else st.phase,
                                  full := full || decide (tail' = head) } }

/-- A record of an access that its world blocks (R317). The spec gives its place and no content: type, payload and source
are free values (log 6). -/
def State.blockedRecord (s : State) : State :=
  let (t, s) := s.freeVal 16
  let (src, s) := s.freeVal 8
  let (p0, s) := s.freeVal 64
  let (p1, s) := s.freeVal 64
  s.secureLogPut (leBytes 2 t ++ leBytes 5 0 ++ leBytes 1 src ++ leBytes 8 0 ++ leBytes 8 p0 ++ leBytes 8 p1)

/-- A blocked access: SW_BLOCKED.COUNT adds 1 and the secure log takes a record (R317, R587). -/
def State.blockAccess (s : State) : State := (s.addFld swBlocked 0 64 1).blockedRecord

/-- What one access counts: each distinct line once (R296, R327), and one blocked access if any line is blocked; `wr` tells a
write. -/
def State.countAccess (s : State) (sec : Bool) (ranges : List (Nat × Nat)) (wr : Bool := false) : State :=
  let lines := ranges.foldl (fun l r => (pieces r.1 r.2).foldl (fun l p => insertNat l (p.1 / 256)) l) []
  let s' := lines.foldl (fun t g =>
    match s.reach sec (g * 256) with
    | .ok => t.lakeDemand g wr
    | .beyond => t.addFld (mcReg (lineStack (g * 256)) 0x20) 0 64 1
    | _ => t) s
  if lines.any (fun g => s.reach sec (g * 256) = .blocked) then s'.blockAccess else s'

/-- A read as one access: bytes, poisoned granules, state after its counts. -/
def State.devRead (s : State) (sec : Bool) (a n : Nat) : List Byte × List Nat × State :=
  (s.devBytes sec a n, s.devBad sec a n, s.countAccess sec [(a, n)])

/-- A write of unpoisoned data as one access. -/
def State.devWrite (s : State) (sec : Bool) (a : Nat) (d : List Byte) : State :=
  (s.devPut sec a d).countAccess sec [(a, d.length)] true

end Sys2Proof.Machine
end

