-- ==== Sys2Proof/Machine/Events.lean ====
section
/-! DEFINITION. Flits toward the host, event and log records, rings (14_host_interface R456 to R458, R461, R468 to R474). -/

namespace Sys2Proof.Machine

open Sys2Proof

/-! ## The host link's transmit side -/

/-- Link management and port states (Table: Port states). -/
def psActive : Nat := 6

def State.portState (s : State) (p : Nat) : Nat := s.fld (fbPstate p) 0 4

/-- Whether a host flit type is sequenced by LSEQ (Table: Host flit types). -/
def hSequenced (t : Nat) : Bool := t = 1 || t = 2 || t = 3 || t = 4 || t = 5 || t = 6 || t = 8

/-- Whether a host flit that the device sends is of the posted class, which needs credit (R457). -/
def hPosted (t : Nat) : Bool := t = 3 || t = 5 || t = 8

def hflitBlank : HFlit :=
  { type := 0, lseq := 0, ackseq := 0, tag := 0, addr := 0, len := 0, status := 0, last := false, fixed := 0, payload := [] }

/-- A sequenced host flit leaves: it takes the next LSEQ and stays in the replay buffer (R394). A CREDIT tells its totals now. -/
def HostLink.emit (h : HostLink) (f : HFlit) : HostLink :=
  let f := { f with lseq := h.txNext, ackseq := h.rxExpect - 1 }
  let h := if f.type = 6 then { h with postedTold := BitVec.ofNat 16 (leNat (f.payload.take 2)),
                                       requestTold := BitVec.ofNat 16 (leNat ((f.payload.drop 2).take 2)) } else h
  { h with wire := h.wire ++ [f], replay := h.replay ++ [f], txNext := h.txNext + 1,
           sent := if hPosted f.type.toNat then h.sent + 1 else h.sent }

/-- Sends the held host flits in order while the replay buffer has room (R394); posted ones stay for credit, and the others, which
need none, pass them (R457). -/
def hostPumpGo : List HFlit → HostLink → Bool → List HFlit × HostLink
  | [], h, _ => ([], h)
  | f :: rest, h, postedOk =>
    let posted := hPosted f.type.toNat
    let ok := postedOk && decide ((h.sent - h.freedIn).toNat < h.postedBuf)
    if h.replay.length < 2048 && (!posted || ok) then hostPumpGo rest (h.emit f) postedOk
    else
      let (w, h) := hostPumpGo rest h (postedOk && !posted)
      (f :: w, h)

/-- Sends what the host link can send while the port is ACTIVE. -/
def State.hostPump (s : State) : State :=
  if s.portState 8 = psActive && !s.firm.defer.contains 8 then
    let (w, h) := hostPumpGo s.hostLink.waiting s.hostLink true
    { s with hostLink := { h with waiting := w } }
  else s

/-- Queues a flit toward the host and sends what can be sent. -/
def State.hostSend (s : State) (f : HFlit) : State :=
  let s := { s with hostLink := { s.hostLink with waiting := s.hostLink.waiting ++ [f] } }
  s.hostPump

/-- One MSG flit with a vector (R461); none while the lease has lapsed (R476). -/
def State.sendMsg (s : State) (vector : Nat) : State :=
  match s.lease with
  | .lapsed _ => s
  | _ => s.hostSend { hflitBlank with type := 5, len := 2, payload := leBytes 2 vector }

/-! ## Records -/

/-- Payload fields packed from bit 0 of P0; a field that does not fit in the rest of P0 starts P1 (R473). -/
def packGo : List (Nat × Nat) → Nat → Nat → Nat → Nat × Nat
  | [], _, p0, p1 => (p0, p1)
  | (w, v) :: fs, pos, p0, p1 =>
    let pos := if pos < 64 ∧ 64 < pos + w then 64 else pos
    let v := v % 2 ^ w
    if pos < 64 then packGo fs (pos + w) (p0 + v * 2 ^ pos) p1
    else packGo fs (pos + w) p0 (p1 + v * 2 ^ (pos - 64))

def packFields (fs : List (Nat × Nat)) : Nat × Nat := packGo fs 0 0 0

/-- What an event names (Table: Event record). -/
structure EventHead where
  type : Nat
  job : Nat
  core : Option Nat
  hq : Option Nat
  source : Nat
  step : Nat

/-- The 32 bytes of a record, phase, gap and sequence number zero. -/
def recordBytes (h : EventHead) (p0 p1 : Nat) : List Byte :=
  leBytes 2 h.type ++
  leBytes 1 ((if h.core.isSome then 4 else 0) + (if h.hq.isSome then 8 else 0)) ++
  leBytes 1 (h.job % 64) ++ leBytes 2 (h.core.getD 0 % 1024) ++ leBytes 1 (h.hq.getD 0) ++ leBytes 1 h.source ++
  leBytes 6 h.step ++ leBytes 2 0 ++ leBytes 8 p0 ++ leBytes 8 p1

/-- A record with its phase, gap mark and sequence number filled in (Table: Event record). -/
def stampRecord (rec : List Byte) (st : RingState) : List Byte :=
  let flags := leNat ((rec.drop 2).take 1)
  rec.take 2 ++ leBytes 1 (setBitsOf flags 0 2 ((if st.phase then 1 else 0) + (if st.gap then 2 else 0))) ++
  (rec.drop 3).take 11 ++ leBytes 2 st.seq.toNat ++ rec.drop 16

/-- Writes one record to the event ring (`log` false) or log ring (R468 to R471). A full log ring overwrites its oldest
record and moves HEAD past it. The scribe writes with secure accesses (log 13). -/
def State.ringPut (s : State) (log : Bool) (rec : List Byte) : State :=
  let cfg := if log then logRingReg else evRingReg
  let ptr := if log then logPtr else evPtr
  let st := if log then s.logRing else s.eventRing
  let size := 2 ^ s.fld cfg 40 5
  let s := if st.full then (s.setFld ptr 0 24 ((s.fld ptr 0 24 + 1) % size)).satFld ptr 48 16 1 else s
  let head := s.fld ptr 0 24
  let tail := s.fld ptr 24 24
  let s := s.devWrite true (s.fld cfg 0 40 + 32 * tail) (stampRecord rec st)
  let tail' := (tail + 1) % size
  let s := s.setFld ptr 24 24 tail'
  let st' := { st with seq := st.seq + 1, gap := false, phase := if tail' = 0 then !st.phase else st.phase,
                       full := decide (tail' = head) }
  let s := if log then { s with logRing := st' } else { s with eventRing := st' }
  if s.fld cfg 56 1 = 1 ∧ head = tail ∧ st.full = false then s.sendMsg (s.fld cfg 45 11) else s

/-- Whether a ring takes a record now: enabled, and for the event ring not full (R470). -/
def State.ringTakes (s : State) (log : Bool) : Bool :=
  if log then s.fld logRingReg 57 1 = 1 else s.fld evRingReg 57 1 = 1 && !s.eventRing.full

/-- Whether the scribe runs, which writes the rings (R470, R574): role 3 held by a running processor. -/
def State.roleUp (s : State) (role : Nat) : Bool :=
  (List.range 6).any fun p => s.fld (0x8100900100 + 8 * p) 0 3 = role && s.fld (0x8100900100 + 8 * p) 3 2 = 0

/-- Whether keeper's firmware runs (Table: FW_STATUS, KEEPER_UP): not while it is in ROM (R573). -/
def State.keeperUp (s : State) : Bool := s.roleUp 0 && !s.firm.inRom

/-- Moves pending records, oldest first, to the rings that take them; a ring that does not take one holds the later ones
back too, so that each ring keeps the order (R470). -/
def drainGo : List PendRec → Bool → Bool → State → List PendRec × State
  | [], _, _, s => ([], s)
  | r :: rs, evOpen, logOpen, s =>
    let evOpen := evOpen && s.ringTakes false
    let logOpen := logOpen && s.ringTakes true
    let s := if r.forEvent && evOpen then s.ringPut false r.bytes else s
    let s := if r.forLog && logOpen then s.ringPut true r.bytes else s
    let r' := { r with forEvent := r.forEvent && !evOpen, forLog := r.forLog && !logOpen }
    let (rest, s) := drainGo rs evOpen logOpen s
    if r'.forEvent || r'.forLog then (r' :: rest, s) else (rest, s)

/-- Writes out the pending buffer as far as the rings take it; nothing while the scribe is down (R470, R574). -/
def State.drainPending (s : State) : State :=
  if s.roleUp 3 then
    let (rest, s') := drainGo s.pendRecs true true s
    { s' with pendRecs := rest }
  else s

/-- Whether a record passes the buffer by: the rings that it is for take it, and no earlier record waits for them. -/
def State.passesBuffer (s : State) (ev log : Bool) : Bool :=
  s.roleUp 3 && (!ev || (s.ringTakes false && !s.pendRecs.any (·.forEvent))) && (!log || (s.ringTakes true && !s.pendRecs.any (·.forLog)))

/-- A ring that loses a record: LOST counts it, and the ring's next record has GAP set (R470). -/
def State.ringLoses (s : State) (log : Bool) : State :=
  if log then { s.satFld logPtr 48 16 1 with logRing := { s.logRing with gap := true } }
  else { s.satFld evPtr 48 16 1 with eventRing := { s.eventRing with gap := true } }

/-- Puts a record in line for its rings; one that finds the buffer of 4,096 full is dropped for each of them (R470). -/
def State.enqueueRecord (s : State) (rec : List Byte) (ev log : Bool) : State :=
  let s := s.drainPending
  if s.pendRecs.length < 4096 || s.passesBuffer ev log then
    ({ s with pendRecs := s.pendRecs ++ [{ bytes := rec, forEvent := ev, forLog := log }] } : State).drainPending
  else
    let s := if ev then ({ s with firm := { s.firm with losses := s.firm.losses + 1 } } : State).ringLoses false else s
    if log then s.ringLoses true else s

/-! ## Worlds of blocks (R314 to R316) -/

def State.coreSecure (s : State) (c : Nat) : Bool := bitOf (s.reg (swWcore (c / 64))).toNat (c % 64)
def State.streamSecure (s : State) (c : Nat) : Bool := bitOf (s.reg (swWsx (c / 64))).toNat (c % 64)
def State.hqSecure (s : State) (q : Nat) : Bool := bitOf (s.reg (swWhq (q / 64))).toNat (q % 64)
def State.flowSecure (s : State) (f : Nat) : Bool := bitOf (s.reg (swWflow (f / 64))).toNat (f % 64)

/-- A job is secure when a secure host queue carries it (R587: a job register is non-secure when its queues are). -/
def State.jobSecure (s : State) (j : Nat) : Bool :=
  (List.range 256).any fun q => decide (s.hqJob q = j) && s.hqSecure q && decide (j ≠ 0)

/-- Posts an event whose secrecy the caller knows; the record goes to the secure log alone, or to both rings (R472). -/
def State.postAs (s : State) (secret : Bool) (h : EventHead) (payload : List (Nat × Nat)) : State :=
  let (p0, p1) := packFields payload
  if secret then s.secureLogPut (recordBytes h p0 p1) else s.enqueueRecord (recordBytes h p0 p1) true true

/-- Posts an event; it is secret when its job, core or host queue is secure (R472). -/
def State.post (s : State) (h : EventHead) (payload : List (Nat × Nat)) : State :=
  let secret := (match h.core with | some c => s.coreSecure c | none => false) ||
    (match h.hq with | some q => s.hqSecure q | none => false) || s.jobSecure h.job
  s.postAs secret h payload

/-- Posts an event of a flow, secret also when the flow is (R472). -/
def State.postFlow (s : State) (f : Nat) (h : EventHead) (payload : List (Nat × Nat)) : State :=
  s.postAs (s.flowSecure f || s.jobSecure h.job) h payload

/-- Step number that events of a job carry: VX_STEP of the first member of one of its active spans, else 0. -/
def State.jobStep (s : State) (j : Nat) : Nat :=
  match s.active.find? (fun a => a.job == j) with
  | some a => s.fld (vxStep (a.y0 * 32 + a.x0)) 0 48
  | none => 0

/-- Head of an event about a core, with its launch's job and queue (Table: Event record). -/
def State.coreHead (s : State) (t src c : Nat) : EventHead :=
  match (s.core c).launch with
  | some l => { type := t, job := l.job, core := some c, hq := some l.hq, source := src, step := s.fld (vxStep c) 0 48 }
  | none => { type := t, job := 0, core := some c, hq := none, source := src, step := 0 }

/-- Head of an event about a job. -/
def State.jobHead (s : State) (t src j : Nat) : EventHead :=
  { type := t, job := j, core := none, hq := none, source := src, step := s.jobStep j }

/-- Head of an event about the device. -/
def devHead (t src : Nat) : EventHead := { type := t, job := 0, core := none, hq := none, source := src, step := 0 }

/-- HI_TRACE0 to HI_TRACE3 (R474). -/
def hiTrace (n : Nat) : Nat := 0x8100200200 + 8 * n

/-- The role that owns trace point `t`: dispatcher, pilot, steward, scribe (R474). -/
def traceRole (t : Nat) : Nat := [4, 1, 2, 3].getD (t / 64) 4

/-- A trace record of point `t` while the point is enabled and its owner runs; it goes to the log ring only (R472, R474). Its
payload is the firmware's own: free values (log 68). -/
def State.postTrace (s : State) (t : Nat) : State :=
  if t < 256 && bitOf (s.reg (hiTrace (t / 64))).toNat (t % 64) && s.roleUp (traceRole t) then
    let (p0, s) := s.freeVal 64
    let (p1, s) := s.freeVal 64
    s.enqueueRecord (recordBytes (devHead (0x8000 + t) (t / 64 + 1)) p0 p1) false true
  else s

/-- Firmware passes a trace point or none: while a point is enabled, a free value tells which (log 68). -/
def State.trace (s : State) : State :=
  if (List.range 4).all fun n => s.reg (hiTrace n) == 0 then s
  else
    let (t, s) := s.freeVal 9
    s.postTrace t

/-- The low-order bit of a count is its only one: the counts at which violation events are posted (R418, R479). -/
def isPow2 (n : Nat) : Bool := n != 0 && n == 2 ^ n.log2

/-! ## Completion rings (R468, R469) -/

/-- Whether a queue's completion ring is full. -/
def State.cqFull (s : State) (q : Nat) : Bool := (s.hq q).cqFull

/-- Writes one completion record, in the world of the queue (R315). -/
def State.cqPut (s : State) (q : Nat) (tag : List Byte) (kind status val : Nat) : State :=
  let size := 2 ^ s.fld (hqCq q) 40 5
  let head := s.fld (hqPtr q) 32 16
  let tail := s.fld (hqPtr q) 48 16
  let h := s.hq q
  let rec_ := tag ++ leBytes 1 kind ++ leBytes 1 status ++ leBytes 1 (if h.cqPhase then 1 else 0) ++ leBytes 1 0 ++ leBytes 8 val
  let s := s.devWrite (s.hqSecure q) (s.fld (hqCq q) 0 40 + 16 * tail) rec_
  let tail' := (tail + 1) % size
  let s := s.setFld (hqPtr q) 48 16 tail'
  let s := s.setHq q { h with cqPhase := if tail' = 0 then !h.cqPhase else h.cqPhase, cqFull := decide (tail' = head) }
  if s.fld (hqCq q) 56 1 = 1 ∧ head = tail then s.sendMsg (s.fld (hqCq q) 45 11) else s

/-- Writes the completions that wait for space (R469), or for the dispatcher (R574). -/
def State.cqFlush (s : State) (q : Nat) : Nat → State
  | 0 => s
  | n + 1 =>
    match (s.hq q).pendingCpl with
    | [] => s
    | r :: rest =>
      if s.cqFull q || !s.roleUp 4 then s
      else
        let s := s.modHq q fun h => { h with pendingCpl := rest }
        (s.cqPut q (r.take 4) (leNat ((r.drop 4).take 1)) (leNat ((r.drop 5).take 1)) (leNat (r.drop 8))).cqFlush q n

/-- Completes an entry: the record waits while the ring is full. -/
def State.complete (s : State) (q : Nat) (tag : List Byte) (kind status val : Nat) : State :=
  let r := tag ++ leBytes 1 kind ++ leBytes 1 status ++ leBytes 2 0 ++ leBytes 8 val
  let s := s.modHq q fun h => { h with pendingCpl := h.pendingCpl ++ [r] }
  s.cqFlush q (s.hq q).pendingCpl.length

/-- A write of a ring's HEAD: how many records it frees, and the new HEAD (R468). -/
def freeTo (size head tail : Nat) (full : Bool) (w : Nat) : Nat × Nat :=
  let unread := if full then size else (tail + size - head) % size
  let d := (w + size - head) % size
  let d := if full ∧ w % size = head then size else d
  if unread < d then (unread, tail) else (d, w % size)

end Sys2Proof.Machine
end

