-- ==== Sys2Proof/Machine/Optical.lean ====
section
/-! DEFINITION. What the fibres carry: flits as 256 bytes with their CRC, and the codewords that hold them (12_optical_fabric R388,
R389, R391; 14_host_interface R456). Codes of IEEE 802.3 that the spec names and does not write out are PRESUMED (log 67). -/

namespace Sys2Proof.Machine

open Sys2Proof

/-! ## CRC-32 of IEEE 802.3 (R391) -/

/-- One bit of the reflected polynomial 0xEDB88320. -/
def crcBit (v : BitVec 32) : BitVec 32 := if v.getLsbD 0 then (v >>> 1) ^^^ 0xEDB88320#32 else v >>> 1

def crcByte (v : BitVec 32) (b : Byte) : BitVec 32 :=
  (List.range 8).foldl (fun v _ => crcBit v) (v ^^^ b.setWidth 32)

def crc32 (m : List Byte) : BitVec 32 := ~~~ (m.foldl crcByte 0xFFFFFFFF#32)

/-! ## Flits as bytes (R391, R456) -/

/-- Header, payload filled with zeros to 240 bytes, CRC of both. -/
def imageOf (header : Nat) (payload : List Byte) : List Byte :=
  let m := leBytes 12 header ++ (payload ++ List.replicate 240 0).take 240
  m ++ leBytes 4 (crc32 m).toNat

/-- The fields of a header, each with its width, from bit 0 upward. -/
def packHeader : List (Nat × Nat) → Nat
  | [] => 0
  | (w, v) :: fs => v % 2 ^ w + 2 ^ w * packHeader fs

/-- Table: Flit header. -/
def flitHeader (f : Flit) : Nat :=
  packHeader [(3, f.type.toNat), (12, f.lseq.toNat), (12, f.ackseq.toNat), (1, f.last.toNat), (8, f.pmask.toNat),
    (12, f.dst.toNat), (12, f.src.toNat), (12, f.flow.toNat), (12, f.fseq.toNat), (8, f.len.toNat), (4, f.hops.toNat)]

/-- A fabric flit on the fibre. -/
def flitImage (f : Flit) : List Byte := imageOf (flitHeader f) f.payload

/-- Table: Host flit header. -/
def hflitHeader (f : HFlit) : Nat :=
  packHeader [(4, f.type.toNat), (12, f.lseq.toNat), (12, f.ackseq.toNat), (10, f.tag.toNat), (40, f.addr.toNat),
    (13, f.len.toNat), (2, f.status.toNat), (1, f.last.toNat), (2, 0)]

/-- A host flit on the fibre. -/
def hflitImage (f : HFlit) : List Byte := imageOf (hflitHeader f) f.payload

/-- Whether 256 received bytes carry the CRC of their first 252. -/
def imageGood (m : List Byte) : Bool := m.length = 256 && leNat (m.drop 252) = (crc32 (m.take 252)).toNat

/-- The fabric flit that received bytes with a good CRC are. -/
def flitOfImage (m : List Byte) : Option Flit :=
  let h := leNat (m.take 12)
  if imageGood m then
    some { type := BitVec.ofNat 3 h, lseq := BitVec.ofNat 12 (h / 2 ^ 3), ackseq := BitVec.ofNat 12 (h / 2 ^ 15), last := bitOf h 27,
           pmask := BitVec.ofNat 8 (h / 2 ^ 28), dst := BitVec.ofNat 12 (h / 2 ^ 36), src := BitVec.ofNat 12 (h / 2 ^ 48),
           flow := BitVec.ofNat 12 (h / 2 ^ 60), fseq := BitVec.ofNat 12 (h / 2 ^ 72), len := BitVec.ofNat 8 (h / 2 ^ 84),
           hops := BitVec.ofNat 4 (h / 2 ^ 92), fixed := 0, payload := (m.drop 12).take 240 }
  else none

/-- The host flit that received bytes with a good CRC are. -/
def hflitOfImage (m : List Byte) : Option HFlit :=
  let h := leNat (m.take 12)
  if imageGood m then
    some { type := BitVec.ofNat 4 h, lseq := BitVec.ofNat 12 (h / 2 ^ 4), ackseq := BitVec.ofNat 12 (h / 2 ^ 16),
           tag := BitVec.ofNat 10 (h / 2 ^ 28), addr := BitVec.ofNat 40 (h / 2 ^ 38), len := BitVec.ofNat 13 (h / 2 ^ 78),
           status := BitVec.ofNat 2 (h / 2 ^ 91), last := bitOf h 93, fixed := 0, payload := (m.drop 12).take 240 }
  else none

/-! ## The field of 1,024 elements: polynomials modulo x^10 + x^3 + 1 -/

def gfDouble (a : Nat) : Nat := if 512 ≤ a then (2 * a) ^^^ 0x409 else 2 * a

def gfMul (a b : Nat) : Nat :=
  ((List.range 10).foldl (fun (x : Nat × Nat) i => (if bitOf b i then x.1 ^^^ x.2 else x.1, gfDouble x.2)) (0, a)).1

/-- Power of the element x. -/
def gfAlpha (n : Nat) : Nat := (List.range (n % 1023)).foldl (fun a _ => gfDouble a) 1

/-- Inverse of an element: its 1,022nd power. -/
def gfInv (a : Nat) : Nat :=
  ((List.range 9).foldl (fun (x : Nat × Nat) _ => (gfMul x.1 (gfMul x.2 x.2), gfMul x.2 x.2)) (1, a)).1

/-- Value of a polynomial, lowest coefficient first. -/
def gfEval : List Nat → Nat → Nat
  | [], _ => 0
  | c :: cs, a => c ^^^ gfMul a (gfEval cs a)

/-- Sum of polynomials. -/
def gfAdd : List Nat → List Nat → List Nat
  | [], q => q
  | p, [] => p
  | a :: p, b :: q => (a ^^^ b) :: gfAdd p q

/-- Product of polynomials. -/
def gfProd : List Nat → List Nat → List Nat
  | [], _ => []
  | a :: p, q => gfAdd (q.map (gfMul a)) (0 :: gfProd p q)

/-! ## RS(544,514) (R389) -/

/-- Symbols of a codeword, of its message, and of its check; it corrects half as many symbols as it has check symbols. -/
def rsLength : Nat := 544
def rsMessage : Nat := 514
def rsCheck : Nat := 30

/-- The generator: the product of x − α^i for i from 0 to 29, lowest coefficient first. -/
def rsGenerator : List Nat := (List.range rsCheck).foldl (fun g i => gfProd [gfAlpha i, 1] g) [1]

/-- The check symbols of a message, in the order in which they follow it. -/
def rsParity (msg : List Nat) : List Nat :=
  let g := (rsGenerator.take rsCheck).reverse
  msg.foldl (fun (r : List Nat) s => List.zipWith (fun a b => a ^^^ gfMul (s ^^^ r.headD 0) b) (r.drop 1 ++ [0]) g)
    (List.replicate rsCheck 0)

def rsEncode (msg : List Nat) : List Nat := msg ++ rsParity msg

/-- The syndromes of a received word. -/
def rsSyndromes (w : List Nat) : List Nat :=
  (List.range rsCheck).map fun j => let a := gfAlpha j; w.foldl (fun v c => gfMul v a ^^^ c) 0

/-- State of the search for the error locator: locator, the one before its last change of length, length, shift, discrepancy. -/
structure RsSearch where
  c : List Nat
  b : List Nat
  l : Nat
  m : Nat
  d : Nat

/-- One step of the search, over syndrome `n`. -/
def RsSearch.next (x : RsSearch) (syn : List Nat) (n : Nat) : RsSearch :=
  let d := (List.range (x.l + 1)).foldl (fun t i => t ^^^ gfMul (x.c.getD i 0) (if i ≤ n then syn.getD (n - i) 0 else 0)) 0
  if d = 0 then { x with m := x.m + 1 }
  else
    let c := gfAdd x.c ((List.replicate x.m 0 ++ x.b).map (gfMul (gfMul d (gfInv x.d))))
    if 2 * x.l ≤ n then { c := c, b := x.c, l := n + 1 - x.l, m := 1, d := d } else { x with c := c, m := x.m + 1 }

/-- The decoder: the word corrected in up to 15 symbols, and how many it corrected; none where it cannot be corrected. -/
def rsDecode (w : List Nat) : Option (List Nat × Nat) :=
  let syn := rsSyndromes w
  if syn.all (· == 0) then some (w, 0)
  else
    let x := (List.range rsCheck).foldl (fun x n => RsSearch.next x syn n) { c := [1], b := [1], l := 0, m := 1, d := 1 }
    let omega := (gfProd syn x.c).take rsCheck
    let slope := x.c.zipIdx.map fun y => if y.2 % 2 = 1 then y.1 else 0
    let fixes := (List.range rsLength).map fun i =>
      let p := rsLength - 1 - i
      let inv := gfAlpha (1023 - p % 1023)
      if gfEval x.c inv = 0 then some (gfMul (gfAlpha p) (gfMul (gfEval omega inv) (gfInv (gfEval (slope.drop 1) inv)))) else none
    let n := (fixes.filter Option.isSome).length
    let w' := (w.zip fixes).map fun y => y.1 ^^^ y.2.getD 0
    if n = x.l && x.l ≤ rsCheck / 2 && (rsSyndromes w').all (· == 0) then some (w', n) else none

/-! ## The stream of a fibre (R388, R389) -/

/-- Bits of bytes, least significant first. -/
def bitsOfBytes (m : List Byte) : List Bool := m.flatMap fun b => (List.range 8).map b.getLsbD

/-- A number from bits, least significant first. -/
def natOfBits : List Bool → Nat
  | [] => 0
  | b :: bs => b.toNat + 2 * natOfBits bs

/-- Pieces of a list of `n` elements each; what is left over waits for more. -/
def chunks {α : Type} (n : Nat) (l : List α) : List (List α) := (List.range (l.length / n)).map fun i => (l.drop (n * i)).take n

/-- The codewords that carry the bytes of a flit stream continuously. -/
def codewords (stream : List Byte) : List (List Nat) :=
  (chunks rsMessage ((chunks 10 (bitsOfBytes stream)).map natOfBits)).map rsEncode

/-- What a lit wavelength carries: symbols and lane-marker blocks, or on a spare the IDLE pattern and its alignment blocks. -/
inductive LaneItem where
  | symbol (v : Nat)
  | marker
  | idle
  | alignment
deriving DecidableEq, Repr

/-- The lanes of a direction of `n` lanes: symbols striped in ascending lane order, a marker block before every 2^16 codewords. -/
def lanesOf (n : Nat) (cws : List (List Nat)) : List (List LaneItem) :=
  (List.range n).map fun lane => cws.zipIdx.flatMap fun cw =>
    (if cw.2 % 2 ^ 16 = 0 then [.marker] else []) ++
      (cw.1.zipIdx.filter fun s => s.2 % n = lane).map fun s => .symbol s.1

/-- What a spare wavelength carries beside `n` lanes: the IDLE pattern for the time of each codeword, and an alignment block every 2^8
codewords, at a codeword boundary of the active lanes (R399). -/
def spareOf (n : Nat) (cws : List (List Nat)) : List LaneItem :=
  cws.zipIdx.flatMap fun cw => (if cw.2 % 2 ^ 8 = 0 then [.alignment] else []) ++ List.replicate (rsLength / n) .idle

/-- What a wavelength carries beside `n` lanes, by its state: a lane, the spare's pattern, or no light. -/
def waveLight (n : Nat) (cws : List (List Nat)) (v : Nat) : List LaneItem :=
  if v < 16 then (lanesOf n cws).getD v [] else if v = 16 then spareOf n cws else []

/-- Whether flit `i` of a stream lies in part in codeword `k`. -/
def overlaps (i k : Nat) : Bool := decide (i * 2048 < (k + 1) * 5140) && decide (k * 5140 < (i + 1) * 2048)

/-- What received codewords bring: for each flit its bytes, none where a codeword that it overlaps failed, and the number of
symbols that the decoder corrected. -/
def received (ws : List (List Nat)) : List (Option (List Byte)) × Nat :=
  let ds := ws.map rsDecode
  let bits := ds.flatMap fun d =>
    ((match d with | some x => x.1 | none => []).take rsMessage ++ List.replicate rsMessage 0).take rsMessage
      |>.flatMap fun s => (List.range 10).map (bitOf s)
  let flits := (chunks 2048 bits).zipIdx.map fun f =>
    if ds.zipIdx.all fun d => d.1.isSome || !overlaps f.2 d.2 then some ((chunks 8 f.1).map fun b => BitVec.ofNat 8 (natOfBits b)) else none
  (flits, ds.foldl (fun t d => t + (match d with | some x => x.2 | none => 0)) 0)

end Sys2Proof.Machine
end

