-- ==== Sys2Proof/Machine/Links.lean ====
section
/-! DEFINITION. The link layer of the fabric ports: sequence numbers, replay, link credits, routes, violations and
retraining (12_optical_fabric R391 to R408, R417, R418). -/

namespace Sys2Proof.Machine

open Sys2Proof

def flitBlank : Flit :=
  { type := 0, lseq := 0, ackseq := 0, last := false, pmask := 0, dst := 0, src := 0, flow := 0, fseq := 0, len := 0,
    hops := 0, fixed := 0, payload := [] }

/-- A byte of a flit's payload; bytes not given are 0. -/
def flitByte (f : Flit) (i : Nat) : Nat := (f.payload.getD i 0).toNat

/-- Little-endian field of a flit's payload. -/
def flitField (f : Flit) (i n : Nat) : Nat := leNat ((List.range n).map fun k => f.payload.getD (i + k) 0)

def hflitField (f : HFlit) (i n : Nat) : Nat := leNat ((List.range n).map fun k => f.payload.getD (i + k) 0)

def fbTxw (p w : Nat) : Nat := if w < 12 then 0x8100301010 + 0x100 * p else 0x8100301018 + 0x100 * p
def fbRxw (p w : Nat) : Nat := if w < 12 then 0x8100301020 + 0x100 * p else 0x8100301028 + 0x100 * p
def fbPlaser (p : Nat) : Nat := 0x8100301030 + 0x100 * p
def fbPerr (p : Nat) : Nat := 0x8100301038 + 0x100 * p
def fbPfec (p : Nat) : Nat := 0x8100301040 + 0x100 * p
def fbPviol (p c : Nat) : Nat := 0x8100301080 + 0x100 * p + 8 * c
def fbToFlow : Nat := 0x8100300018
def fbToLink : Nat := 0x8100300010
def fbVpolicy : Nat := 0x8100300020
def fbRoute (n : Nat) : Nat := 0x8100302000 + 8 * n
def fbRankmap (n : Nat) : Nat := 0x8100304000 + 8 * n

/-- State of wavelength `w` in a direction: 0 to 15 the lane it carries, 16 spare, 17 failed, 18 off. -/
def State.wave (s : State) (tx : Bool) (p w : Nat) : Nat :=
  s.fld (if tx then fbTxw p w else fbRxw p w) (5 * (w % 12)) 5

def State.setWave (s : State) (tx : Bool) (p w v : Nat) : State :=
  s.setFld (if tx then fbTxw p w else fbRxw p w) (5 * (w % 12)) 5 v

/-- Wavelengths of a port (R387). -/
def portWaves (p : Nat) : Nat := if p = 8 then 9 else 18

/-- The flits that a port has sent, as codewords (R389). -/
def State.sentWords (s : State) (p : Nat) : List (List Nat) :=
  codewords (if p = 8 then s.hostLink.wire.flatMap hflitImage else (s.port p).wire.flatMap flitImage)

/-- The transmit fibre of a port by wavelength (R387 to R389, R399). -/
def State.fibre (s : State) (p : Nat) : List (List LaneItem) :=
  (List.range (portWaves p)).map fun w => waveLight (s.fld (fbPstate p) 4 5) (s.sentWords p) (s.wave true p w)

/-- Full width of a port in lanes (R388). -/
def fullLanes (p : Nat) : Nat := if p = 8 then 8 else 16

def psOff : Nat := 0
def psAbsent : Nat := 1
def psLaser : Nat := 2
def psTune : Nat := 3
def psEq : Nat := 4
def psAlign : Nat := 5
def psRetrain : Nat := 7
def psDown : Nat := 8

/-- Whether the part number has the port (R2, R5). -/
def State.portPresent (s : State) (p : Nat) : Bool := p = 8 || p < 4 || (p < 8 && s.fuses.part != 2)

/-- State of a port: ABSENT when fused off, whatever the register holds. -/
def State.portMode (s : State) (p : Nat) : Nat := if s.portPresent p then s.portState p else psAbsent

def State.portActive (s : State) (p : Nat) : Bool := s.portMode p = psActive && !s.firm.defer.contains p

/-- Whether a flit of the link layer is taken: traffic while ACTIVE, link management also during alignment (R397, R398). -/
def State.portLinked (s : State) (p : Nat) : Bool :=
  s.portActive p || s.portMode p = psAlign || s.portMode p = psRetrain

/-- Payload fields of the link events: port, width, partner address. -/
def State.linkFields (s : State) (p : Nat) : List (Nat × Nat) :=
  [(4, p), (6, s.fld (fbPstate p) 4 5), (12, s.fld (fbPstate p) 14 12)]

/-- A flit arrives: FB_PFEC counts the symbols that the decoder corrected (R389, R420). -/
def State.counted (s : State) (p : Nat) (fixed : BitVec 4) : State :=
  if fixed = 0 then s else s.addFld (fbPfec p) 0 64 fixed.toNat

/-- Whether a flit is LCREDIT (Table: Link management kinds). -/
def isLcredit (f : Flit) : Bool := f.type = 5 && flitByte f 0 = 0

/-- A sequenced flit leaves: it takes the next LSEQ and stays in the replay buffer (R394). An LCREDIT tells its totals now (R396). -/
def Port.emit (x : Port) (f : Flit) : Port :=
  let f := { f with fixed := 0, lseq := x.txNext, ackseq := x.rxExpect - 1 }
  let x := if isLcredit f then { x with relayTold := BitVec.ofNat 16 (flitField f 1 2), localTold := BitVec.ofNat 16 (flitField f 3 2) }
    else x
  { x with wire := x.wire ++ [f], replay := x.replay ++ [f], txNext := x.txNext + 1 }

/-- Class of a frame toward the partner: relay when its DST is another module than the partner (R396). -/
def isRelay (partner : Nat) (f : Flit) : Bool := decide (f.dst.toNat ≠ partner)

/-- Sends waiting flits in order, each class behind its own credit (R396); returns the ports whose relayed flits left. -/
def pumpGo (partner : Nat) : List (Flit × Option Nat) → Port → Bool → Bool → List (Flit × Option Nat) × Port × List Nat
  | [], x, _, _ => ([], x, [])
  | (f, from_) :: rest, x, relayOk, localOk =>
    let lmgt := f.type = 5
    let relay := isRelay partner f
    let relayOk' := relayOk && decide ((x.relaySent - x.relayIn).toNat < 256)
    let localOk' := localOk && decide ((x.localSent - x.localIn).toNat < 256)
    if x.replay.length < 2048 && (lmgt || (relay && relayOk') || (!relay && localOk')) then
      let x := x.emit f
      let relaySent := if !lmgt && relay then x.relaySent + 1 else x.relaySent
      let localSent := if !lmgt && !relay then x.localSent + 1 else x.localSent
      let x := { x with relaySent := relaySent, localSent := localSent }
      let (w, x, freed) := pumpGo partner rest x relayOk localOk
      (w, x, from_.toList ++ freed)
    else
      let (w, x, freed) := pumpGo partner rest x (relayOk && (lmgt || !relay)) (localOk && (lmgt || relay))
      ((f, from_) :: w, x, freed)

/-- An LMGT flit with its KIND and fields. -/
def lmgtFlit (kind : Nat) (fields : List Byte) : Flit :=
  { flitBlank with type := 5, last := true, len := BitVec.ofNat 8 (1 + fields.length), payload := leBytes 1 kind ++ fields }

/-- Queues a link management message and sends it at once when the port can. -/
def State.sendLmgt (s : State) (p kind : Nat) (fields : List Byte) : State :=
  let x := s.port p
  if s.portLinked p && x.replay.length < 2048 then s.setPort p (x.emit (lmgtFlit kind fields))
  else s.setPort p { x with waiting := x.waiting ++ [(lmgtFlit kind fields, none)] }

/-- Reports the totals freed (R396): LCREDIT, unless one waits to leave. -/
def State.sendLcredit (s : State) (p : Nat) : State :=
  let x := s.port p
  if x.waiting.any fun w => isLcredit w.1 then s
  else s.sendLmgt p 0 (leBytes 2 x.relayFreed.toNat ++ leBytes 2 x.localFreed.toNat)

/-- LCREDIT after each 64 flits freed (R396). -/
def State.lcreditDue (s : State) (p : Nat) : State :=
  let x := s.port p
  if 64 ≤ (x.relayFreed - x.relayTold).toNat + (x.localFreed - x.localTold).toNat then s.sendLcredit p else s

/-- Frees one relay-class flit on the port where it arrived. -/
def State.freeRelay (s : State) (p : Nat) : State :=
  (s.modPort p fun x => { x with relayFreed := x.relayFreed + 1 }).lcreditDue p

/-- Sends what port `p` can send. -/
def State.portPump (s : State) (p : Nat) : State :=
  if s.portActive p then
    let x := s.port p
    let (w, x, freed) := pumpGo (s.fld (fbPstate p) 14 12) x.waiting x true true
    freed.foldl State.freeRelay (s.setPort p { x with waiting := w })
  else s

/-- An LNAK naming the expected LSEQ (R393); it is not sequenced. -/
def State.sendLnak (s : State) (p : Nat) : State :=
  s.modPort p fun x =>
    let f := { flitBlank with type := 4, lseq := x.rxExpect, ackseq := x.rxExpect - 1 }
    { x with wire := x.wire ++ [f], lnakSent := true }

/-- Sends the replay buffer again from its `k`-th flit (R394). -/
def State.replayFrom (s : State) (p k : Nat) : State :=
  let s := s.satFld (fbPerr p) 32 32 1
  s.modPort p fun x =>
    let again := (x.replay.drop k).map fun f => { f with ackseq := x.rxExpect - 1 }
    { x with wire := x.wire ++ again, replays := x.replays + 1 }

/-- Whether a wavelength has a working source (R399, R403). -/
def State.sourceOk (s : State) (p w : Nat) : Bool :=
  s.fld (fbPlaser p) w 1 = 1 || (s.fld (fbPlaser p) 18 2 = 3 && s.fld (fbPlaser p) 20 5 = w)

/-- Wavelengths of the transmit direction that can carry a lane. -/
def State.txUsable (s : State) (p : Nat) : List Nat :=
  (List.range (portWaves p)).filter fun w => s.wave true p w ≠ 17 && s.sourceOk p w

/-- The width at which a direction trains. -/
def Port.width (x : Port) (tx : Bool) : Nat := if tx then x.txLanes else x.rxLanes

/-- Wavelengths of the receive direction that carry a lane or are spare. -/
def State.rxUsable (s : State) (p : Nat) : List Nat := (List.range (portWaves p)).filter fun w => s.wave false p w ≤ 16

/-- Lanes 0 to n − 1 on the lowest usable wavelengths, the other usable ones spare, the rest failed (R404). -/
def State.assign (s : State) (tx : Bool) (p n : Nat) (us : List Nat) : State :=
  (List.range (portWaves p)).foldl (fun s w =>
    match us.findIdx? (fun u => u == w) with
    | some i => s.setWave tx p w (if i < n then i else 16)
    | none => s.setWave tx p w 17) s

/-- The transmit map of a port for the width at which it trains. The map stands while it holds those lanes already; a wavelength that
is lit again since, by the spare source, is then a spare (R403). -/
def State.assignTx (s : State) (p : Nat) : State :=
  let n := (s.port p).txLanes
  let held := ((List.range (portWaves p)).map fun w => s.wave true p w).filter fun v => v < 16
  if held.length = n && (s.port p).lost.isEmpty then
    ((s.txUsable p).filter fun w => s.wave true p w = 18).foldl (fun s w => s.setWave true p w 16) s
  else s.assign true p n (s.txUsable p)

/-- The receive map of the host port, whose LINKID carries none (R455; log 24); a fabric port takes its partner's (R398). -/
def State.assignRx (s : State) (p : Nat) : State :=
  let n := (s.port p).rxLanes
  let us := (List.range (portWaves p)).filter fun w => s.wave false p w ≠ 17
  let held := us.filter fun w => s.wave false p w < 16
  if p ≠ 8 ∨ held.length = n then s else s.assign false p n us

/-- A management flit of the host link leaves at once, whatever credit stands: LINKID comes before credit does (R455, R457). -/
def State.hostEmit (s : State) (f : HFlit) : State := { s with hostLink := s.hostLink.emit f }

/-- A management fragment that is a whole message (Table: Management fragments). -/
def mgmtFlit (kind : Nat) (body : List Byte) : HFlit :=
  { hflitBlank with type := 8, len := BitVec.ofNat 13 (4 + body.length),
                    payload := leBytes 1 kind ++ leBytes 1 3 ++ leBytes 2 body.length ++ body }

/-- HELLO (R398), or LINKID on the host port (R455). -/
def State.sendHello (s : State) (p : Nat) : State :=
  if p = 8 then s.hostEmit (mgmtFlit 0 (leBytes 2 1 ++ leBytes 2 512 ++ leBytes 2 256 ++ leBytes 1 (s.port 8).txLanes))
  else s.sendLmgt p 5 (leBytes 2 (s.fld fbCfg 0 12) ++ leBytes 8 (s.reg (fbTxw p 0)).toNat ++ leBytes 4 (s.reg (fbTxw p 12)).toNat)

/-- An event of a port's link; ROM in recovery mode posts none (R537). -/
def State.postLink (s : State) (type source : Nat) (fields : List (Nat × Nat)) : State :=
  if s.firm.recovery then s else s.post (devHead type source) fields

/-- Entry to RETRAIN (R397): current settings are kept, pending swaps are cancelled (R404), EV_LINK_RETRAIN is posted, and the
port aligns again. -/
def State.enterRetrain (s : State) (p : Nat) : State :=
  let s := s.setFld (fbPstate p) 0 4 psRetrain
  let s := ((s.assignTx p).assignRx p).modPort p fun x =>
    { x with swaps := [], lost := [], nakDue := false, fast := true, replays := 0, hello := false }
  (s.postLink 0x21 2 (s.linkFields p)).sendHello p

/-- The pilot retrains an ACTIVE port; while the pilot is down the port holds its traffic (R574). -/
def State.retrain (s : State) (p : Nat) : State :=
  if s.portActive p then
    if s.roleUp 1 then (if p = 8 then s else s.sendLmgt p 4 []).enterRetrain p
    else { s with firm := { s.firm with defer := insertNat s.firm.defer p } }
  else s

/-- A violation of the link protocol on a port (R417, R418). The host port counts in HI_VIOL instead. -/
def State.linkViolation (s : State) (p c : Nat) : State :=
  let s := s.satFld (fbPviol p c) 0 32 1
  let n := s.fld (fbPviol p c) 0 32
  let s := if isPow2 n then s.postLink 0x26 7 [(4, p), (4, c), (32, n)] else s
  let x := s.port p
  let run := if x.violRun.1 = c then x.violRun.2 + 1 else 1
  let escal := (c = 1 || c = 2 || c = 3 || c = 5) && decide (s.fld fbVpolicy 8 8 ≤ run)
  let s := s.modPort p fun x => { x with violRun := (c, if escal then 0 else run), tainted := true }
  if escal then s.retrain p else s

/-- A flit without a violation ends a run of consecutive violations (R417; log 14). -/
def State.linkGood (s : State) (p : Nat) : State :=
  if (s.port p).violRun.2 = 0 || (s.port p).tainted then s else s.modPort p fun x => { x with violRun := (x.violRun.1, 0) }

/-- Takes the ACKSEQ of an arriving flit: acknowledged flits leave the replay buffer (R394); an ACKSEQ for a flit not sent
is a violation of class 2. -/
def State.ackOnly (s : State) (p : Nat) (ack : BitVec 12) : State :=
  let s := if (s.port p).tainted then s.modPort p fun x => { x with tainted := false } else s
  let x := s.port p
  let oldest := x.txNext - BitVec.ofNat 12 x.replay.length
  let d := (ack + 1 - oldest).toNat
  if d ≤ x.replay.length then
    if d = 0 then s else s.setPort p { x with replay := x.replay.drop d, replays := 0 }
  else if d < 2048 then s.linkViolation p 2
  else s

/-- Takes the ACKSEQ and sends what the freed replay buffer lets go (R394). -/
def State.takeAck (s : State) (p : Nat) (ack : BitVec 12) : State := (s.ackOnly p ack).portPump p

/-- Whether a swap of the receive direction is pending, during which no LNAK is sent (R402). -/
def Port.rxSwaps (x : Port) : Bool := x.swaps.any fun w => !w.transmit

/-- A flit is missing again while its LNAK is out: a further LNAK once the partner's replay timer has run, which a free value tells
(R393, log 6). -/
def State.nakAgain (s : State) (p : Nat) : State :=
  let (v, s) := s.freeVal 1
  if v = 1 then s.sendLnak p else s

/-- Whether a number lies ahead of the expected one. -/
def seqAhead (lseq expect : BitVec 12) : Bool := decide (lseq ≠ expect) && decide ((lseq - expect).toNat < 2048)

/-- Link-level acceptance of a sequenced flit: the state, and whether the flit goes on (R393, R402, R417 classes 1 and 3). One ahead
of the expected number is a violation unless it is discarded with a failed flit before it. -/
def State.acceptSeq (s : State) (p : Nat) (f : Flit) : Bool × State :=
  let s := s.takeAck p f.ackseq
  let x := s.port p
  if f.lseq = x.rxExpect then
    (true, s.setPort p { x with rxExpect := x.rxExpect + 1, lnakSent := false, nakDue := false, failed := false })
  else if !seqAhead f.lseq x.rxExpect then (false, s)
  else if x.rxSwaps then (false, s.setPort p { x with nakDue := true, failed := true })
  else
    let s := if x.failed then s else s.linkViolation p 1
    (false, if x.lnakSent then s.nakAgain p else s.sendLnak p)

/-- Takes link credit for an arriving frame of a class (R396); a flit beyond the credit is a violation of class 3. -/
def State.takeCredit (s : State) (p : Nat) (relay : Bool) : Bool × State :=
  let x := s.port p
  if relay then
    if 256 ≤ (x.relayGot - x.relayTold).toNat then (false, (s.linkViolation p 3).sendLcredit p)
    else (true, s.setPort p { x with relayGot := x.relayGot + 1 })
  else if 256 ≤ (x.localGot - x.localTold).toNat then (false, (s.linkViolation p 3).sendLcredit p)
  else (true, s.setPort p { x with localGot := x.localGot + 1 })

/-- A local-class flit has been taken: its buffer is free (R396). -/
def State.freeLocal (s : State) (p : Nat) : State :=
  (s.modPort p fun x => { x with localFreed := x.localFreed + 1 }).lcreditDue p

/-- Port that FB_ROUTE gives for an address: 0 to 7, 8 local, 15 none (R406). -/
def State.route (s : State) (dst : Nat) : Nat := s.fld (fbRoute (dst / 16)) (4 * (dst % 16)) 4

def State.selfAddr (s : State) : Nat := s.fld fbCfg 0 12

/-- Whether a port takes frames to send: not OFF, ABSENT or DOWN (R397); a retraining port holds them. -/
def State.portTakes (s : State) (p : Nat) : Bool :=
  !(s.portMode p = psOff || s.portMode p = psAbsent || s.portMode p = psDown)

/-- Sends a frame on a route: delivered here when DST is this module or the route is local, queued on the port otherwise
(R406). A frame without a way is dropped; its flow sends it again (R412). -/
def State.injectOn (s : State) (r : Nat) (f : Flit) : State :=
  if f.dst.toNat = s.selfAddr ∨ r = 8 then { s with loopback := s.loopback ++ [(none, f)] }
  else if r < 8 && s.portTakes r then
    (s.modPort r fun x => { x with waiting := x.waiting ++ [(f, none)] }).portPump r
  else s

/-- Sends a frame toward DST by FB_ROUTE. -/
def State.injectFrame (s : State) (f : Flit) : State := s.injectOn (s.route f.dst.toNat) f

/-- Relays an arriving frame for another module (R406, R407, R417 classes 6 and 7). -/
def State.relayFrame (s : State) (p : Nat) (f : Flit) : State :=
  let r := s.route f.dst.toNat
  if s.fld fbCfg 16 1 = 0 ∨ 8 < r then (s.linkViolation p 6).freeRelay p
  else if f.hops = 0 then (s.linkViolation p 7).freeRelay p
  else if r = 8 then { (s.linkGood p).freeRelay p with loopback := s.loopback ++ [(some p, f)] }
  else if s.portTakes r then
    let f := { f with hops := f.hops - 1 }
    ((s.linkGood p).modPort r fun x => { x with waiting := x.waiting ++ [(f, some p)] }).portPump r
  else (s.linkGood p).freeRelay p

end Sys2Proof.Machine
end

