-- ==== Sys2Proof/Machine/Flows.lean ====
section
/-! DEFINITION. Flows: sequence numbers, credit, retransmission, delivery (12_optical_fabric R409 to R417). -/

namespace Sys2Proof.Machine

open Sys2Proof

/-! ## Fields of a flow context (Table: Flow context) -/

def State.flowState (s : State) (f : Nat) : Nat := s.fld (fcWord f 0) 0 3
def State.flowJob (s : State) (f : Nat) : Nat := s.fld (fcWord f 0) 4 6
def State.peerRank (s : State) (f : Nat) : Nat := s.fld (fcWord f 0) 10 12
def State.peerFlow (s : State) (f : Nat) : Nat := s.fld (fcWord f 0) 22 12
def State.txNext (s : State) (f : Nat) : Nat := s.fld (fcWord f 1) 0 12
def State.txAcked (s : State) (f : Nat) : Nat := s.fld (fcWord f 1) 16 12
def State.climit (s : State) (f : Nat) : Nat := s.fld (fcWord f 1) 32 12
def State.rxExpect (s : State) (f : Nat) : Nat := s.fld (fcWord f 2) 0 12
def State.rxGrant (s : State) (f : Nat) : Nat := s.fld (fcWord f 2) 16 12

/-- Distance modulo 2^12. -/
def mod12 (a b : Nat) : Nat := (a + 4096 - b) % 4096

/-- Rank map entry: address and VALID (R416). -/
def State.rankAddr (s : State) (r : Nat) : Nat := s.fld (fbRankmap r) 0 12
def State.rankValid (s : State) (r : Nat) : Bool := s.fld (fbRankmap r) 12 1 = 1

/-- Whether a flow carries traffic: open, or stalled and still retransmitting (R412). -/
def State.flowLive (s : State) (f : Nat) : Bool := s.flowState f = 1 || s.flowState f = 2

/-- Whether a flow sends what its retransmit buffer holds: it is live, or a kill has closed it and whole messages are left
(R615). -/
def State.flowSends (s : State) (f : Nat) : Bool := s.flowLive f || (s.flowState f = 0 && !(s.flow f).rtx.isEmpty)

/-- Whether a command of a job may use a flow (R414). -/
def State.flowUsable (s : State) (f j : Nat) : Bool := s.flowLive f && s.flowJob f = j

/-- A frame of a flow as it is injected: DST from the rank map, SRC this module, FLOW the peer's context (R406, R416). -/
def State.frameOf (s : State) (f : Nat) (x : Flit) : Flit :=
  { x with dst := BitVec.ofNat 12 (s.rankAddr (s.peerRank f)), src := BitVec.ofNat 12 s.selfAddr,
           flow := BitVec.ofNat 12 (s.peerFlow f), hops := BitVec.ofNat 4 (s.fld fbCfg 12 4) }

/-- PORT2 for a job's second checkpoint flow (R520). -/
def State.flowPort2 (s : State) (f : Nat) : Option Nat :=
  let c := fwCkcfg (s.flowJob f)
  if s.fld c 24 1 = 1 && f = s.fld c 12 12 + 1 then some (s.fld c 25 4) else none

/-- Frames of a flow leave by PORT2, where that applies, else as FB_ROUTE says. -/
def State.flowInject (s : State) (f : Nat) (y : Flit) : State :=
  match s.flowPort2 f with
  | some p => s.injectOn p y
  | none => s.injectFrame y

/-- Moves waiting flits into the retransmit buffer while it holds fewer than 2,048; each takes the next FSEQ (R409). -/
def Flow.fill (x : Flow) (acked : Nat) : Nat → Flow
  | 0 => x
  | n + 1 =>
    match x.txq with
    | [] => x
    | (y, _) :: rest =>
      if x.rtx.length < 2048 then
        let y := { y with fseq := BitVec.ofNat 12 (acked + x.rtx.length) }
        Flow.fill { x with rtx := x.rtx ++ [y], txq := rest } acked n
      else x

/-- Sends flits of the retransmit buffer that lie before CLIMIT (R410), while the rank map entry is valid (R416). -/
def State.flowSendGo (s : State) (f : Nat) : Nat → State
  | 0 => s
  | n + 1 =>
    let x := s.flow f
    let sent := mod12 (s.txNext f) (s.txAcked f)
    match x.rtx[sent]? with
    | none => s
    | some y =>
      if s.flowSends f && s.rankValid (s.peerRank f) && 0 < mod12 (s.climit f) (s.txNext f) &&
          mod12 (s.climit f) (s.txNext f) < 2048 then
        let s := (s.setFld (fcWord f 1) 0 12 (s.txNext f + 1)).addFld (fcWord f 5) 0 64 1
        (s.flowInject f (s.frameOf f y)).flowSendGo f n
      else s

/-- Fills the retransmit buffer and sends what may be sent. -/
def State.flowPump (s : State) (f : Nat) : State :=
  let x := s.flow f
  let s := s.setFlow f (x.fill (s.txAcked f) x.txq.length)
  s.flowSendGo f (s.flow f).rtx.length

/-- Queues flits on a flow; `owner` names the core and transfer of a SEND. -/
def State.flowQueue (s : State) (f : Nat) (ys : List Flit) (owner : Option (Nat × Nat)) : State :=
  (s.modFlow f fun x => { x with txq := x.txq ++ ys.map fun y => (y, owner) }).flowPump f

/-- A FACK: RX_EXPECT, CLIMIT, PROBE (Table: Payloads of control flits). -/
def State.sendFack (s : State) (f : Nat) (probe : Bool) : State :=
  if s.rankValid (s.peerRank f) then
    let y := { flitBlank with type := 2, last := true, len := 5 }
    let y := { y with payload := leBytes 2 (s.rxExpect f) ++ leBytes 2 (s.rxGrant f) ++ leBytes 1 (if probe then 1 else 0) }
    let s := s.injectFrame (s.frameOf f y)
    s.modFlow f fun x => { x with told := BitVec.ofNat 12 (s.rxGrant f), acceptedSince := 0 }
  else s

/-- How many flits the receive side holds (R411). -/
def Flow.holds (x : Flow) : Nat := x.rx.length + (x.heldMarkers.map fun m => m.behind.length).sum

/-- Sets RX_GRANT from what the receive side holds (R411), and sends a FACK when CLIMIT advanced by 64 or 64 flits have
been accepted since the last one (R410). -/
def State.grant (s : State) (f : Nat) : State :=
  let x := s.flow f
  let s := s.setFld (fcWord f 2) 16 12 (s.rxExpect f + 512 - x.holds)
  if 64 ≤ mod12 (s.rxGrant f) x.told.toNat || 64 ≤ x.acceptedSince then s.sendFack f false else s

/-- A violation that names a flow (R417): classes 9, 11 and 12 count on the flow and can isolate it. `p` is the arriving
port; a frame delivered within the module arrives on none. -/
def State.flowViolation (s : State) (p : Option Nat) (f c : Nat) : State :=
  let s := match p with | some p => s.linkViolation p c | none => s
  if c = 9 || c = 11 || c = 12 then
    let s := s.satFld (fcWord f 8) 0 32 1
    let x := s.flow f
    let run := if x.violRun.1 = c then x.violRun.2 + 1 else 1
    let escal := decide (s.fld fbVpolicy 0 8 ≤ run)
    let s := s.modFlow f fun x => { x with violRun := (c, if escal then 0 else run) }
    if escal && s.flowLive f then
      let s := s.setFld (fcWord f 0) 0 3 3
      let h := s.jobHead 0x29 7 (s.flowJob f)
      s.postFlow f h [(12, f), (13, s.peerRank f), (12, s.rxExpect f)]
    else s
  else s

/-- A frame that breaks no rule ends a run of violations on its flow and port. -/
def State.flowGood (s : State) (p : Option Nat) (f : Nat) : State :=
  let s := match p with | some p => s.linkGood p | none => s
  if (s.flow f).violRun.2 = 0 then s else s.modFlow f fun x => { x with violRun := (x.violRun.1, 0) }

/-- Current attempt of a job (FB_JOBPOL.ATTEMPT). -/
def State.jobAttempt (s : State) (j : Nat) : Nat := s.fld (fbJobpol j) 16 16

/-- Whether a flow is a checkpoint flow of its job (R520). -/
def State.isCkFlow (s : State) (f : Nat) : Bool :=
  let c := s.fld (fwCkcfg (s.flowJob f)) 12 12
  f = c || (f = c + 1 && s.fld (fwCkcfg (s.flowJob f)) 24 1 = 1)

/-- Whether what arrives on a flow now is discarded: its recorded marker is older than the job's attempt (R447). Checkpoint
flows carry no message of an attempt (R520). -/
def State.staleFlow (s : State) (f : Nat) : Bool :=
  let j := s.flowJob f
  let b := s.jobAttempt j
  0 < b && !s.isCkFlow f &&
    (match (s.flow f).marker with
     | none => true
     | some (ms, mb) => ms < s.jobStep j || (ms = s.jobStep j && mb < b))

/-- Whether a COLL or RECV may take messages from a flow (R447): its recorded marker is the step and attempt that the job is in, or
in attempt 0 one of an earlier step or none. -/
def State.mayTake (s : State) (f : Nat) : Bool :=
  let j := s.flowJob f
  match (s.flow f).marker with
  | none => s.jobAttempt j = 0
  | some m => m = (s.jobStep j, s.jobAttempt j) || (s.jobAttempt j = 0 && m.1 < s.jobStep j)

/-- A DATA flit joins the receive side, behind the markers held there (R447). -/
def Flow.hold (x : Flow) (y : Flit) : Flow :=
  match x.heldMarkers.getLast? with
  | none => { x with rx := x.rx ++ [y], heard := true }
  | some m => { x with heldMarkers := x.heldMarkers.dropLast ++ [{ m with behind := m.behind ++ [y] }] }

/-- Takes an accepted flit onto the receive side: DATA waits for its consumer or is discarded (R447), TOKEN goes to the
sync block (R411). -/
def State.acceptFlit (s : State) (p : Option Nat) (f : Nat) (y : Flit) : State :=
  let s := s.flowGood p f
  let s := (s.setFld (fcWord f 2) 0 12 (s.rxExpect f + 1)).addFld (fcWord f 6) 0 64 1
  let s := s.modFlow f fun x => { x with acceptedSince := x.acceptedSince + 1 }
  if y.type = 3 then { s with tokensIn := s.tokensIn ++ [(f, p, y)] }.grant f
  else if s.staleFlow f && (s.flow f).heldMarkers.isEmpty then s.grant f
  else (s.modFlow f fun x => x.hold y).grant f

/-- Classification of a DATA or TOKEN flit by its position (R410). -/
def State.takePositioned (s : State) (p : Option Nat) (f : Nat) (y : Flit) : State :=
  let d := mod12 y.fseq.toNat (s.rxExpect f)
  if d = 0 then s.acceptFlit p f y
  else if 2048 ≤ d then s.sendFack f false
  else if d < mod12 (s.rxGrant f) (s.rxExpect f) then s.sendFack f false
  else (s.flowViolation p f 11).sendFack f false

/-- A FACK arrives on a flow (R410, R412; violation class 12). -/
def State.takeFack (s : State) (p : Option Nat) (f : Nat) (y : Flit) : State :=
  let e := flitField y 0 2 % 4096
  let cl := flitField y 2 2 % 4096
  let probe := flitByte y 4 % 2 = 1
  let d := mod12 e (s.txAcked f)
  let unsent := mod12 (s.txNext f) (s.txAcked f) < d && d < 2048
  if unsent || 2048 ≤ mod12 cl (s.climit f) then s.flowViolation p f 12
  else
    let s := s.flowGood p f
    let d := if d < 2048 then d else 0
    let s := if d = 0 then s
      else
        let s := s.setFld (fcWord f 1) 16 12 e
        let s := s.modFlow f fun x => { x with rtx := x.rtx.drop d, tries := 0, stalledPosted := false }
        if s.flowState f = 2 then s.setFld (fcWord f 0) 0 3 1 else s
    let s := (s.setFld (fcWord f 1) 32 12 cl).flowPump f
    if probe then s.sendFack f false else s

/-- Delivery of a frame to its flow context (R406, R414, R417 classes 4, 8 and 9). A flow that a kill closed takes the FACKs of
the messages it still delivers (R615; log 63). -/
def State.deliver (s : State) (p : Option Nat) (y : Flit) : State :=
  let f := y.flow.toNat
  if f < 3072 && s.flowState f = 0 && s.flowSends f && y.type = 2 && y.src.toNat = s.rankAddr (s.peerRank f) then
    s.takeFack p f y
  else if 3072 ≤ f || s.flowState f = 0 then
    match p with
    | some p => s.linkViolation p 8
    | none => s
  else if s.flowState f = 3 then s
  else if y.src.toNat ≠ s.rankAddr (s.peerRank f) then s.flowViolation p f 9
  else if y.len = 0 || 240 < y.len.toNat || (y.len.toNat ≠ 240 && !y.last) then s.flowViolation p f 4
  else if y.type = 2 then s.takeFack p f y
  else s.takePositioned p f y

/-- A frame arrives on a port and is taken by the link layer, then relayed or delivered. -/
def State.frameArrives (s : State) (p : Nat) (y : Flit) : State :=
  let (ok, s) := s.acceptSeq p y
  if ok then
    let relay := decide (y.dst.toNat ≠ s.selfAddr)
    let (ok, s) := s.takeCredit p relay
    if ok then
      if relay then s.relayFrame p y else (s.deliver (some p) y).freeLocal p
    else s
  else s

/-- Go-back-N: everything sent and not acknowledged goes again (R412, R415). -/
def State.resend (s : State) (f : Nat) : State :=
  let x := s.flow f
  let sent := mod12 (s.txNext f) (s.txAcked f)
  if s.rankValid (s.peerRank f) then
    (x.rtx.take sent).foldl (fun s y => (s.addFld (fcWord f 5) 0 64 1).flowInject f (s.frameOf f y)) s
  else s

/-- The retransmit buffer of a flow: 512 KiB of the firmware data area, placed by a free value (R409; log 63). -/
def rtxBase (f : Nat) : Nat := 0x4000000000 + Config.rtxPlace f % (2 ^ 33 - 2 ^ 19 + 1)

/-- A copy that was arriving from a flow's peer ends with the flow: what came of it belongs to no later copy (R520, R522). -/
def State.dropCopy (s : State) (f : Nat) : State :=
  match (s.job (s.flowJob f)).holdIn with
  | some h => if h.rank = s.peerRank f then s.modJob (s.flowJob f) fun x => { x with holdIn := none } else s
  | none => s

/-- A flow is opened or reset: counters at 0, credit 512 both ways (R409, R411, R415). -/
def State.openFlow (s : State) (f job rank pf : Nat) : State :=
  let w0 := 1 + job * 2 ^ 4 + rank * 2 ^ 10 + pf * 2 ^ 22
  let s := s.dropCopy f
  let s := s.setReg (fcWord f 0) (BitVec.ofNat 64 w0)
  let s := s.setReg (fcWord f 1) (BitVec.ofNat 64 (512 * 2 ^ 32))
  let s := s.setReg (fcWord f 2) (BitVec.ofNat 64 (512 * 2 ^ 16))
  (s.setReg (fcWord f 3) (BitVec.ofNat 64 (rtxBase f))).setFlow f Flow.reset

/-- A flow is closed: nothing of it is kept but its settings and counts (R409). -/
def State.closeFlow (s : State) (f : Nat) : State :=
  ((s.dropCopy f).setFld (fcWord f 0) 0 3 0).setFlow f Flow.reset

/-- The flits of a buffer up to the last that ends a message. -/
def wholeMessages (l : List Flit) : List Flit := (l.reverse.dropWhile fun y => !y.last).reverse

/-- A kill closes a flow (R326); the messages that lie whole in its retransmit buffer are still delivered (R615; log 63). -/
def State.shutFlow (s : State) (f : Nat) : State :=
  let x := s.flow f
  ((s.dropCopy f).setFld (fcWord f 0) 0 3 0).setFlow f { Flow.reset with rtx := wholeMessages x.rtx, told := x.told }

/-- The flits of a message (R410): 240 bytes each but the last, pieces of 32 bytes marked where a byte is poisoned. -/
def messageFlitsGo : Nat → List Byte → List Bool → List Flit
  | 0, _, _ => []
  | n + 1, bytes, bad =>
    let chunk := bytes.take 240
    let cb := bad.take 240
    let rest := bytes.drop 240
    let mask := (List.range 8).foldl (fun m k => if ((cb.drop (32 * k)).take 32).any id then m + 2 ^ k else m) 0
    let y := { flitBlank with type := 1, last := rest.isEmpty, len := BitVec.ofNat 8 chunk.length }
    { y with pmask := BitVec.ofNat 8 mask, payload := chunk } ::
      (if rest.isEmpty then [] else messageFlitsGo n rest (bad.drop 240))

def messageFlits (bytes : List Byte) (bad : List Bool) : List Flit := messageFlitsGo (bytes.length / 240 + 1) bytes bad

/-- The payload bytes that a DATA flit carries. -/
def flitData (y : Flit) : List Byte := (y.payload ++ List.replicate 240 0).take y.len.toNat

/-- For each byte of a DATA flit, whether its piece is marked (R392). -/
def flitBad (y : Flit) : List Bool := (List.range y.len.toNat).map fun i => bitOf y.pmask.toNat (i / 32)

/-- Splits the accepted flits of a flow at the end of the first whole message, if one has arrived. -/
def splitMessage : List Flit → Option (List Flit × List Flit)
  | [] => none
  | y :: ys =>
    if y.last then some ([y], ys)
    else
      match splitMessage ys with
      | some (m, rest) => some (y :: m, rest)
      | none => none

/-- The flits of the first whole message of a flow, what its consumer has taken first, and what follows them. -/
def Flow.message (x : Flow) : Option (List Flit × List Flit) := splitMessage (x.part ++ x.rx)

/-- The first whole message of a flow: bytes and poison by byte. -/
def State.peekMessage (s : State) (f : Nat) : Option (List Byte × List Bool) :=
  match (s.flow f).message with
  | some (m, _) => some (m.flatMap flitData, m.flatMap flitBad)
  | none => none

/-- Takes the first whole message; the credit that its flits still held is granted again (R411). -/
def State.dropMessage (s : State) (f : Nat) : State :=
  match (s.flow f).message with
  | some (_, rest) => (s.modFlow f fun x => { x with rx := rest, part := [], latePosted := false }).grant f
  | none => s

/-- Discards what a flow has received and no consumer has taken whole. -/
def State.clearRx (s : State) (f : Nat) : State := (s.modFlow f fun x => { x with rx := [], part := [] }).grant f

/-- The flits of a list up to the first that ends a message, and the others. -/
def firstFlits : List Flit → List Flit × List Flit
  | [] => ([], [])
  | y :: ys => if y.last then ([y], ys) else (y :: (firstFlits ys).1, (firstFlits ys).2)

/-- Whether flits of a flow could go to a consumer that takes its next message now: some are held, and the message is not whole. -/
def Flow.feeds (x : Flow) : Bool :=
  !x.rx.isEmpty && (match x.part.getLast? with | some y => !y.last | none => true)

/-- A waiting consumer takes the flits of its message as they come, which frees their places (R411). -/
def State.feed (s : State) (f : Nat) : State :=
  (s.modFlow f fun x => { x with part := x.part ++ (firstFlits x.rx).1, rx := (firstFlits x.rx).2 }).grant f

end Sys2Proof.Machine
end

