-- ==== Sys2Proof/Machine/Sync.lean ====
section
/-! DEFINITION. Sync objects: counters, sluices, waiters, token rounds (11_synchronisation R368 to R380). -/

namespace Sys2Proof.Machine

open Sys2Proof

/-! ## Configuration of an object (Table: SY_OCFG) -/

def State.objKind (s : State) (n : Nat) : Nat := s.fld (syOcfg n) 0 2
def State.objJob (s : State) (n : Nat) : Nat := s.fld (syOcfg n) 2 6
def State.objSecure (s : State) (n : Nat) : Bool := s.fld (syOcfg n) 8 1 = 1
def State.objLocal (s : State) (n : Nat) : Nat := s.fld (syOcfg n) 9 16
def State.objRanks (s : State) (n : Nat) : Nat := s.fld (syOcfg n) 25 13
def State.objRank (s : State) (n : Nat) : Nat := s.fld (syOcfg n) 38 12
def State.objFlow (s : State) (n : Nat) : Nat := s.fld (syOcfg n) 50 12

/-- ceil(log2 n) for n ≥ 1. -/
def clog2 (n : Nat) : Nat := if n ≤ 1 then 0 else (n - 1).log2 + 1

def syReject : Nat := 0x8100800028
def syTimeouts : Nat := 0x8100800030

/-! ## Waiters -/

/-- Releases every waiter of an object whose condition holds: a counter at least the operand, as signed integers (R370); a
sluice whose current phase has another sense (R373, R374). -/
def State.evalObj (s : State) (n : Nat) : State :=
  let o := s.obj n
  let kind := s.objKind n
  let done := fun (w : Waiter) =>
    w.obj = n && !w.refused && ((kind = 1 && !w.isSluice && w.operand.toInt ≤ o.value.toInt) ||
      (kind = 2 && w.isSluice && (w.operand.toNat % 2 = 1) != o.sense))
  { s with waiters := s.waiters.map fun e => if done e.2 then (e.1, { e.2 with released := true }) else e }

/-- Adds to a counter; the previous value and the new state (R368). -/
def State.counterAdd (s : State) (n : Nat) (v : Reg) : Reg × State :=
  let o := s.obj n
  (o.value, (s.setObj n { o with value := o.value + v }).evalObj n)

/-! ## Sluices -/

/-- Completion of a phase (R373). -/
def State.phaseDone (s : State) (n : Nat) : State :=
  (s.modObj n fun o =>
    { o with arrived := 0, sense := !o.sense, round := 0, remote := false, phases := o.phases + 1,
             timedOut := false }).evalObj n

/-- Tokens held for a round and sense (R376). -/
def Obj.held (o : Obj) (r : Nat) (sense : Bool) : Nat :=
  match o.tokens.find? (fun t => t.1 == r && t.2.1 == sense) with
  | some t => t.2.2
  | none => 0

def Obj.setHeld (o : Obj) (r : Nat) (sense : Bool) (k : Nat) : Obj :=
  let others := o.tokens.filter fun t => !(t.1 == r && t.2.1 == sense)
  { o with tokens := if k = 0 then others else (r, sense, k) :: others }

/-- A TOKEN flit (Table: Payloads of control flits). -/
def tokenFlit (obj : Nat) (sense : Bool) (round step attempt : Nat) : Flit :=
  let body := leBytes 2 obj ++ leBytes 1 (if sense then 1 else 0) ++ leBytes 1 round ++ leBytes 6 step ++ leBytes 2 attempt
  { flitBlank with type := 3, last := true, len := 12, payload := body }

/-- Sends the token of a round (R375). -/
def State.sendToken (s : State) (n r : Nat) : State :=
  let j := s.objJob n
  s.flowQueue (s.objFlow n + 2 * r) [tokenFlit n (s.obj n).sense r (s.jobStep j) (s.jobAttempt j)] none

/-- Goes through the rounds whose token has come; `fuel` bounds the rounds (R375). -/
def State.tokenRounds (s : State) (n : Nat) : Nat → State
  | 0 => s
  | fuel + 1 =>
    let o := s.obj n
    let k := o.held o.round o.sense
    if !o.remote || k = 0 then s
    else
      let s := s.setObj n (o.setHeld o.round o.sense (k - 1))
      let r := o.round + 1
      if clog2 (s.objRanks n) ≤ r then s.phaseDone n
      else ((s.modObj n fun o => { o with round := r, timedOut := false }).sendToken n r).tokenRounds n fuel

/-- One arrival at a sluice; the sense of the phase that it joins, and the new state (R372, R373). -/
def State.arrive (s : State) (n : Nat) : Bool × State :=
  let o := s.obj n
  let s := s.setObj n { o with arrived := (o.arrived + 1) % 65536 }
  if o.arrived + 1 = s.objLocal n && !o.remote then
    if s.objRanks n ≤ 1 then (o.sense, s.phaseDone n)
    else
      let s := s.modObj n fun o => { o with remote := true, round := 0 }
      (o.sense, (s.sendToken n 0).tokenRounds n 13)
  else (o.sense, s)

/-- The round of a sluice that waits on a flow (R375). -/
def State.flowRound (s : State) (n f : Nat) : Option Nat :=
  (List.range (clog2 (s.objRanks n))).find? fun r => s.objFlow n + 2 * r + 1 = f

/-- A token that a flow delivered (R376; violation class 13). It is a token of the round that waits on its flow, whatever round its
sender named (R375, R377); on a flow where the sluice waits for none it ends no round (DEDUCED; log 64). -/
def State.takeToken (s : State) (f : Nat) (p : Option Nat) (y : Flit) : State :=
  let n := flitField y 0 2 % 16384
  let sense := flitByte y 2 % 2 = 1
  let step := flitField y 4 6
  let attempt := flitField y 10 2
  let j := s.flowJob f
  if s.objKind n ≠ 2 ∨ s.objJob n ≠ j then
    match p with
    | some p => s.linkViolation p 13
    | none => s
  else if step ≠ s.jobStep j ∨ attempt ≠ s.jobAttempt j then s.addFld syReject 32 32 1
  else
    match s.flowRound n f with
    | some r => (s.modObj n fun o => o.setHeld r sense (o.held r sense + 1)).tokenRounds n 13
    | none => s

/-! ## Ownership (R378) -/

/-- How an operation on an object fares. -/
inductive SyncReach where
  | ok | refused | blocked
deriving DecidableEq, Repr

/-- An operation of a core on an object, `sluice` telling which kind the operation belongs to and `sec` its world: the core's, or
the stream engine's for a FLAG CTRADD (R315, R317, R378). -/
def State.syncReachAs (s : State) (c n : Nat) (sluice sec : Bool) : SyncReach :=
  let job := match (s.core c).launch with | some l => l.job | none => 0
  if s.objSecure n && !sec then .blocked
  else if s.objJob n ≠ job ∨ s.objKind n ≠ (if sluice then 2 else 1) then .refused
  else .ok

/-- An operation that a core's instruction makes. -/
def State.syncReach (s : State) (c n : Nat) (sluice : Bool) : SyncReach := s.syncReachAs c n sluice (s.coreSecure c)

/-- What a refusal or a block counts (R317, R378). -/
def State.syncRefuse (s : State) (r : SyncReach) : State :=
  match r with
  | .ok => s
  | .refused => s.addFld syReject 0 32 1
  | .blocked => s.blockAccess

/-! ## Copies (R380) -/

/-- The objects whose JOB is a job: their SY_OCFG is not at reset. -/
def State.jobObjs (s : State) (j : Nat) : List Nat :=
  (s.regs.filter fun e => decide (syOcfg 0 ≤ e.1) && decide (e.1 < syOcfg 16384) && e.1 % 64 == 0 && bitsOf e.2.toNat 2 6 == j).map
    fun e => (e.1 - syOcfg 0) / 64

/-- Copies the state of every object of a job, at launch and at step commit. Copies are kept by job and object. -/
def State.saveObjs (s : State) (j : Nat) : State :=
  { s with objCopies := (s.jobObjs j).foldl (fun m n => mput m (16384 * j + n) (s.obj n))
                          (s.objCopies.filter fun e => e.1 / 16384 != j) }

/-- Restores the job's copies and cancels the waiters of its cores (R380). An object that has become another job's since the copy is
left as it is, and one that has become the job's has no copy: DEDUCED, the copy is of the state of the job's objects (log 29). -/
def State.restoreObjs (s : State) (j : Nat) : State :=
  let saved := s.objCopies.filter fun e => e.1 / 16384 == j && s.objJob (e.1 % 16384) == j
  { s with objs := saved.foldl (fun m e => mput m (e.1 % 16384) e.2) s.objs,
           waiters := s.waiters.filter fun e =>
             match (s.core e.1).launch with
             | some l => l.job != j
             | none => true }

/-- Cancels the wait requests of a job's cores (R381). -/
def State.cancelWaits (s : State) (j : Nat) : State :=
  { s with waiters := s.waiters.filter fun e =>
             match (s.core e.1).launch with
             | some l => l.job != j
             | none => true }

/-- The value of SY_OVAL (Table: SY_OVAL). -/
def State.ovalRead (s : State) (n : Nat) : Reg :=
  let o := s.obj n
  let k := s.objKind n
  if k = 1 then o.value
  else if k = 2 then
    BitVec.ofNat 64 (o.arrived + (if o.sense then 2 ^ 16 else 0) + o.round % 16 * 2 ^ 17 +
      (if o.remote then 2 ^ 21 else 0) + o.phases.toNat * 2 ^ 32)
  else 0

end Sys2Proof.Machine
end

