-- ==== Sys2Proof/Machine/Operands.lean ====
section
/-! DEFINITION. Operand forms: fields of instruction words (07 R205), of commands (08 R253 to R277) and of tensor
descriptors (08 R278 to R292), and the elements that a descriptor names. -/

namespace Sys2Proof.Machine

open Sys2Proof

/-! ## Instruction words (R205) -/

def iwOp (w : Word) : Nat := bitsOf w.toNat 26 6
def iwRd (w : Word) : Nat := bitsOf w.toNat 21 5
def iwRa (w : Word) : Nat := bitsOf w.toNat 16 5
def iwRb (w : Word) : Nat := bitsOf w.toNat 11 5
def iwFunc (w : Word) : Nat := bitsOf w.toNat 0 11
def iwImm (w : Word) : Nat := bitsOf w.toNat 0 16
def iwQe (w : Word) : Nat := bitsOf w.toNat 14 2
def iwQimm (w : Word) : Nat := bitsOf w.toNat 0 14

/-- Major opcodes that Table: Opcode map assigns. -/
def opAssigned (op : Nat) : Bool :=
  op ≤ 0x1B || op = 0x20 || op = 0x21 || op = 0x22 || op = 0x24 || op = 0x25 || op = 0x28 || op = 0x29 || op = 0x2A ||
  op = 0x2C || op = 0x2D || op = 0x2E || op = 0x2F || op = 0x30 || op = 0x31 || op = 0x32 || op = 0x33 || op = 0x34 ||
  op = 0x38 || op = 0x3F

/-! ## Commands -/

/-- Bits [lo + n − 1 : lo] of word `i` of a command. -/
def cmdField (ws : List Word) (i lo n : Nat) : Nat := bitsOf (ws.getD i 0).toNat lo n

/-- A single bit of a command. -/
def cmdBit (ws : List Word) (i lo : Nat) : Bool := bitOf (ws.getD i 0).toNat lo

def cmdEng (ws : List Word) : Nat := cmdField ws 0 8 2

/-- The IOFF field (R257). -/
def cmdIoff (ws : List Word) : Nat := cmdField ws 6 0 32 + cmdField ws 7 0 24 * 2 ^ 32

/-- The command that an engine executes for a word 0: a code that it does not execute is an IDLE (R254). -/
def cmdCode (ws : List Word) : Nat :=
  let c := cmdField ws 0 0 8
  let e := cmdEng ws
  if e = 0 ∧ 1 ≤ c ∧ c ≤ 4 then c
  else if e = 1 ∧ 0x10 ≤ c ∧ c ≤ 0x13 then c
  else if e = 2 ∧ 0x20 ≤ c ∧ c ≤ 0x26 then c
  else if e = 3 ∧ (c = 0x30 ∨ c = 0x31) then c
  else 0

/-- Whether an IDLE stands in place of a code that the engine does not execute: WAIT clear, COUNT 1 (R254). -/
def cmdNotExecuted (ws : List Word) : Bool := cmdCode ws = 0 && cmdField ws 0 0 8 != 0

/-- IDLE's WAIT and COUNT (R277). -/
def idleWait (ws : List Word) : Bool := !cmdNotExecuted ws && cmdBit ws 0 10
def idleCount (ws : List Word) : Nat := if cmdNotExecuted ws then 1 else max (cmdField ws 2 0 32) 1

/-- A handle in a required position (R255). -/
def reqHandle (h : Nat) : Nat := if h = 0xFFF then 0xFFE else h

/-- Handle `k` of the 96-bit field of UPD (R265). -/
def updHandle (ws : List Word) (k : Nat) : Nat :=
  bitsOf ((cmdField ws 2 0 32) + cmdField ws 3 0 32 * 2 ^ 32 + cmdField ws 4 0 32 * 2 ^ 64) (12 * k) 12

/-- UPD's MODE, 3 read as 2 (R292). -/
def updMode (ws : List Word) : Nat := min (cmdField ws 0 16 2) 2

/-- VRED's OP, 6 and 7 read as 5. -/
def vredOp (ws : List Word) : Nat := min (cmdField ws 0 16 3) 5

/-- COLL's OP, 4 to 7 read as 3, and WORD, S1 only with OP 0 (R273, R441). -/
def collOp (ws : List Word) : Nat := min (cmdField ws 0 22 3) 3
def collWord (ws : List Word) : Nat := if cmdField ws 0 25 2 = 3 ∧ collOp ws ≠ 0 then 2 else cmdField ws 0 25 2

/-- The origin of LDT, STT and PRF along dimension `k` (R267). -/
def cmdOrigin (ws : List Word) (k : Nat) : Nat :=
  bitsOf (cmdField ws 3 0 32 + cmdField ws 4 0 32 * 2 ^ 32 + cmdField ws 5 0 32 * 2 ^ 64 + cmdField ws 6 0 32 * 2 ^ 96) (20 * k) 20

/-- An optional handle: none when null. -/
def optHandle (h : Nat) : List Nat := if h = 0xFFF then [] else [h]

/-- The handles that a command names (R255, R258 to R276). -/
def cmdHandles (ws : List Word) : List Nat :=
  let a := cmdField ws 2 0 12
  let b := cmdField ws 2 12 12
  let c := cmdField ws 3 0 12
  let d := cmdField ws 3 12 12
  match cmdCode ws with
  | 0x01 => [reqHandle a, reqHandle b]
  | 0x02 => reqHandle a :: (if cmdField ws 0 16 3 = 0 then [] else optHandle b)
  | 0x03 => [reqHandle a]
  | 0x04 => [reqHandle a]
  | 0x10 => reqHandle a :: reqHandle b :: ((if cmdBit ws 0 12 then [] else optHandle c) ++ optHandle d)
  | 0x11 =>
    let op := vredOp ws
    reqHandle a :: reqHandle b :: ((if op = 4 ∨ op = 5 then optHandle c else []) ++
      (if op ≤ 1 then optHandle d else if op = 5 then [reqHandle d] else []))
  | 0x12 => if cmdField ws 0 10 2 = 0 then [reqHandle a] else []
  | 0x13 =>
    let h := fun k => reqHandle (updHandle ws k)
    if updMode ws ≤ 1 then [h 0, h 1, h 2, h 3, h 4, h 5, h 6, h 7]
    else [h 0, h 1, h 2, h 3, h 4, h 5, h 6]
  | 0x20 => [reqHandle a, reqHandle b]
  | 0x21 => [reqHandle a, reqHandle b]
  | 0x22 => [reqHandle a, reqHandle b]
  | 0x23 => [reqHandle a]
  | 0x24 => [reqHandle a]
  | 0x25 => reqHandle a :: reqHandle b :: (if collWord ws = 3 then optHandle c else [])
  | 0x30 => [reqHandle a]
  | 0x31 => [reqHandle a]
  | _ => []

/-! ## Descriptors -/

/-- A tensor descriptor as it is read (R278, R285, R292). `shift` is added to every index: the member offset of a COLL's tile in
device memory (R283, R422). -/
structure Desc where
  base : Nat
  space : Bool
  fmt : Nat
  scaled : Bool
  bdim : Nat
  rank : Nat
  secure : Bool
  kill : Bool
  ext : List Nat
  stride : List Int
  bcast0 : Bool
  plane : Nat
  anchor : Int
  ibase : Nat
  ws : List Nat
  fpen : Bool
  fpslot : Nat
  stren : Bool
  slot : Nat
  mdx : Nat
  mdy : Nat
  spx : Bool
  spy : Bool
  edge : Nat
  shift : List Nat
deriving DecidableEq, Repr

/-- A descriptor read for a job; `sq` tells whether its table belongs to a secure queue (R285). -/
def readDesc (v : BitVec 512) (job : Nat) (sq : Bool) : Desc :=
  let n := v.toNat
  let rank := max 1 (min 5 (bitsOf n 49 3))
  let fmt := bitsOf n 41 4
  let low := fun x => min x (rank - 1)
  let own := bitsOf n 53 6 = job
  let ext := (List.range 5).map fun k =>
    if !own then 0 else if k < rank then bitsOf n (64 + 20 * k) 20 else 1
  { base := bitsOf n 0 40, space := bitOf n 40, fmt := fmt, scaled := fmtScaled fmt (bitOf n 45),
    bdim := low (bitsOf n 46 3), rank := rank, secure := bitOf n 52 && sq, kill := bitsOf n 59 2 ≠ 0, ext := ext,
    stride := (List.range 5).map fun k =>
                if k = 0 ∨ rank ≤ k then 0 else signedOf 32 (bitsOf n (164 + 32 * (k - 1)) 32),
    bcast0 := bitOf n 292, plane := bitsOf n 296 40, anchor := clampAnchor (signedOf 16 (bitsOf n 336 16)),
    ibase := bitsOf n 352 56,
    ws := (List.range 4).map fun k =>
            let w := bitsOf n (408 + 20 * k) 20
            if w = 0 then ext.getD k 1 else w,
    fpen := bitOf n 488, fpslot := bitsOf n 489 4, stren := bitOf n 493, slot := bitsOf n 494 4,
    mdx := low (bitsOf n 498 3), mdy := low (bitsOf n 501 3), spx := bitOf n 504, spy := bitOf n 505,
    edge := bitsOf n 506 2, shift := [] }

def Desc.e (d : Desc) (k : Nat) : Nat := d.ext.getD k 1

/-- Element count (R279). -/
def Desc.count (d : Desc) : Nat := d.ext.foldl (· * ·) 1

/-- The descriptor under a substituted format (R64, R65). -/
def Desc.withFmt (d : Desc) (accepted : List Nat) : Desc :=
  if accepted.contains d.fmt then d
  else
    let f := nearestFmt accepted d.fmt
    { d with fmt := f, scaled := fmtScaled f d.scaled }

/-- The descriptor as matrix, vector and reservoir engines read it: in the pond (R281). -/
def Desc.inPond (d : Desc) : Desc := { d with space := false, base := d.base % 2 ^ 18, plane := d.plane % 2 ^ 18 }

/-- Bytes of a packed dimension-0 row of `n` elements (R66, R67). A row of single bits is padded to whole bytes as well: DEDUCED,
R67 names 4-bit and 6-bit rows, and strides and images count bytes (log 58). -/
def rowBytes (f n : Nat) : Nat := if fmtBits f = 6 then (n + 3) / 4 * 3 else (n * fmtBits f + 7) / 8

/-- Bits of an element's tag: 4 for L128, 2 for reduction words, none else (R68). -/
def tagBits (f : Nat) : Nat := if f = 11 then 4 else if f = 12 ∨ f = 13 ∨ f = 14 then 2 else 0

/-- The parts of a byte range whose addresses wrap modulo 2^40 (R279). -/
def span40 (a n : Nat) : List (Nat × Nat) := if a + n ≤ 2 ^ 40 then [(a, n)] else [(a, 2 ^ 40 - a), (0, a + n - 2 ^ 40)]

/-- Addition of a signed offset modulo 2^40 (R279). -/
def wrap40 (a : Nat) (i : Int) : Nat := (((a : Int) + i) % 2 ^ 40).toNat

def addIx (a b : List Nat) : List Nat := (List.range 5).map fun k => a.getD k 0 + b.getD k 0

/-- Byte address and bit offset of an element (R279). -/
def Desc.elemAt (d : Desc) (ix : List Nat) : Nat × Nat :=
  let ix := addIx ix d.shift
  let bit := if d.bcast0 then 0 else ix.getD 0 0 * fmtBits d.fmt
  let off := (List.range 4).foldl (fun s k => s + (ix.getD (k + 1) 0 : Int) * d.stride.getD (k + 1) 0) (0 : Int)
  (wrap40 d.base ((bit / 8 : Nat) + off), bit % 8)

/-- Row-major position over extents. -/
def rowMajor (ext ix : List Nat) : Nat :=
  (List.range 5).foldr (fun k acc => ix.getD k 0 + ext.getD k 1 * acc) 0

/-- Byte address of the scale of an element's block (R75, R76, R280). -/
def Desc.scaleAt (d : Desc) (ix : List Nat) : Nat :=
  let ext := (List.range 5).map fun k => if k = d.bdim then (d.e k + 31) / 32 else d.e k
  let ix := addIx ix d.shift
  let jx := (List.range 5).map fun k => if k = d.bdim then ix.getD k 0 / 32 else ix.getD k 0
  wrap40 d.plane (rowMajor ext jx)

/-- Byte address and bit offset of an element's tag (R68, R280). -/
def Desc.tagAt (d : Desc) (ix : List Nat) : Nat × Nat :=
  let bit := rowMajor d.ext (addIx ix d.shift) * tagBits d.fmt
  (wrap40 d.plane ((bit / 8 : Nat) : Int), bit % 8)

/-- Bytes of the scale plane or tag plane. -/
def Desc.planeBytes (d : Desc) : Nat :=
  if d.count = 0 then 0
  else if d.scaled then ((List.range 5).map fun k => if k = d.bdim then (d.e k + 31) / 32 else d.e k).foldl (· * ·) 1
  else (d.count * tagBits d.fmt + 7) / 8

/-- Bytes of a tile, planes included (R275). -/
def Desc.bytes (d : Desc) : Nat :=
  if d.count = 0 then 0
  else rowBytes d.fmt (d.e 0) * (d.e 1 * d.e 2 * d.e 3 * d.e 4) + d.planeBytes

/-- Index tuple `n` in row-major order over extents. -/
def unrank : List Nat → Nat → List Nat
  | [], _ => []
  | e :: es, n => n % e :: unrank es (n / e)

/-- Every index tuple of a tile in row-major order. -/
def Desc.indices (d : Desc) : List (List Nat) := (List.range d.count).map (unrank d.ext)

/-- Logical index of an element (R282): origin and member offset already added to `ix`. -/
def Desc.logical (d : Desc) (ioff : Nat) (ix : List Nat) : Nat :=
  let p := fun k => (d.ws.take k).foldl (· * ·) 1
  (d.ibase + ioff + (List.range 5).foldl (fun s k => s + ix.getD k 0 * p k) 0) % 2 ^ 56

/-- Member offset of a tile's own indices at local position (i, j), `t` the tile's extents (R283). -/
def Desc.member (d : Desc) (i j : Nat) (t : List Nat) : List Nat :=
  (List.range 5).map fun k =>
    (if d.spx && k = d.mdx then i * t.getD k 1 else 0) + (if d.spy && k = d.mdy then j * t.getD k 1 else 0)

/-- Whether EDGE excludes the member at (i, j) (R284). -/
def Desc.excludes (d : Desc) (i j : Nat) : Bool :=
  match d.edge with
  | 0 => false
  | 1 => i != 0
  | 2 => j != 0
  | _ => i != 0 || j != 0

/-! ## Elements -/

/-- A memory seen by an engine: bytes, and whether a granule of a range is poisoned. -/
structure Reader where
  bytes : Nat → Nat → List Byte
  bad : Nat → Nat → Bool

/-- `n` bytes from `a`, addresses wrapping (R279). -/
def Reader.get (r : Reader) (a n : Nat) : List Byte := (span40 a n).flatMap fun p => r.bytes p.1 p.2

/-- Whether a granule of `n` bytes from `a` is poisoned. -/
def Reader.hit (r : Reader) (a n : Nat) : Bool := (span40 a n).any fun p => r.bad p.1 p.2

/-- The pond of a core: bytes at or beyond 196,608 read zero (R281). -/
def pondReader (m : Mem) : Reader :=
  { bytes := fun a n => let k := min n (196608 - a); m.read a k ++ List.replicate (n - k) 0,
    bad := fun a n => m.badRange a (min n (196608 - a)) }

/-- An element as it is stored: bits, scale byte, tag, poison (R614). -/
structure RawElem where
  bits : Nat
  scale : Option Nat
  tag : Nat
  poison : Bool
deriving DecidableEq, Repr

/-- A field of bits in a memory. -/
def readBits (r : Reader) (a off w : Nat) : Nat :=
  leNat (r.get a ((off + w + 7) / 8)) / 2 ^ off % 2 ^ w

/-- Reads an element with its scale and tag. -/
def Desc.read (d : Desc) (r : Reader) (ix : List Nat) : RawElem :=
  let (a, off) := d.elemAt ix
  let w := fmtBits d.fmt
  let n := (off + w + 7) / 8
  let scale := if d.scaled then some (leNat (r.bytes (d.scaleAt ix) 1)) else none
  let tb := tagBits d.fmt
  let (ta, toff) := d.tagAt ix
  let tag := if tb = 0 then 0 else readBits r ta toff tb
  { bits := readBits r a off w, scale := scale, tag := tag,
    poison := r.hit a n || (d.scaled && r.bad (d.scaleAt ix) 1) || (tb != 0 && r.bad ta 1) }

/-- Value of an element: L128 with its tag and the descriptor's anchor (R89, R94). Reduction words outside COLL and S1 elements
have none in the spec: `decodeElem` takes 0 (log 58). -/
def Desc.value (d : Desc) (x : RawElem) : Val :=
  if d.fmt = 11 then (Special.ofCode (x.tag % 4)).val (wellValue (signedOf 128 x.bits) d.anchor)
  else decodeElem d.fmt x.scale x.bits

/-! ## Writes of elements -/

/-- Bytes of a field of `w` bits at a bit offset, with their masks; addresses wrap (R279). -/
def bitCells (a off w v : Nat) : List (Nat × Byte × Byte) :=
  let n := (off + w + 7) / 8
  let mask := leBytes n ((2 ^ w - 1) * 2 ^ off)
  let val := leBytes n (v % 2 ^ w * 2 ^ off)
  (List.range n).map fun i => ((a + i) % 2 ^ 40, mask.getD i 0, val.getD i 0)

/-- Granules that a range of bytes touches. -/
def granules (a n : Nat) : List Nat :=
  (span40 a n).flatMap fun p =>
    if p.2 = 0 then [] else (List.range ((p.1 + p.2 - 1) / 32 + 1 - p.1 / 32)).map (· + p.1 / 32)

/-- The write of one element's bits; the pad bits of a row are written as zero with its last element (R67). -/
def Desc.elemCells (d : Desc) (ix : List Nat) (bits : Nat) : List (Nat × Byte × Byte) :=
  let (a, off) := d.elemAt ix
  let w := fmtBits d.fmt
  let lastInRow := ix.getD 0 0 + 1 = d.e 0 && d.shift.getD 0 0 = 0 && !d.bcast0 && w < 8
  let w' := if lastInRow then rowBytes d.fmt (d.e 0) * 8 - ix.getD 0 0 * w else w
  bitCells a off w' bits

/-- Marks that a poisoned element makes: its bits, and its tag or the scale byte of the block of index `sx` (R301, R614). -/
def Desc.marksAt (d : Desc) (ix sx : List Nat) : List Nat :=
  let (a, off) := d.elemAt ix
  let n := (off + fmtBits d.fmt + 7) / 8
  granules a n ++ (if d.scaled then [d.scaleAt sx / 32] else []) ++
    (if tagBits d.fmt = 0 then [] else [(d.tagAt ix).1 / 32])

/-- Marks that a poisoned element makes in a tile whose blocks are its own. -/
def Desc.elemGranules (d : Desc) (ix : List Nat) : List Nat := d.marksAt ix ix

/-- The write of one scale byte. -/
def Desc.scaleCells (d : Desc) (ix : List Nat) (e : Nat) : List (Nat × Byte × Byte) :=
  [(d.scaleAt ix, 0xFF, BitVec.ofNat 8 e)]

/-- The write of one tag; the pad bits of the plane's last byte are written as zero (R67, R68). -/
def Desc.tagCells (d : Desc) (ix : List Nat) (t : Nat) : List (Nat × Byte × Byte) :=
  let (a, off) := d.tagAt ix
  let tb := tagBits d.fmt
  if tb = 0 then []
  else if rowMajor d.ext ix + 1 = d.count then bitCells a off (8 - off) t
  else bitCells a off tb t

/-- Adds a masked byte to a rising list. -/
def mergeCell : List (Nat × Byte × Byte) → Nat × Byte × Byte → List (Nat × Byte × Byte)
  | [], c => [c]
  | x :: l, c =>
    if c.1 < x.1 then c :: x :: l
    else if c.1 = x.1 then (x.1, x.2.1 ||| c.2.1, (x.2.2 &&& ~~~c.2.1) ||| (c.2.2 &&& c.2.1)) :: l
    else x :: mergeCell l c

/-- The masked bytes of a write, one entry for each address. -/
def PondWrite.merged (w : PondWrite) : List (Nat × Byte × Byte) := w.cells.foldl mergeCell []

/-- The granules of a memory that merged masked bytes cover whole. -/
def coveredGranules (cs : List (Nat × Byte × Byte)) : List Nat :=
  let gs := cs.foldl (fun l c => insertNat l (c.1 / 32)) []
  gs.filter fun g => (cs.filter fun c => c.1 / 32 == g && c.2.1 == 0xFF).length = 32

/-- Applies a write (R301): bytes outside `reach` are dropped; granules covered whole lose their mark; poisoned elements'
granules are marked. -/
def Mem.apply (m : Mem) (w : PondWrite) (reach : Nat → Bool) : Mem :=
  let cs := w.merged.filter fun c => reach c.1
  let m := cs.foldl (fun m c =>
    { m with bytes := cellsPut m.bytes c.1 [(m.byte c.1 &&& ~~~c.2.1) ||| (c.2.2 &&& c.2.1)] }) m
  let m := (coveredGranules cs).foldl Mem.unmark m
  m.marks (w.bad.filter fun g => reach (g * 32))

/-- Applies a write to a core's pond (R281). -/
def State.pondApply (s : State) (c : Nat) (w : PondWrite) : State :=
  s.modCore c fun k => { k with pond := k.pond.apply w fun a => a < 196608 }

/-! ## What a core reads of its launch -/

def State.coreJob (s : State) (c : Nat) : Nat := match (s.core c).launch with | some l => l.job | none => 0
def State.coreHq (s : State) (c : Nat) : Nat := match (s.core c).launch with | some l => l.hq | none => 0

/-- Local position in the active span; (0, 0) outside one (R143, R165). -/
def State.local (s : State) (c : Nat) : Nat × Nat :=
  match (s.core c).launch with
  | some l => (l.lx, l.ly)
  | none => (0, 0)

/-- Skew of a core's stamps (R149). -/
def State.skew (s : State) (c : Nat) : Nat := 5 * ((s.local c).1 + (s.local c).2)

/-- The logical ID of a span's corner, which names an active span: their rectangles are disjoint (R146). -/
def ActiveSpan.corner (a : ActiveSpan) : Nat := a.y0 * 32 + a.x0

/-- Whether a core lies in the rectangle of a span (R143). -/
def ActiveSpan.holds (a : ActiveSpan) (c : Nat) : Bool :=
  decide (a.x0 ≤ c % 32) && decide (c % 32 < a.x0 + a.w) && decide (a.y0 ≤ c / 32) && decide (c / 32 < a.y0 + a.h)

/-- The active span that holds a core (R146). -/
def State.spanOf (s : State) (c : Nat) : Option ActiveSpan :=
  match (s.core c).launch with
  | some _ => s.active.find? fun a => a.holds c
  | none => none

/-- Span diameter D and freeze offset F (R147, R159). -/
def ActiveSpan.diameter (a : ActiveSpan) : Nat := (a.w - 1) + (a.h - 1)

/-- Members of a span (R143). -/
def ActiveSpan.members (a : ActiveSpan) : List Nat :=
  (List.range a.h).flatMap fun j => (List.range a.w).map fun i => (a.y0 + j) * 32 + a.x0 + i

/-- The descriptor of a handle as the cache holds it (R289); one that is not cached has no elements. -/
def State.desc (s : State) (c h : Nat) : Desc :=
  let q := s.coreHq c
  let v := match (s.core c).dcache.find? (fun e => e.hq == q && e.handle == h) with
    | some e => e.desc.getD 0
    | none => 0
  readDesc v (s.coreJob c) (s.hqSecure q)

/-- Whether a read of poisoned elements is a consumption of kind 4 (R286), and whether any element was poisoned. -/
def anyPoison (xs : List RawElem) : Bool := xs.any fun x => x.poison

end Sys2Proof.Machine
end

