-- ==== Sys2Proof/Machine/Control.lean ====
section
/-! DEFINITION. Shared operations of the control core: registers, predicates, program flow, hardware loops, queues, the
descriptor cache, issue of an instruction and the stops of a core (07_control_core; 08 R255, R288 to R291). -/

namespace Sys2Proof.Machine

open Sys2Proof

/-! ## Registers and predicates (R200) -/

/-- g[r]; g0 reads 0. -/
def Core.rg (k : Core) (r : BitVec 5) : Reg := if r = 0 then 0 else k.g[r.toNat]'r.isLt

/-- Writes g[r]; a write to g0 is discarded. -/
def Core.setG (k : Core) (r : BitVec 5) (v : Reg) : Core :=
  if r = 0 then k else { k with g := k.g.set r.toNat v r.isLt }

/-- p[i]; p0 reads 1. -/
def Core.pr (k : Core) (i : BitVec 3) : Bool := i = 0 || k.p.getLsbD i.toNat

/-- Writes p[i]; a write to p0 is discarded. -/
def Core.setP (k : Core) (i : BitVec 3) (b : Bool) : Core :=
  if i = 0 then k
  else { k with p := (k.p &&& ~~~(1#8 <<< i.toNat)) ||| (if b then 1#8 <<< i.toNat else 0) }

/-- The predicates as MFS 4 reads them (R204). -/
def Core.preds (k : Core) : BitVec 8 := k.p ||| 1

/-- Counter n. -/
def Core.lcAt (k : Core) (n : Nat) : Word := k.lc.toList.getD n 0

def Core.setLc (k : Core) (n : Nat) (v : Word) : Core := { k with lc := k.lc.setIfInBounds n v }

/-- Whether loop n is active. -/
def Core.loopActive (k : Core) (n : Nat) : Bool := k.loops.any fun f => f.n == n

/-! ## Program flow (R208, R219 to R223) -/

/-- Loops are listed innermost first. Back edges after the instruction at `pc`, the most recently entered loop first
(R222): the loops and counters that remain, and where execution continues. -/
def backEdge : List LoopFrame → Vector Word 4 → Nat → List LoopFrame × Vector Word 4 × Nat
  | [], lc, pc => ([], lc, (pc + 1) % 16384)
  | f :: fs, lc, pc =>
    if f.last = pc then
      let n := lc.toList.getD f.n 0
      if 1 < n.toNat then (f :: fs, lc.setIfInBounds f.n (n - 1), f.start % 16384)
      else backEdge fs (lc.setIfInBounds f.n 0) pc
    else (f :: fs, lc, (pc + 1) % 16384)

/-- Continues after an instruction that did not branch. -/
def Core.advance (k : Core) : Core :=
  let (loops, lc, pc) := backEdge k.loops k.lc k.pc.toNat
  { k with loops := loops, lc := lc, pc := BitVec.ofNat 14 pc }

/-- The loops that stay active after a taken branch to `t`, and the counters that end (R223). -/
def endLoops (t : Nat) : List LoopFrame → List LoopFrame × List Nat
  | [] => ([], [])
  | f :: fs =>
    let (rest, ended) := endLoops t fs
    if ended.isEmpty && f.start ≤ t && t ≤ f.last then (f :: rest, []) else (rest, f.n :: ended)

/-- A taken branch (R223). -/
def Core.jump (k : Core) (t : Nat) : Core :=
  let (loops, ended) := endLoops t k.loops
  { k with loops := loops, lc := ended.foldl (fun l n => l.setIfInBounds n 0) k.lc, pc := BitVec.ofNat 14 t }

/-- LOOP (R221). A LOOP that is itself the instruction at last of an active loop goes on where R221 says, at its own body or
past it, and takes no back edge of that loop: DEDUCED, R222 gives a back edge to the instruction at last (log 27). -/
def Core.enterLoop (k : Core) (n : Nat) (len cnt : Nat) : Core :=
  let start := k.pc.toNat + 1
  let last := min (start + len) 16383
  let last := match k.loops with | f :: _ => min last f.last | [] => last
  let loops := if k.loopActive n then (k.loops.dropWhile (fun f => f.n != n)).drop 1 else k.loops
  if cnt = 0 then { k with loops := loops, lc := k.lc.setIfInBounds n 0, pc := BitVec.ofNat 14 (last + 1) }
  else
    let f : LoopFrame := { n := n, start := start, last := last }
    { k with loops := f :: loops, lc := k.lc.setIfInBounds n (BitVec.ofNat 32 cnt), pc := BitVec.ofNat 14 start }

/-! ## Time (R202, R203) -/

/-- Whether a stamp has been reached at a cycle (R203). -/
def reached (cyc : Reg) (stamp : Word) : Bool := (cyc.setWidth 32 - stamp).toNat < 2 ^ 31

/-- Whether a core is frozen: a freeze of its span is in effect (R160). -/
def State.frozen (s : State) (c : Nat) : Bool :=
  match s.spanOf c with
  | some a => (match a.freeze with | some z => z.active | none => false)
  | none => false

/-- Whether a freeze of the core's span is in effect or due in this cycle (R160). -/
def State.freezeDue (s : State) (c : Nat) : Bool :=
  match s.spanOf c with
  | some a =>
    match a.freeze with
    | some z => z.active || decide (z.effect.toNat ≤ (s.core c).cyc.toNat)
    | none => false
  | none => false

/-- The skewed stamp of a command (R149). -/
def State.skewed (s : State) (c : Nat) (stamp : Word) : Word := stamp + BitVec.ofNat 32 (s.skew c)

/-! ## Dues (R230) -/

def Core.disarm (k : Core) : Core := { k with dues := k.dues.map fun d => (d.1, false), dueNext := [] }

/-- QDUE: it takes effect in the next tick (R230, R231). -/
def Core.armDue (k : Core) (e : Nat) (stamp : Word) : Core :=
  { k with dueNext := k.dueNext.filter (fun x => x.1 != e) ++ [(e, stamp)] }

/-- The dues that QDUE set in the tick that ends take effect, and their evaluation cycles are still to come (R231). -/
def Core.settleDues (k : Core) : Core :=
  k.dueNext.foldl (fun k x =>
    { k with dues := k.dues.setIfInBounds x.1 (x.2, true), dueSeen := k.dueSeen.filter fun y => y != x.1 }) { k with dueNext := [] }

/-- DUE_e as CC_DUEe shows it: the value last set by QDUE, and whether it is armed (Table: CC_DUE0 to CC_DUE3). -/
def Core.dueShown (k : Core) (e : Nat) : Word × Bool :=
  match k.dueNext.find? (fun x => x.1 == e) with
  | some x => (x.2, true)
  | none => k.dues.toList.getD e (0, false)

/-- Taking a command whose stamp is not earlier than DUE_e disarms it (R230). -/
def Core.takeDue (k : Core) (e : Nat) (stamp : Word) : Core :=
  match k.dues[e]? with
  | some (d, true) => if (stamp - d).toNat < 2 ^ 31 then { k with dues := k.dues.setIfInBounds e (d, false) } else k
  | _ => k

/-! ## Queues (R41, R227 to R229) -/

/-- Depth of an engine's queue (R229). -/
def queueDepth (e : Nat) : Nat := if e = 0 then 32 else if e = 3 then 16 else 64

def Core.queue (k : Core) (e : Nat) : EngQ := k.queues.toList.getD e EngQ.reset

def Core.setQueue (k : Core) (e : Nat) (q : EngQ) : Core := { k with queues := k.queues.setIfInBounds e q }

/-- Unit that a command takes: none for IDLE (R277), the array for MMA, the drain path for DRAIN, WLOAD and WSTORE (R130),
and one unit for each other engine. The cycle from which it is free. -/
def Core.unitFree (k : Core) (code e : Nat) : Reg :=
  if code = 0 then 0
  else if e = 0 then (if code = 1 then k.array.busyUntil else k.path.busyUntil)
  else if e = 1 then k.vec.busyUntil
  else if e = 2 then k.streamBusy
  else k.rsv.busyUntil

/-- The unit of a command as `EngQ.idle` numbers it. -/
def unitKind (code e : Nat) : Nat := if code = 0 then 2 else if e = 0 ∧ code ≠ 1 then 1 else 0

/-- Adds a cycle to the intervals of a unit; those that no stamp can name any more are dropped (R203). -/
def addIdle (l : List (Nat × Nat × Nat)) (u cyc : Nat) : List (Nat × Nat × Nat) :=
  let l := l.filter fun x => cyc < x.2.2 + 2 ^ 31
  if l.any (fun x => x.1 == u && x.2.2 + 1 == cyc) then
    l.map fun x => if x.1 = u ∧ x.2.2 + 1 = cyc then (u, x.2.1, cyc) else x
  else if l.any (fun x => x.1 == u && decide (x.2.1 ≤ cyc) && decide (cyc ≤ x.2.2)) then l
  else l ++ [(u, cyc, cyc)]

/-- Whether a queue is seen empty: as it was at the end of the tick before (R232). -/
def Core.seenEmpty (k : Core) (e : Nat) : Bool := (k.queue e).seen.isEmpty

/-- The units of an engine as `EngQ.idle` numbers them, with the cycle from which each is free. -/
def Core.units (k : Core) (e : Nat) : List (Nat × Reg) :=
  if e = 0 then [(0, k.array.busyUntil), (1, k.path.busyUntil), (2, 0)] else [(0, k.unitFree 0x10 e), (2, 0)]

/-- The units that are free in this cycle. -/
def Core.freeUnits (k : Core) (e : Nat) : List Nat :=
  ((k.units e).filter fun x => decide (x.2.toNat ≤ k.cyc.toNat)).map Prod.fst

/-- A cycle ends: for each engine whose queue is seen empty, the units that were free in it (R233). -/
def Core.noteIdle (k : Core) : Core :=
  (List.range 4).foldl (fun k e =>
    if k.seenEmpty e then
      let q := k.queue e
      k.setQueue e { q with idle := (k.freeUnits e).foldl (fun l u => addIdle l u k.cyc.toNat) q.idle }
    else k) k

/-- Whether a command that enters its queue now is late (R233): in the cycle in which its skewed stamp was reached the core
was not frozen, its unit was free, and its queue, as seen, held no command. -/
def State.lateNow (s : State) (c : Nat) (ws : List Word) : Bool :=
  let k := s.core c
  let e := cmdEng ws
  let stamp := s.skewed c (ws.getD 1 0)
  let ago := (k.cyc.setWidth 32 - stamp).toNat
  let u := unitKind (cmdCode ws) e
  if 2 ^ 31 ≤ ago then false
  else if ago = 0 then !s.freezeDue c && k.seenEmpty e && (k.freeUnits e).contains u
  else
    let t := k.cyc.toNat - ago
    (k.queue e).idle.any fun x => x.1 == u && decide (x.2.1 ≤ t) && decide (t ≤ x.2.2)

/-- Whether the descriptor cache holds a handle of a queue (R289). -/
def dcHas (d : List DEntry) (q h : Nat) : Bool := d.any fun e => e.hq == q && e.handle == h

/-- Pins a handle that the cache holds. -/
def dcPin (d : List DEntry) (q h : Nat) : List DEntry :=
  d.map fun e => if e.hq = q ∧ e.handle = h then { e with pins := e.pins + 1 } else e

/-- Unpins a handle. -/
def dcUnpin (d : List DEntry) (q h : Nat) : List DEntry :=
  d.map fun e => if e.hq = q ∧ e.handle = h then { e with pins := e.pins - 1 } else e

/-- Entries that can leave the cache: those without a pin (R289). -/
def dcLoose (d : List DEntry) : List DEntry := d.filter fun e => e.pins = 0

def sxDcache (c : Nat) : Nat := cw c 0x81808

/-- Whether the cache can take every handle of a command (R289). -/
def dcFits (d : List DEntry) (q : Nat) (hs : List Nat) : Bool :=
  let new := (hs.foldl insertNat []).filter fun h => !dcHas d q h
  let kept := (dcLoose d).filter fun e => !(e.hq = q && hs.contains e.handle)
  decide (d.length + new.length ≤ 256 + kept.length)

/-- Starts the fetch of one handle: a held or outstanding entry counts as a hit, another as a miss; where the cache is
full an unpinned entry leaves, chosen by a free value (R289; log 12). -/
def State.dcFetch (s : State) (c q : Nat) (hs : List Nat) (h : Nat) : State :=
  let k := s.core c
  if dcHas k.dcache q h then
    (s.setCore c { k with dcache := dcPin k.dcache q h }).addFld (sxDcache c) 0 32 1
  else
    let s := s.addFld (sxDcache c) 32 32 1
    let e : DEntry := { hq := q, handle := h, desc := none, pins := 1 }
    if k.dcache.length < 256 then s.setCore c { k with dcache := k.dcache ++ [e] }
    else
      let loose := (dcLoose k.dcache).filter fun x => !(x.hq = q && hs.contains x.handle)
      let (v, s) := s.freeVal 32
      match loose[v % loose.length]? with
      | some x => s.setCore c { k with dcache := k.dcache.filter (fun y => !(y.hq = x.hq && y.handle = x.handle)) ++ [e] }
      | none => s

/-- Appends a command to its queue; its descriptors' fetches start (R227, R289). -/
def State.enqueue (s : State) (c : Nat) (cmd : QCmd) : State :=
  let e := cmdEng cmd.words
  let late := s.lateNow c cmd.words
  let hs := cmdHandles cmd.words
  let s := hs.foldl (fun s h => s.dcFetch c (s.coreHq c) hs h) s
  s.modCore c fun k =>
    let q := k.queue e
    k.setQueue e { q with cmds := q.cmds ++ [{ cmd with late := late && !cmd.implicit }], fresh := q.fresh + 1 }

/-- Whether a command finds a queue entry and cache entries free (R227, R289). -/
def State.pushFits (s : State) (c : Nat) (ws : List Word) : Bool :=
  let k := s.core c
  let e := cmdEng ws
  decide ((k.queue e).cmds.length < queueDepth e) && dcFits k.dcache (s.coreHq c) (cmdHandles ws)

/-- The implicit wait that STEP places in a queue (R241): an IDLE of the engine that waits on the step flag. -/
def implicitWait (e : Nat) (stamp : Word) : QCmd :=
  { words := [BitVec.ofNat 32 (e * 2 ^ 8 + 2 ^ 10), stamp, 1, 0, 0, 0, 0, 0], late := false, implicit := true }

/-! ## Stops of a control core -/

def ccFault (c : Nat) : Nat := cw c 0x80030

/-- Latches a consumption: the first to reach the steward kills the job (R322, R325). `core` is 1,024 for none. -/
def State.latchKill (s : State) (j kind core flow addr : Nat) : State :=
  if j = 0 then s
  else s.modJob j fun x =>
    match x.killLatch with
    | none => { x with killLatch := some (kind, core, flow, addr) }
    | some _ => x

/-- A core's implicit waits leave their queues (R241, R243, R244, R250). -/
def Core.dropImplicit (k : Core) : Core :=
  { k with queues := k.queues.map fun q => { q with cmds := q.cmds.filter fun x => !x.implicit } }

/-- The control cores of a span halt, each at its next instruction boundary: one that waits ends its wait first; a STEP that
waits can have no outcome any more, since its span never arrives, and halts at once (R250, 05 R146). -/
def Core.haltSoon (k : Core) : Core :=
  let k := k.disarm
  match k.stall with
  | .none => { k with mode := .halted }
  | .held => { k with mode := .halted, stall := .none }
  | .stepOver => { k.dropImplicit with mode := .halted, stall := .none }
  | .stepPlace _ _ => { k.dropImplicit with mode := .halted, stall := .none }
  | .stepWait _ => { k.dropImplicit with mode := .halted, stall := .none }
  | _ => { k with haltNext := true }

/-- A fetched word whose tag differs from EPOCH (R250). -/
def State.epochFault (s : State) (c : Nat) (tag : BitVec 16) : State :=
  let k := s.core c
  let pc := k.pc.toNat
  let s := s.setReg (ccFault c) (BitVec.ofNat 64 (pc + tag.toNat * 2 ^ 16 + 2 ^ 32))
  let members := match s.spanOf c with | some a => a.members | none => [c]
  let first := match s.spanOf c with | some a => a.fault.isNone | none => true
  let s := members.foldl (fun s m => s.modCore m Core.haltSoon) s
  let span := match k.launch with | some l => l.span | none => 0
  let s := { s with active := s.active.map fun a => if a.holds c && a.fault.isNone then { a with fault := some pc } else a }
  if first then
    let h := { s.coreHead 2 1 c with core := none }
    s.post h [(8, span), (14, pc), (16, tag.toNat), (16, k.epoch.toNat)]
  else s

/-- Whether a control core can issue: it fetches and does not wait. -/
def State.canIssue (s : State) (c : Nat) : Bool :=
  s.hasCore c && (match (s.core c).mode with | .running => true | _ => false) &&
    (match (s.core c).stall with | .none => true | _ => false)

/-- The word at PC with its tag (R247). -/
def State.fetched (s : State) (c : Nat) : Word × BitVec 16 := mget (s.core c).imem (0, 0) (s.core c).pc.toNat

/-- Issue of an instruction: the fetched word must carry the launch's epoch (R250) and be the instruction that the command
names; otherwise the event does not happen (log 1). -/
def State.issue (s : State) (c : Nat) (named : Word → Bool) (eff : Core → State) : State :=
  if s.canIssue c then
    let (w, tag) := s.fetched c
    if tag ≠ (s.core c).epoch ∨ tag = 0 then s.epochFault c tag
    else if named w then eff (s.core c)
    else s
  else s

/-- Format A with every field used. -/
def isA (op : Nat) (rd ra rb : BitVec 5) (func : BitVec 11) (w : Word) : Bool :=
  iwOp w = op && iwRd w = rd.toNat && iwRa w = ra.toNat && iwRb w = rb.toNat && iwFunc w = func.toNat

/-- Format I with every field used. -/
def isI (op : Nat) (rd ra : BitVec 5) (imm : BitVec 16) (w : Word) : Bool :=
  iwOp w = op && iwRd w = rd.toNat && iwRa w = ra.toNat && iwImm w = imm.toNat

/-- Format Q with rd, ra and imm used. -/
def isQ (op : Nat) (rd ra : BitVec 5) (imm : BitVec 14) (w : Word) : Bool :=
  iwOp w = op && iwRd w = rd.toNat && iwRa w = ra.toNat && iwQimm w = imm.toNat

/-- Issue of an instruction that only changes its core and goes on to the next word. -/
def State.issueCore (s : State) (c : Nat) (named : Word → Bool) (f : Core → Core) : State :=
  s.issue c named fun k => s.setCore c (f k).advance

/-- The end of a wait: the core goes on, or halts when its span met an epoch fault meanwhile (R250). -/
def Core.resume (k : Core) : Core :=
  if k.haltNext then { k with stall := .none, haltNext := false, mode := .halted } else { k with stall := .none }

/-! ## ALU (R209, R210) -/

/-- A shift amount, clamped to 63 (R210). -/
def shamt (b : Reg) : Nat := min b.toNat 63

def mulHighS (a b : Reg) : Reg := BitVec.ofInt 64 (a.toInt * b.toInt / 2 ^ 64)
def mulHighU (a b : Reg) : Reg := BitVec.ofNat 64 (a.toNat * b.toNat / 2 ^ 64)

/-- Table: ALU functions. -/
def aluOp (func : Nat) (a b : Reg) : Reg :=
  match func with
  | 0 => a + b
  | 1 => a - b
  | 2 => a &&& b
  | 3 => a ||| b
  | 4 => a ^^^ b
  | 5 => a &&& ~~~b
  | 6 => a <<< shamt b
  | 7 => a >>> shamt b
  | 8 => a.sshiftRight (shamt b)
  | 9 => a * b
  | 10 => mulHighS a b
  | 11 => mulHighU a b
  | 12 => if a.slt b then a else b
  | 13 => if a.slt b then b else a
  | 14 => if a < b then a else b
  | _ => if a < b then b else a

/-- The comparisons of R212. -/
def cmpOp (cond : Nat) (a b : Reg) : Bool :=
  match cond with
  | 0 => a = b
  | 1 => a ≠ b
  | 2 => a.slt b
  | 3 => !a.slt b
  | 4 => a < b
  | _ => !decide (a < b)

/-- Table of R213's conditions. -/
def cmpiOp (cond : BitVec 2) (a b : Reg) : Bool :=
  match cond.toNat with
  | 0 => a = b
  | 1 => a ≠ b
  | 2 => a.slt b
  | _ => a < b

/-! ## Pond loads and stores (R215) -/

/-- Address of a load or store of `z` bytes. -/
def pondAddr (base : Reg) (imm : BitVec 16) (z : Nat) : Nat :=
  let a := (base + sext imm).toNat
  a - a % z

/-- Value that a load reads. -/
def loadValue (m : Mem) (a z : Nat) (signed : Bool) : Reg :=
  let v := if 196608 ≤ a then 0 else leNat (m.read a z)
  if signed then BitVec.ofInt 64 (signedOf (8 * z) v) else BitVec.ofNat 64 v

/-- The pond as the control core sees it: with its own stores that engine reads do not see yet (R216). -/
def Core.view (k : Core) : Mem := k.stores.foldl (fun m x => m.write x.2.1 x.2.2) k.pond

/-- A load: poisoned data stops the core, which disarms its dues, and consumes (R218, R230). -/
def State.load (s : State) (c : Nat) (named : Word → Bool) (rd ra : BitVec 5) (imm : BitVec 16) (z : Nat) (signed : Bool) :
    State :=
  s.issue c named fun k =>
    let a := pondAddr (k.rg ra) imm z
    if a < 196608 && k.pond.badRange a z then
      let s := s.setReg (ccFault c) (BitVec.ofNat 64 (k.pc.toNat + 2 * 2 ^ 32))
      let s := s.setCore c { k.disarm.advance with mode := .poisoned }
      s.latchKill (s.coreJob c) 0 c 0 (cw c a)
    else s.setCore c (k.setG rd (loadValue k.view a z signed)).advance

/-- A store; it is never poisoned, and clears a mark where it covers a granule whole, which no store does (R218, R301). Engine
reads see it from the second core clock tick after it issues (R216). -/
def State.store (s : State) (c : Nat) (named : Word → Bool) (rd ra : BitVec 5) (imm : BitVec 16) (z : Nat) : State :=
  s.issueCore c named fun k =>
    let a := pondAddr (k.rg ra) imm z
    if a < 196608 then { k with stores := k.stores ++ [(s.ticks, a, leBytes z (k.rg rd).toNat)] } else k

/-- The stores that engine reads see in tick `t` enter the pond (R216). -/
def Core.settleStores (k : Core) (t : Nat) : Core :=
  { k with pond := (k.stores.filter fun x => x.1 + 2 ≤ t).foldl (fun m x => m.write x.2.1 x.2.2) k.pond,
           stores := k.stores.filter fun x => decide (t < x.1 + 2) }

/-- Every store of a core enters the pond. -/
def Core.flushStores (k : Core) : Core := { k with pond := k.view, stores := [] }

/-! ## Flags (R238, R365) -/

def flagNumber (base : Reg) (imm : BitVec 14) : Nat := (base.toNat + imm.toNat) % 64

def Core.flag (k : Core) (n : Nat) : Bool := k.flags.getLsbD n

/-- A flag with a value. -/
def Core.putFlag (k : Core) (n : Nat) (b : Bool) : Core :=
  { k with flags := (k.flags &&& ~~~(1#64 <<< n)) ||| (if b then 1#64 <<< n else 0) }

/-- A set or a clear of a flag by any source but the stream engine, or a consume: a clear, or a consume by any engine, in the tick of a
set leaves the flag set (R238, R366). -/
def Core.setFlag (k : Core) (n : Nat) (b : Bool) : Core :=
  if b then { k.putFlag n true with setNow := k.setNow ||| 1#64 <<< n }
  else if (k.setNow ||| k.setStream).getLsbD n then k
  else k.putFlag n false

/-- A set or a clear of a flag by command `id` of the stream engine: of its actions on one flag in a tick the one that is later in
queue order acts last (R275), and a set by another source stands (R366). -/
def Core.streamFlag (k : Core) (id n : Nat) (b : Bool) : Core :=
  if k.acted.any fun x => x.1 == n && decide (id < x.2) then k
  else
    let k := { k with acted := (n, id) :: k.acted.filter fun x => x.1 != n }
    if b then { k.putFlag n true with setStream := k.setStream ||| 1#64 <<< n }
    else
      let k := { k with setStream := k.setStream &&& ~~~(1#64 <<< n) }
      if k.setNow.getLsbD n then k else k.putFlag n false

/-- The next number in the start order of the stream engine's commands (R275). -/
def Core.nextId (k : Core) : Core := { k with nextXfer := k.nextXfer + 1 }

/-- Object of CTRADD, CTRWAIT, SLARR and SLWAIT (R239). -/
def syncObject (base : Reg) (func : BitVec 11) : Nat := (base.toNat + func.toNat) % 16384

end Sys2Proof.Machine
end

