-- ==== Sys2Proof/Machine/Rails.lean ====
section
/-! DEFINITION. Currents of the rails of the core supply and the governor's service of a unit (15_faults_sparing R501 to R503; 17 R552;
02 R58 to R60): what spans and cores under self-test draw, counted in sixteenths of a milliampere, and the stretch of a span. -/

namespace Sys2Proof.Machine

open Sys2Proof

def pmGovCfg : Nat := 0x8100100100
def pmGovStat : Nat := 0x8100100108
def pmRail (r : Nat) : Nat := 0x8100100140 + 8 * r
def pmStatus : Nat := 0x8100100000

/-- Changes the active span with a corner: no two active spans share one (R146). -/
def State.modSpan (s : State) (n : Nat) (f : ActiveSpan → ActiveSpan) : State :=
  { s with active := s.active.map fun a => if a.corner = n then f a else a }

/-! ## Stretch (R58 to R60) -/

/-- The setting that the requests of a span give: the smallest n (R60). -/
def State.stretchNow (s : State) (corner : Nat) : Nat :=
  min (mget s.governor 16 corner) (min (s.fld pmStatus 0 5) (s.fld pmStatus 5 5))

/-- The requests apply to every span; one that is frozen takes its setting when the freeze ends (R59). -/
def State.applyStretch (s : State) : State :=
  { s with active := s.active.map fun a =>
             if (match a.freeze with | some z => z.active | none => false) then a else { a with stretch := s.stretchNow a.corner } }

/-- Current of `m` cores at the governor's setting `n` (R501): the smallest request applies. -/
def State.drawOf (s : State) (m n : Nat) : Nat :=
  m * s.fld pmGovCfg 8 12 * min n (min (s.fld pmStatus 0 5) (s.fld pmStatus 5 5))

/-! ## Spans -/

/-- Cores of a span on rail `r`, which serves rows 4r to 4r + 3 (R501). -/
def ActiveSpan.railCores (a : ActiveSpan) (r : Nat) : Nat :=
  a.w * ((List.range 4).filter fun i => a.y0 ≤ 4 * r + i && 4 * r + i < a.y0 + a.h).length

/-- Whether a span draws current: it is not frozen. -/
def ActiveSpan.running (a : ActiveSpan) : Bool := match a.freeze with | some z => !z.active | none => true

/-- The governor's n of a span. -/
def State.govN (s : State) (a : ActiveSpan) : Nat := mget s.governor 16 a.corner

/-- Current that a span draws on a rail at the governor's setting `n`. -/
def State.draw (s : State) (a : ActiveSpan) (r n : Nat) : Nat := s.drawOf (a.railCores r) n

/-! ## Cores under self-test (R552) -/

/-- Whether stage 3 is in progress. -/
def State.testing (s : State) : Bool :=
  s.power.rails && decide (s.fld fwStatus 8 1 = 0) && decide (s.fld fwStatus 0 3 = 3) && !s.firm.recovery

/-- Interval of stage 3 in which the self-test of physical core `p` starts: its wave's, 50 µs apart. -/
def bistStart (p : Nat) : Nat := 50 * (p / 72)

/-- Whether a core is tested (R562), and its test has begun and been admitted. -/
def State.underTest (s : State) (p : Nat) : Bool :=
  s.testing && decide (bistStart p < s.firm.bistTicks) && !s.fuses.marks p

/-- The governor's n of a core under test. -/
def State.bistN (s : State) (p : Nat) : Nat := mget s.governor 16 (2048 + p)

/-- Cores under test on rail `r`. -/
def State.testedOn (s : State) (r : Nat) : List Nat :=
  if s.testing then ((List.range 144).map fun i => 144 * r + i).filter s.underTest else []

/-! ## Rails -/

/-- Admitted current of a rail: a unit that freezes or ends draws none at once (R501, R503). -/
def State.railLoad (s : State) (r : Nat) : Nat :=
  (s.active.map fun a => if a.running then s.draw a r (s.govN a) else 0).foldl (· + ·) 0 +
    ((s.testedOn r).map fun p => s.drawOf 1 (s.bistN p)).foldl (· + ·) 0

def State.railLoads (s : State) : List Nat := (List.range 8).map s.railLoad

/-! ## The governor (R502 to R504) -/

/-- The allowance of each rail in the interval that runs (R502). -/
def State.allowance (s : State) : List Nat := s.power.railEnd.map fun x => x + s.fld pmGovCfg 0 8 * 16000

/-- The largest n from 2 to 16 that keeps every rail on which a unit has cores within its allowance; 2 where none does (R502). -/
def State.govFit (s : State) (cores : Nat → Nat) (loads allow : List Nat) : Nat :=
  match ((List.range 15).map fun i => 16 - i).find? (fun n =>
      (List.range 8).all fun r => cores r = 0 || loads.getD r 0 + s.drawOf (cores r) n ≤ allow.getD r 0) with
  | some n => n
  | none => 2

/-- Serves one unit, with its number of cores on each rail: its load is counted anew at its new setting; n = 16 releases the
request, and a unit that wakes below it counts in HOLDS (R502 to R504). -/
def govUnit (key : Nat) (cores : Nat → Nat) (waking : Bool) (allow : List Nat) (x : State × List Nat) : State × List Nat :=
  let (s, loads) := x
  let old := mget s.governor 16 key
  let base := (List.range 8).map fun r => loads.getD r 0 - (if waking then 0 else s.drawOf (cores r) old)
  let n := s.govFit cores base allow
  let new := (List.range 8).map fun r => base.getD r 0 + s.drawOf (cores r) n
  let s := if waking && n < 16 then s.addFld pmGovStat 0 32 1 else s
  ({ s with governor := if n = 16 then mdel s.governor key else mput s.governor key n }, new)

/-- A span wakes: a launch starts it, or its freeze ends. The governor gives it its setting at once, out of what the interval's
allowance leaves, so that it applies from the span's first cycle (R59, R501 to R503; log 39). -/
def State.wake (s : State) (corner : Nat) : State :=
  match s.active.find? (fun a => a.corner = corner) with
  | none => s
  | some a =>
    let others : State := { s with active := s.active.filter fun b => b.corner != corner }
    let s := (govUnit corner a.railCores true s.allowance (s, others.railLoads)).1
    s.modSpan corner fun b => { b with stretch := s.stretchNow corner }

end Sys2Proof.Machine
end

