-- ==== Sys2Proof/Machine/Steps.lean ====
section
/-! DEFINITION. Steps of a job on the module: step shadow, abort and repeat, attempt markers, parks, kills, and the delivery
of frames that stay on the module (07 R241 to R246; 13 R445 to R448; 09 R322 to R326; 15 R497). -/

namespace Sys2Proof.Machine

open Sys2Proof

def rvChanBase (c ch : Nat) : Nat := cw c (0x82500 + 16 * ch)
def rvChan (c ch : Nat) : Nat := cw c (0x82508 + 16 * ch)
def sxFp (c n : Nat) : Nat := cw c (0x81880 + 8 * n)
def sxFpPoison (c : Nat) : Nat := cw c 0x81818
def ccCount (c k : Nat) : Nat := cw c (0x80060 + 8 * k)

/-! ## Spans and cores of a job -/

def State.jobSpans (s : State) (j : Nat) : List ActiveSpan := s.active.filter fun a => a.job == j

def State.jobCores (s : State) (j : Nat) : List Nat := (s.jobSpans j).flatMap ActiveSpan.members

/-! ## Rows that shift (R43, R491, R494) -/

/-- Physical cores have the number y·36 + x here; the row map of R43 as data: fenced by fuse, BIST or in the field. -/
def State.fencedPhys (s : State) (p : Nat) : Bool :=
  s.fuses.marks p || s.firm.bist.contains p || s.fencedField.contains p

/-- Usable columns of a physical row, ascending. -/
def State.usable (s : State) (y : Nat) : List Nat := (List.range 36).filter fun x => !s.fencedPhys (y * 36 + x)

/-- The physical core of a logical core: column x sits on the x-th usable column of its row (R43). -/
def State.physOf (s : State) (c : Nat) : Nat :=
  let y := c / 32
  y * 36 + (s.usable y).getD (c % 32) 35

/-- Whether a job has a core in a row. -/
def State.jobInRow (s : State) (j y : Nat) : Bool := (s.jobCores j).any fun c => c / 32 == y

/-- Whether a job has a core in the last logical column. -/
def State.jobInLast (s : State) (j : Nat) : Bool := (s.jobCores j).any fun c => c % 32 + 1 == s.width

/-- Whether fencing some cores of a row leaves it fewer than the width (R494). -/
def State.fenceNarrows (s : State) (y : Nat) (ps : List Nat) : Bool := decide ((s.usable y).length < s.width + ps.length)

/-- Whether a row shift keeps a logical core where it is: its row shifts, or the width falls and it stands in the last column (R44,
R493, R494). -/
def State.shiftBars (s : State) (c : Nat) : Bool :=
  s.fences.any fun f =>
    f.shifting && (f.row == c / 32 || (f.narrow && s.fenceNarrows f.row f.fenced && c % 32 + 1 == s.width))

/-! ## The step shadow (R200, R287, R342, R367) -/

def State.takeShadow (s : State) (c : Nat) : State :=
  let k := s.core c
  let h : Shadow :=
    { g := k.g, p := k.p, c := k.c, lc := k.lc, loops := k.loops, pc := k.pc, cyc := k.cyc, flags := k.flags,
      depths := (List.range 32).map fun ch => s.fld (rvChan c ch) 32 32,
      fps := (List.range 16).map fun n => s.reg (sxFp c n),
      fpPoison := s.reg (sxFpPoison c) }
  s.setCore c { k with shadow := h }

/-- The idle intervals that lie before a cycle. -/
def idleBefore (l : List (Nat × Nat × Nat)) (cyc : Nat) : List (Nat × Nat × Nat) :=
  (l.filter fun x => decide (x.2.1 < cyc)).map fun x => (x.1, x.2.1, min x.2.2 (cyc - 1))

/-- Restores a core at a repeat: registers, flags, depths and fingerprints; the queues are empty (R244, R287, R343, R367). CYC goes
back, so no due has passed its evaluation cycle, and what the queues were seen to be before the step's entry stands (R231,
R233). -/
def State.restoreCore (s : State) (c : Nat) : State :=
  let k := s.core c
  let h := k.shadow
  let s := s.setCore c { k with g := h.g, p := h.p, c := h.c, lc := h.lc, loops := h.loops, pc := h.pc, cyc := h.cyc,
                                flags := h.flags, stepFlag := false, stall := .none, haltNext := false,
                                mode := .running, dueSeen := [], queues := k.queues.map fun q => { EngQ.reset with idle := idleBefore q.idle h.cyc.toNat } }
  let s := (List.range 32).foldl (fun s ch => s.setFld (rvChan c ch) 32 32 (h.depths.getD ch 0)) s
  let s := (List.range 16).foldl (fun s n => s.setReg (sxFp c n) (h.fps.getD n 0)) s
  s.setReg (sxFpPoison c) h.fpPoison

/-! ## Stopping the engines of a core (R245, R326; Table: Step abort on one module) -/

/-- What a stopped command of the drain path or the reservoir engine has written of its tile: a part that a free value chooses
(R245). A vector command has written the groups whose write cycles have come, and no other (R171). -/
def State.partialWrite (s : State) (c : Nat) (r : Run) : State :=
  let cs := r.write.cells
  if cs.isEmpty then s
  else
    let (v, s) := s.freeVal (cs.length + 1)
    let kept := ((List.range cs.length).zip cs).filter fun x => bitOf v x.1
    s.pondApply c { cells := kept.map Prod.snd, bad := if bitOf v cs.length then r.write.bad else [] }

/-- The parts of a bank, as rows and columns, that commands in flight write: MMAs, and a WLOAD. -/
def Core.writing (k : Core) (n : Nat) : List (Nat × Nat) :=
  ((k.array.runs ++ k.path.runs).filter fun r => r.bank == n && (r.code == 1 || r.code == 3)).map fun r => (r.rows, r.cols)

/-- The copybook levels of an element with free numbers: those that are occupied, and the first, so that its total is free
whatever its count of products (R357, R358). -/
def freeLevels (seed : Nat) (lev : List (Option (BitVec 32))) : List (Option (BitVec 32)) :=
  some (Config.freeBits 32 seed) ::
    (lev.drop 1).zipIdx.map fun x => x.1.map fun _ => Config.freeBits 32 (seed + 2304 * (x.2 + 1))

/-- A bank while commands write it: the numbers of the elements that they write are free values (R29, R245). The marks of those
elements (special state, SAT, GRID, over, poison) are the ones that the commands whose operands have been read leave: DESIGN
CHOICE, no rule says which of them a part of a command has made (log 6). -/
def State.freeBank (s : State) (b : Bank) (parts : List (Nat × Nat)) : Bank × State :=
  if parts.isEmpty then (b, s)
  else
    let keys := (List.range 2304).filter fun e => parts.any fun x => decide (e / 48 < x.1) && decide (e % 48 < x.2)
    let f := fun (b : Bank) (e : Nat) =>
      { b with elems := mput b.elems e { mget b.elems Elem.zero e with
          n := Config.freeBits 160 (s.freeCtr + e), acc := Config.freeBits 32 (s.freeCtr + 2304 + e),
          lev := freeLevels (s.freeCtr + 4608 + e) (mget b.elems Elem.zero e).lev } }
    (keys.foldl f b, { s with freeCtr := s.freeCtr + 4608 + 2304 * 33 })

/-- The engines of a core stop at once: queues are discarded, writes made stay, transfers are dropped. -/
def State.stopUnits (s : State) (c : Nat) : State :=
  let k := s.core c
  let s := s.modCore c Core.flushStores
  let s := (k.path.runs ++ k.rsv.runs).foldl (fun s r => s.partialWrite c r) s
  let (b0, s) := s.freeBank k.bank0 (k.writing 0)
  let (b1, s) := s.freeBank k.bank1 (k.writing 1)
  let s := s.modCore c fun k =>
    { k with queues := k.queues.map fun q => { EngQ.reset with idle := q.idle }, array := EUnit.reset,
             path := EUnit.reset, vec := EUnit.reset, rsv := EUnit.reset, streamBusy := 0, xfers := [], nextXfer := 0,
             scanSeq := 0, records := [], bank0 := { b0 with inflight := 0 }, bank1 := { b1 with inflight := 0 },
             mmaSeq := 0, pathSeq := 0,
             dcache := k.dcache.map (fun e => { e with pins := 0 }), staged := [], rsvOverflow := false,
             stall := .none, haltNext := false }
  { s with colls := s.colls.filter fun x => x.core != c }

/-- The operand network of a span is emptied and its freeze forgotten. -/
def ActiveSpan.cleared (a : ActiveSpan) : ActiveSpan :=
  { a with freeze := none, waves := [], drains := [], blockMax := [], scans := [] }

/-- Step 1 of Table: Step abort on one module. -/
def State.stopJob (s : State) (j : Nat) : State :=
  let s := (s.jobCores j).foldl (fun s c => s.stopUnits c) s
  let s := { s with active := s.active.map fun (a : ActiveSpan) => if a.job = j then a.cleared else a,
                    collDone := s.collDone.filter fun e => s.fld (fbCcfg e.2.chan) 36 6 != j,
                    collCfg := s.collCfg.filter fun e => bitsOf e.2.toNat 36 6 != j }
  s.modJob j fun x => { x with exchange := none, colls := [] }

/-- Whether a freeze of the span is in effect. -/
def ActiveSpan.frozen (a : ActiveSpan) : Bool := match a.freeze with | some z => z.active | none => false

/-- Step 1 of Table: Step abort on one module where the step is repeated: the spans whose freeze ends with it wake (R501). -/
def State.stopToRepeat (s : State) (j : Nat) : State :=
  ((s.jobSpans j).filter ActiveSpan.frozen).foldl (fun s a => s.wake a.corner) (s.stopJob j)

/-! ## Sequence numbers of collective channels (R423) -/

/-- The next sequence number of a member on a channel. Key chan·2048 + 1024 holds the number below which none is used
again; an exchange moves it. -/
def State.chanSeq (s : State) (ch c : Nat) : Nat :=
  max (mget s.collSeq 0 (ch * 2048 + c)) (mget s.collSeq 0 (ch * 2048 + 1024))

/-- The next sequence number of the commit exchange: past every member's COLLs (R508). -/
def State.exchangeSeq (s : State) (ch : Nat) : Nat :=
  s.collSeq.foldl (fun m e => if e.1 / 2048 = ch then max m e.2 else m) 0

def State.chanJob (s : State) (ch : Nat) : Nat := s.fld (fbCcfg ch) 36 6

/-! ## Markers and flows of a job -/

/-- The live flows of a job, ascending. -/
def State.jobFlows (s : State) (j : Nat) : List Nat :=
  (s.flows.map Prod.fst).filter fun f => s.flowLive f && s.flowJob f == j

/-- An attempt marker (R446). -/
def markerFlit (blame step attempt : Nat) : Flit := tokenFlit (blame % 2 ^ 13) false 0xFF step attempt

/-- Step 3: a marker on every open flow of the job, behind the frames already queued. -/
def State.sendMarkers (s : State) (j blame attempt : Nat) : State :=
  let step := s.jobStep j
  (s.jobFlows j).foldl (fun s f => s.flowQueue f [markerFlit blame step attempt] none) s

/-- What arrived on the job's flows before a new attempt belongs to an aborted one and is discarded, but for what came behind a
marker of that attempt (R447); checkpoint flows carry nothing of an attempt (R520). -/
def State.purgeFlows (s : State) (j : Nat) : State :=
  (s.jobFlows j).foldl (fun s f =>
    let s := if s.staleFlow f then s.clearRx f else s
    s.modFlow f fun x => { x with heard := !x.rx.isEmpty, latePosted := false }) s

/-- Step 4: what a repeat restores; the cores of a span that met an epoch fault stay halted (R250). -/
def State.restoreJob (s : State) (j : Nat) : State :=
  let s := (s.jobCores j).foldl (fun s c => s.restoreCore c) s
  let faulted := ((s.jobSpans j).filter fun (a : ActiveSpan) => a.fault.isSome).flatMap ActiveSpan.members
  let s := faulted.foldl (fun s c => s.modCore c fun k => { k.disarm with mode := .halted }) s
  (s.restoreObjs j).cancelWaits j

/-! ## Holds and parks -/

def State.addHold (s : State) (j : Nat) (h : Hold) : State :=
  s.modJob j fun x => if x.holds.contains h then x else { x with holds := x.holds ++ [h] }

/-- Whether a job's spans stay where they are. -/
def State.held (s : State) (j : Nat) : Bool := !(s.job j).holds.isEmpty

/-- The conditions of a freeze have cleared (R162). -/
def ActiveSpan.thaw (a : ActiveSpan) (tick : Nat) : ActiveSpan :=
  { a with freeze := a.freeze.map fun z => { z with conds := [], clearTick := some tick } }

/-- A core goes on from a step boundary: the step flag is set, and the implicit waits leave; where its span freezes it goes on
when the freeze ends (R162, R241, R242). -/
def Core.leaveStep (k : Core) (frozen : Bool) : Core :=
  let k := k.dropImplicit
  if frozen then { k with stall := .stepOver, stepFlag := true } else { k with stall := .none, stepFlag := false }

/-- Ends the step wait of a core that goes on when the freeze of its span ends. -/
def Core.stepOn (k : Core) : Core :=
  match k.stall with
  | .stepOver => if k.stepFlag then { k with stall := .none, stepFlag := false } else k
  | _ => k

/-- The outcome of a STEP has come, before its core goes on (R243, R509). -/
def Core.outcome (k : Core) : Core := match k.stall with | .stepWait _ => { k with stall := .stepOver } | _ => k

/-- The spans of a job resume from a boundary. -/
def State.resumeJob (s : State) (j : Nat) : State :=
  (s.jobSpans j).foldl (fun s a =>
    let s := a.members.foldl (fun s c => s.modCore c fun k =>
      match k.stall with
      | .stepWait _ => k.leaveStep a.freeze.isSome
      | .stepOver => k.leaveStep a.freeze.isSome
      | .held => { k with stall := .none, stepFlag := false }
      | _ => k) s
    s.modSpan a.corner fun a => a.thaw s.ticks) s

/-- Ends one reason to hold; the spans resume when none is left, unless a row of theirs shifts: then they hold for it (R44, R493). -/
def State.dropHold (s : State) (j : Nat) (h : Hold) : State :=
  if (s.job j).holds.contains h then
    let s := s.modJob j fun x => { x with holds := x.holds.filter fun y => y != h }
    if s.held j then s
    else if (s.jobCores j).any s.shiftBars then s.addHold j .fence
    else s.resumeJob j
  else s

def State.setParked (s : State) (j blame : Nat) : State :=
  (s.setFld (fbJobpol j) 32 13 blame).setFld (fbJobpol j) 45 1 1

/-- Orphaned: at the boundary, until RESUME; the event names the committed step (R477, R478). -/
def State.orphan (s : State) (j : Nat) : State :=
  let s := (s.addHold j .orphaned).modJob j fun x => { x with lapsing := false, lapseCk := false }
  s.post { s.jobHead 0x51 1 j with step := s.jobStep j - 1 } []

/-- The cores of a job stand at the entry of the step that a repeat restored; no STEP has issued there (R448). -/
def State.stand (s : State) (j : Nat) : State :=
  (s.jobCores j).foldl (fun s c => s.modCore c fun k => { k with stall := .held }) s

/-- A park (R448): PARKED, the event; a job parked while its lease has lapsed is orphaned at once (R477). -/
def State.park (s : State) (j blame step : Nat) : State :=
  let s := s.stand j
  let s := (s.setParked j blame).addHold j .parked
  let h := { s.jobHead 0x33 1 j with step := step }
  let s := s.post h [(13, blame), (1, s.fld (fbJobpol j) 3 1)]
  if (s.job j).lapsing then s.orphan j else s

/-- The end of a park: PARKED 0, ATTEMPT 0, every marker record of the job's flows cleared (R448). -/
def State.endPark (s : State) (j : Nat) : State :=
  let s := (s.setFld (fbJobpol j) 45 1 0).setFld (fbJobpol j) 16 16 0
  ((s.flows.map Prod.fst).filter fun f => s.flowJob f = j).foldl (fun s f => s.modFlow f fun x => { x with marker := none }) s

/-- The end of a park of a job that other reasons still hold. -/
def State.unpark (s : State) (j : Nat) : State :=
  (s.endPark j).modJob j fun x => { x with holds := x.holds.filter fun h => h != .parked }

/-- A step abort (R445, R448). `marker` is the attempt of the marker that causes it. A pending kill takes precedence; while
the dispatcher is down the abort waits, and of several that wait the one to the highest attempt stands (R445, R574). -/
def State.abortJob (s : State) (j blame : Nat) (marker : Option Nat) : State :=
  if (s.jobSpans j).isEmpty || (s.job j).killLatch.isSome || (s.job j).holds.contains .parked then s
  else if !s.roleUp 4 then
    let names := fun (m : Option Nat) => m.getD (s.jobAttempt j + 1)
    s.modJob j fun x =>
      match x.abortDue with
      | some (_, old) => if names old < names marker then { x with abortDue := some (blame, marker) } else x
      | none => { x with abortDue := some (blame, marker) }
  else
    let step := s.jobStep j
    let new := match marker with | some a => a | none => s.jobAttempt j + 1
    let s := s.stopToRepeat j
    if s.fld (fbJobpol j) 0 3 < new then
      let s := s.sendMarkers j blame new
      (s.restoreJob j).park j blame step
    else
      let s := (s.setFld (fbJobpol j) 16 16 new).setFld (fbJobpol j) 32 13 blame
      let s := s.post { s.jobHead 0x32 1 j with step := step } [(16, new), (13, blame)]
      let s := s.sendMarkers j blame new
      let s := (s.restoreJob j).purgeFlows j
      if s.held j then s.stand j else s

/-- A park from inside the commit exchange: steps 1 and 4, no marker, ATTEMPT unchanged (R448, R510). -/
def State.parkExchange (s : State) (j blame : Nat) : State :=
  let step := s.jobStep j
  ((s.stopToRepeat j).restoreJob j).park j blame step

/-- A marker acts on a flow: every message before it belongs to an aborted attempt, `behind` came after it, which is of the current
attempt where the marker is (R445, R447). -/
def State.actMarker (s : State) (f : Nat) (m : HeldMarker) : State :=
  let j := s.flowJob f
  let same := m.attempt = s.jobAttempt j
  let s := s.modFlow f fun x =>
    { x with marker := some (m.step, m.attempt), rx := (if same then x.rx else []) ++ m.behind, part := if same then x.part else [],
             heard := x.heard || (same && !m.behind.isEmpty) }
  if same then s else (s.grant f).abortJob j 0x1000 (some m.attempt)

/-- Whether the module has entered a step of a job: it runs a launch of it, and no park keeps it before the RELEASE or RESUME that
enters the step (R447). -/
def State.inStep (s : State) (j : Nat) : Bool :=
  !(s.jobSpans j).isEmpty && !(s.job j).holds.any fun h => h == .parked || h == .orphaned

/-- An attempt marker arrives on a flow (R447): an older one is discarded, one of a step that the module has still to enter is
held. -/
def State.takeMarker (s : State) (f step attempt : Nat) : State :=
  let j := s.flowJob f
  let s0 := s.jobStep j
  let running := !(s.jobSpans j).isEmpty
  let now := s.inStep j
  if running && (decide (step < s0) || (now && decide (step = s0) && decide (attempt < s.jobAttempt j))) then s
  else if !now || decide (s0 < step) then s.modFlow f fun x => { x with heldMarkers := x.heldMarkers ++ [⟨step, attempt, []⟩] }
  else s.actMarker f ⟨step, attempt, []⟩

/-- A marker that was held acts, unless a later attempt has been entered since; what came behind it goes with it. -/
def State.actHeld (s : State) (f : Nat) (m : HeldMarker) : State :=
  if m.attempt < s.jobAttempt (s.flowJob f) then s.grant f else s.actMarker f m

/-- The markers that a flow holds for the step that the module enters. -/
def State.heldNow (s : State) (j f : Nat) : List HeldMarker := (s.flow f).heldMarkers.filter fun m => m.step == s.jobStep j

/-- The module enters a step (R447): markers held for it act, markers of earlier steps are dropped. Triggers that fall together cause
one abort (R445), to the highest attempt that they name. -/
def State.enterStep (s : State) (j : Nat) : State :=
  let fs := s.jobFlows j
  let s := fs.foldl (fun s f => s.modFlow f fun x => { x with heard := !(x.part ++ x.rx).isEmpty }) s
  let top := (fs.flatMap (s.heldNow j)).foldl (fun n m => max n m.attempt) (s.jobAttempt j)
  let s := if s.jobAttempt j < top then s.abortJob j 0x1000 (some top) else s
  fs.foldl (fun s f =>
    let now := s.heldNow j f
    let s := s.modFlow f fun x => { x with heldMarkers := x.heldMarkers.filter fun m => s.jobStep j < m.step }
    now.foldl (fun s m => s.actHeld f m) s) s

/-! ## Frames and tokens that stay on the module -/

/-- Flow to the next rank, and from the previous one (R422). -/
def ringTx (base m : Nat) : Nat := (base + 2 * m) % 3072
def ringRx (base m : Nat) : Nat := (base + 2 * m + 1) % 3072

/-- Flow with rank q of an S1 exchange (R422). -/
def s1Flow (base m n q : Nat) : Nat := (base + m * n + q) % 3072

/-- The other ranks of a ring. -/
def otherRanks (n rank : Nat) : List Nat := (List.range n).filter fun q => q != rank

/-- The rank from which a COLL waits for a message on a flow. -/
def Coll.waitsOn (x : Coll) (f : Nat) : Option Nat :=
  if x.waiting || x.empty || x.n ≤ 1 then none
  else if x.stage = 0 || x.stage = 2 then
    (if f = ringRx x.base x.member then some ((x.rank + x.n - 1) % x.n) else none)
  else if x.stage = 3 then
    (otherRanks x.n x.rank).find? fun q => s1Flow x.base x.member x.n q = f && !x.bits.any fun b => b.1 == q
  else none

/-- The flow of a SEND or RECV in a member (R272). -/
def State.sendFlow (s : State) (c : Nat) (ws : List Word) : Nat :=
  let (i, j) := s.local c
  let w := match s.spanOf c with | some a => a.w | none => 1
  (min (cmdField ws 3 0 12) 3071 + cmdField ws 3 12 12 * (j * w + i)) % 3072

/-- Whether a RECV waits on a flow. -/
def State.recvWaits (s : State) (f : Nat) : Bool :=
  s.cores.any fun e => e.2.xfers.any fun x => x.code = 0x24 && !x.empty && s.sendFlow e.1 x.words = f

/-- Whether a consumer that may take messages of a flow waits on it (R411, R447): a RECV or COLL, or the checkpoint holder. -/
def State.wanted (s : State) (f : Nat) : Bool :=
  s.isCkFlow f || (s.mayTake f && (s.recvWaits f || s.colls.any fun x => (x.waitsOn f).isSome))

/-- A flow whose held flits go to a waiting consumer. -/
def State.feedable (s : State) : Option Nat :=
  (s.flows.find? fun e => e.2.feeds && s.wanted e.1).map Prod.fst

/-- Delivers the frames that the module sends to itself, hands accepted tokens to the sync block or to the marker record, and
flits of messages to the consumers that wait; `fuel` bounds the work of one command, the rest follows with the next. -/
def State.settleGo (s : State) : Nat → State
  | 0 => s
  | n + 1 =>
    match s.tokensIn with
    | (f, p, y) :: rest =>
      let s := { s with tokensIn := rest }
      if flitByte y 3 = 0xFF then (s.takeMarker f (flitField y 4 6) (flitField y 10 2)).settleGo n
      else (s.takeToken f p y).settleGo n
    | [] =>
      match s.loopback with
      | (p, y) :: rest => (({ s with loopback := rest } : State).deliver p y).settleGo n
      | [] =>
        match s.feedable with
        | some f => (s.feed f).settleGo n
        | none => s

def State.settle (s : State) : State := s.settleGo 8192

/-- The answer of a command that may have sent frames. -/
def done (s : State) : Host.Outcome State Fault Refusal := .next s.settle

/-! ## Kills (R322 to R326, R497) -/

/-- The module's own logical rank: the lowest whose rank map entry is valid and names this module; 0x1000 for none. -/
def State.ownRank (s : State) : Nat :=
  match s.regs.find? (fun e => fbRankmap 0 ≤ e.1 && e.1 < fbRankmap 4096 &&
      bitOf e.2.toNat 12 && e.2.toNat % 4096 == s.selfAddr) with
  | some e => (e.1 - fbRankmap 0) / 8
  | none => 0x1000

/-- A span's launch ends: its cores halt and the completion is posted (R146, R246, R469). -/
def State.endSpan (s : State) (a : ActiveSpan) (status val : Nat) : State :=
  let s := a.members.foldl (fun s c => s.modCore c fun k =>
    { k.disarm with mode := .halted, stall := .none, haltNext := false, launch := none }) s
  let s := { s with active := s.active.filter (fun b => b.corner != a.corner), governor := mdel s.governor a.corner,
                    waiters := s.waiters.filter fun e => !a.members.contains e.1 }
  s.complete a.hq (leBytes 4 a.tag.toNat) 1 status val

/-- FW_CKSTAT.STATE follows the job's progress. -/
def State.ckShow (s : State) (j : Nat) : State :=
  let x := s.job j
  let v := match x.ck with
    | .partnerCopy _ => 1
    | .flashFirst _ => 2
    | .restoreAsked _ _ => 4
    | .restoring _ _ => 4
    | .idle => if x.flashWriting.isSome then 2 else if x.snapshotHeld then 3 else 0
  s.setFld (fwCkstat j) 0 3 v

/-- A checkpoint or restore of the job ends without success (R522): RESULT, and EV_CHECKPOINT_DONE with tier 0. -/
def State.ckFail (s : State) (j result : Nat) : State :=
  let s := s.setFld (fwCkstat j) 3 4 result
  let s := s.modJob j fun x => { x with ck := .idle, restoreIn := [], restoreSize := none, restorePrint := none }
  (s.ckShow j).post (s.jobHead 0x43 4 j) [(2, 0), (13, 0x1000)]

/-- Whether a kill still holds a job on the module: until its RELEASE, and until the fence of its suspect cores has taken place (R497). -/
def State.killHeld (s : State) (j : Nat) : Bool :=
  (s.job j).holds.contains .killed || (s.job j).suspects.any fun p => s.fences.any fun f => f.fenced.contains p

/-- The kill of a job: its spans halt at once, queues are discarded, flows close, PARKED shows with the module's own rank
(R326, R497). `kind` 8 is a requested kill (R465). -/
def State.killJob (s : State) (j kind : Nat) (core : Option Nat) (flow addr : Nat) : State :=
  let step := s.jobStep j
  let cores := s.jobCores j
  let spans := s.jobSpans j
  let s := (s.stopJob j).cancelWaits j
  let s := cores.foldl (fun s c => s.modCore c fun k => { k with mode := .halted }) s
  let s := (s.jobFlows j).foldl (fun s f => s.shutFlow f) s
  let s := s.setParked j s.ownRank
  let suspects := (s.fences.flatMap fun f => f.fenced).filter fun p => (cores.map s.physOf).contains p
  let s := s.modJob j fun x => { x with holds := (x.holds.filter fun h => h == .orphaned) ++ [.killed], suspects := suspects }
  let hq := match core with | some c => ((s.core c).launch.map fun l => l.hq) | none => none
  let s := s.post { type := 6, job := j, core := core, hq := hq, source := 3, step := step }
            [(4, kind), (12, flow), (40, addr)]
  let s := match (s.job j).ck with
    | .partnerCopy .. => s.ckFail j 7
    | .flashFirst _ => (s.modJob j fun x => { x with ck := .idle }).ckShow j
    | _ => s
  let s := s.modJob j fun x => { x with killLatch := none, abortDue := none, carried := false, lapsing := false, lapseCk := false }
  spans.foldl (fun s a => s.endSpan a (if kind = 8 then 3 else 2) (s.fld (vxStep (a.y0 * 32 + a.x0)) 0 48)) s

end Sys2Proof.Machine
end

