-- ==== Sys2Proof/Machine/Isa.lean ====
section
/-! DEFINITION. The meanings of the control core's instructions and of the ends of their waits (07_control_core). -/

namespace Sys2Proof.Machine

open Sys2Proof

/-- What an instruction answers: where it may send frames, they settle first. -/
abbrev Answer : Type := Host.Outcome State Fault Refusal

/-! ## NOP, integer and predicate instructions -/

def execNop (c : Nat) (s : State) : Answer :=
  .next (s.issueCore c (fun w => iwOp w = 0x00) id)

def execAlu (c : Nat) (rd ra rb : BitVec 5) (func : BitVec 11) (s : State) : Answer :=
  .next (s.issueCore c (isA 0x01 rd ra rb func) fun k => k.setG rd (aluOp func.toNat (k.rg ra) (k.rg rb)))

def execAddi (c : Nat) (rd ra : BitVec 5) (imm : BitVec 16) (s : State) : Answer :=
  .next (s.issueCore c (isI 0x02 rd ra imm) fun k => k.setG rd (k.rg ra + sext imm))

def execAndi (c : Nat) (rd ra : BitVec 5) (imm : BitVec 16) (s : State) : Answer :=
  .next (s.issueCore c (isI 0x03 rd ra imm) fun k => k.setG rd (k.rg ra &&& zext imm))

def execOri (c : Nat) (rd ra : BitVec 5) (imm : BitVec 16) (s : State) : Answer :=
  .next (s.issueCore c (isI 0x04 rd ra imm) fun k => k.setG rd (k.rg ra ||| zext imm))

def execXori (c : Nat) (rd ra : BitVec 5) (imm : BitVec 16) (s : State) : Answer :=
  .next (s.issueCore c (isI 0x05 rd ra imm) fun k => k.setG rd (k.rg ra ^^^ zext imm))

/-- Shifts by an immediate: ALU func 6, 7 and 8 with b := imm (R211). -/
def execShli (c : Nat) (rd ra : BitVec 5) (imm : BitVec 16) (s : State) : Answer :=
  .next (s.issueCore c (isI 0x06 rd ra imm) fun k => k.setG rd (aluOp 6 (k.rg ra) (zext imm)))

def execShri (c : Nat) (rd ra : BitVec 5) (imm : BitVec 16) (s : State) : Answer :=
  .next (s.issueCore c (isI 0x07 rd ra imm) fun k => k.setG rd (aluOp 7 (k.rg ra) (zext imm)))

def execSari (c : Nat) (rd ra : BitVec 5) (imm : BitVec 16) (s : State) : Answer :=
  .next (s.issueCore c (isI 0x08 rd ra imm) fun k => k.setG rd (aluOp 8 (k.rg ra) (zext imm)))

def execMuli (c : Nat) (rd ra : BitVec 5) (imm : BitVec 16) (s : State) : Answer :=
  .next (s.issueCore c (isI 0x09 rd ra imm) fun k => k.setG rd (k.rg ra * sext imm))

/-- LUI ignores ra (R205). -/
def execLui (c : Nat) (rd : BitVec 5) (imm : BitVec 16) (s : State) : Answer :=
  .next (s.issueCore c (fun w => iwOp w = 0x0A && iwRd w = rd.toNat && iwImm w = imm.toNat) fun k =>
    k.setG rd (sext imm <<< 16))

def execShori (c : Nat) (rd ra : BitVec 5) (imm : BitVec 16) (s : State) : Answer :=
  .next (s.issueCore c (isI 0x0B rd ra imm) fun k => k.setG rd ((k.rg ra <<< 16) ||| zext imm))

/-- Low three bits of a register field, as a predicate number (R212, R214). -/
def predOf (r : BitVec 5) : BitVec 3 := r.setWidth 3

def execCmp (c : Nat) (rd ra rb : BitVec 5) (func : BitVec 11) (s : State) : Answer :=
  .next (s.issueCore c (isA 0x0C rd ra rb func) fun k =>
    let t := cmpOp (func.toNat % 8) (k.rg ra) (k.rg rb)
    let old := k.pr (predOf rd)
    let comb := rd.toNat / 8
    k.setP (predOf rd) (if comb = 0 then t else if comb = 1 then old && t else old || t))

def execCmpi (c : Nat) (pd : BitVec 3) (cond : BitVec 2) (ra : BitVec 5) (imm : BitVec 16) (s : State) : Answer :=
  .next (s.issueCore c (fun w => iwOp w = 0x0D && iwRd w = pd.toNat * 4 + cond.toNat && iwRa w = ra.toNat &&
      iwImm w = imm.toNat) fun k => k.setP pd (cmpiOp cond (k.rg ra) (sext imm)))

/-- The operations of PLOG (R214). -/
def plogOp (f : Nat) (a b : Bool) : Bool :=
  match f with
  | 0 => a && b
  | 1 => a || b
  | 2 => a != b
  | _ => a && !b

def execPlog (c : Nat) (rd ra rb : BitVec 5) (func : BitVec 11) (s : State) : Answer :=
  .next (s.issueCore c (isA 0x0E rd ra rb func) fun k =>
    k.setP (predOf rd) (plogOp (func.toNat % 4) (k.pr (predOf ra)) (k.pr (predOf rb))))

/-! ## Special registers (R204) -/

/-- The value of NW_CORE_SPAN (Table: NW_CORE_SPAN). -/
def State.coreSpanReg (s : State) (c : Nat) : Reg :=
  match (s.core c).launch with
  | some l => BitVec.ofNat 64 (l.span + 2 ^ 8 + l.lx * 2 ^ 9 + l.ly * 2 ^ 14 + 5 * (l.lx + l.ly) * 2 ^ 19)
  | none => 0

/-- Table: Special registers, as MFS reads them. -/
def State.special (s : State) (c n : Nat) : Reg :=
  let k := s.core c
  if n = 0 then k.cyc
  else if n = 1 then zext k.epoch
  else if n = 2 then BitVec.ofNat 64 c
  else if n = 3 then s.coreSpanReg c
  else if n = 4 then zext k.preds
  else if n ≤ 8 then zext (k.lcAt (n - 5))
  else if n = 9 then BitVec.ofNat 64 (s.fld (vxStep c) 0 48)
  else if n = 10 then BitVec.ofNat 64 (s.coreJob c)
  else if n = 11 then BitVec.ofNat 64 (s.coreHq c)
  else 0

def execMfs (c : Nat) (rd : BitVec 5) (imm : BitVec 16) (s : State) : Answer :=
  .next (s.issueCore c (fun w => iwOp w = 0x0F && iwRd w = rd.toNat && iwImm w = imm.toNat) fun k =>
    k.setG rd (s.special c imm.toNat))

def execMts (c : Nat) (ra : BitVec 5) (imm : BitVec 16) (s : State) : Answer :=
  .next (s.issueCore c (fun w => iwOp w = 0x10 && iwRa w = ra.toNat && iwImm w = imm.toNat) fun k =>
    let v := k.rg ra
    let n := imm.toNat
    if n = 4 then { k with p := v.setWidth 8 ||| 1 }
    else if 5 ≤ n ∧ n ≤ 8 then (if k.loopActive (n - 5) then k else k.setLc (n - 5) (v.setWidth 32))
    else k)

/-! ## Pond loads and stores (R215 to R218) -/

def execLd8 (c : Nat) (rd ra : BitVec 5) (imm : BitVec 16) (s : State) : Answer :=
  .next (s.load c (isI 0x11 rd ra imm) rd ra imm 1 false)
def execLd16 (c : Nat) (rd ra : BitVec 5) (imm : BitVec 16) (s : State) : Answer :=
  .next (s.load c (isI 0x12 rd ra imm) rd ra imm 2 false)
def execLd32 (c : Nat) (rd ra : BitVec 5) (imm : BitVec 16) (s : State) : Answer :=
  .next (s.load c (isI 0x13 rd ra imm) rd ra imm 4 false)
def execLd64 (c : Nat) (rd ra : BitVec 5) (imm : BitVec 16) (s : State) : Answer :=
  .next (s.load c (isI 0x14 rd ra imm) rd ra imm 8 false)
def execLds8 (c : Nat) (rd ra : BitVec 5) (imm : BitVec 16) (s : State) : Answer :=
  .next (s.load c (isI 0x15 rd ra imm) rd ra imm 1 true)
def execLds16 (c : Nat) (rd ra : BitVec 5) (imm : BitVec 16) (s : State) : Answer :=
  .next (s.load c (isI 0x16 rd ra imm) rd ra imm 2 true)
def execLds32 (c : Nat) (rd ra : BitVec 5) (imm : BitVec 16) (s : State) : Answer :=
  .next (s.load c (isI 0x17 rd ra imm) rd ra imm 4 true)

def execSt8 (c : Nat) (rd ra : BitVec 5) (imm : BitVec 16) (s : State) : Answer :=
  .next (s.store c (isI 0x18 rd ra imm) rd ra imm 1)
def execSt16 (c : Nat) (rd ra : BitVec 5) (imm : BitVec 16) (s : State) : Answer :=
  .next (s.store c (isI 0x19 rd ra imm) rd ra imm 2)
def execSt32 (c : Nat) (rd ra : BitVec 5) (imm : BitVec 16) (s : State) : Answer :=
  .next (s.store c (isI 0x1A rd ra imm) rd ra imm 4)
def execSt64 (c : Nat) (rd ra : BitVec 5) (imm : BitVec 16) (s : State) : Answer :=
  .next (s.store c (isI 0x1B rd ra imm) rd ra imm 8)

/-! ## Branches and loops (R219 to R224) -/

/-- The word after the branch, as a link (R219, R220). -/
def Core.link (k : Core) : Reg := BitVec.ofNat 64 ((k.pc.toNat + 1) % 16384)

def execBr (c : Nat) (l n : Bool) (p : BitVec 3) (off : BitVec 21) (s : State) : Answer :=
  .next (s.issue c (fun w => iwOp w = 0x20 && bitOf w.toNat 25 == l && bitOf w.toNat 24 == n &&
      bitsOf w.toNat 21 3 == p.toNat && bitsOf w.toNat 0 21 == off.toNat) fun k =>
    if k.pr p != n then
      let t := ((k.pc.toNat : Int) + off.toInt) % 16384
      s.setCore c ((if l then k.setG 31 k.link else k).jump t.toNat)
    else s.setCore c k.advance)

def execJr (c : Nat) (rd ra : BitVec 5) (s : State) : Answer :=
  .next (s.issue c (fun w => iwOp w = 0x21 && iwRd w = rd.toNat && iwRa w = ra.toNat) fun k =>
    s.setCore c ((k.setG rd k.link).jump ((k.rg ra).toNat % 16384)))

def execLoop (c : Nat) (n : BitVec 2) (isImm : Bool) (len : BitVec 11) (count : BitVec 12) (s : State) : Answer :=
  .next (s.issue c (fun w => iwOp w = 0x22 && bitsOf w.toNat 24 2 == n.toNat && bitOf w.toNat 23 == isImm &&
      bitsOf w.toNat 12 11 == len.toNat && bitsOf w.toNat 0 12 == count.toNat) fun k =>
    let cnt := if isImm then count.toNat else min (k.rg (count.setWidth 5)).toNat (2 ^ 32 - 1)
    s.setCore c (k.enterLoop n.toNat len.toNat cnt))

/-! ## Staging and queues (R225 to R230) -/

/-- Word i of the staging registers. -/
def Core.cAt (k : Core) (i : Nat) : Word := k.c.toList.getD i 0

def Core.setC (k : Core) (i : Nat) (v : Word) : Core := { k with c := k.c.setIfInBounds i v }

def execCset (c : Nat) (rd ra lsb : BitVec 5) (func : BitVec 11) (s : State) : Answer :=
  .next (s.issueCore c (isA 0x24 rd ra lsb func) fun k =>
    let i := rd.toNat % 8
    let w := min (func.toNat / 64 + 1) (32 - lsb.toNat)
    k.setC i (BitVec.ofNat 32 (setBitsOf (k.cAt i).toNat lsb.toNat w (k.rg ra).toNat)))

def execCseti (c : Nat) (rd : BitVec 5) (imm : BitVec 16) (s : State) : Answer :=
  .next (s.issueCore c (fun w => iwOp w = 0x25 && iwRd w = rd.toNat && iwImm w = imm.toNat) fun k =>
    let i := rd.toNat % 8
    k.setC i (BitVec.ofNat 32 (setBitsOf (k.cAt i).toNat (if bitOf rd.toNat 3 then 16 else 0) 16 imm.toNat)))

/-- The command that PUSH builds (R227). -/
def Core.pushed (k : Core) (ra : BitVec 5) : QCmd :=
  { words := (List.range 8).map fun i => if i = 1 then k.cAt 1 + (k.rg ra).setWidth 32 else k.cAt i,
    late := false, implicit := false }

def execPush (c : Nat) (ra : BitVec 5) (s : State) : Answer :=
  .next (s.issue c (fun w => iwOp w = 0x28 && iwRa w = ra.toNat) fun k =>
    let cmd := k.pushed ra
    let s := s.setCore c k.advance
    if s.pushFits c cmd.words then s.enqueue c cmd
    else s.modCore c fun k => { k with stall := .push cmd (cmdEng cmd.words), stallTick := s.ticks })

/-- Places the implicit waits of a STEP in the queues that have room (R241). -/
def State.placeWaits (s : State) (c : Nat) (es : List Nat) (stamp : Word) (room : Nat → Bool) : State :=
  let s' := (es.filter room).foldl (fun s e => s.enqueue c (implicitWait e stamp)) s
  let left := es.filter fun e => !room e
  s'.modCore c fun k => { k with stall := if left.isEmpty then .stepWait false else .stepPlace left stamp }

/-- Whether a queue has room. -/
def Core.room (k : Core) (e : Nat) : Bool := decide ((k.queue e).cmds.length < queueDepth e)

/-- Whether a queue had room at the end of the tick before, as the end of a stall needs it (R228). -/
def Core.hadRoom (k : Core) (e : Nat) : Bool := decide ((k.queue e).seen.length < queueDepth e) && k.room e

/-- The end of a stall on a full queue, in the tick after an entry frees (R228, R241). -/
def execPushStallEnd (c : Nat) (s : State) : Answer :=
  match (s.core c).stall with
  | .push cmd e =>
    if (s.core c).hadRoom e && s.pushFits c cmd.words then .next ((s.enqueue c cmd).modCore c Core.resume) else .next s
  | .stepPlace es stamp =>
    if es.any (s.core c).hadRoom then .next (s.placeWaits c es stamp (s.core c).hadRoom) else .next s
  | _ => .next s

def execQlvl (c : Nat) (rd : BitVec 5) (e : BitVec 2) (s : State) : Answer :=
  .next (s.issueCore c (fun w => iwOp w = 0x29 && iwRd w = rd.toNat && iwQe w = e.toNat) fun k =>
    k.setG rd (BitVec.ofNat 64 (k.queue e.toNat).cmds.length))

def execQdue (c : Nat) (ra : BitVec 5) (e : BitVec 2) (s : State) : Answer :=
  .next (s.issueCore c (fun w => iwOp w = 0x2A && iwRa w = ra.toNat && iwQe w = e.toNat) fun k =>
    k.armDue e.toNat ((k.rg ra).setWidth 32))

/-! ## Flags (R238) -/

def execFset (c : Nat) (ra : BitVec 5) (imm : BitVec 14) (s : State) : Answer :=
  .next (s.issueCore c (fun w => iwOp w = 0x2C && iwRa w = ra.toNat && iwQimm w = imm.toNat) fun k =>
    k.setFlag (flagNumber (k.rg ra) imm) true)

def execFclr (c : Nat) (ra : BitVec 5) (imm : BitVec 14) (s : State) : Answer :=
  .next (s.issueCore c (fun w => iwOp w = 0x2D && iwRa w = ra.toNat && iwQimm w = imm.toNat) fun k =>
    k.setFlag (flagNumber (k.rg ra) imm) false)

def execFtst (c : Nat) (rd ra : BitVec 5) (imm : BitVec 14) (s : State) : Answer :=
  .next (s.issueCore c (isQ 0x2E rd ra imm) fun k => k.setP (predOf rd) (k.flag (flagNumber (k.rg ra) imm)))

def execFwait (c : Nat) (rd ra : BitVec 5) (imm : BitVec 14) (s : State) : Answer :=
  .next (s.issueCore c (isQ 0x2F rd ra imm) fun k =>
    let n := flagNumber (k.rg ra) imm
    if k.flag n then k.setG rd 0 else { k with stall := .flag n rd, stallTick := s.ticks })

def execFwaitRelease (c : Nat) (s : State) : Answer :=
  match (s.core c).stall with
  | .flag n rd => if (s.core c).flag n then .next (s.modCore c fun k => (k.setG rd 0).resume) else .next s
  | _ => .next s

/-! ## Counters and sluices (R239, R368 to R374, R378) -/

def execCtradd (c : Nat) (rd ra rb : BitVec 5) (func : BitVec 11) (s : State) : Answer :=
  .next (s.issue c (isA 0x30 rd ra rb func) fun k =>
    let n := syncObject (k.rg ra) func
    let r := s.syncReach c n false
    let (v, s') := if r = .ok then s.counterAdd n (k.rg rb) else (0, s.syncRefuse r)
    s'.setCore c { k.advance with stall := .reply rd v, stallTick := s.ticks })

/-- The reply of the sync block: g[rd] takes the counter's previous value, or the sense of the phase joined (R239). -/
def execCtraddReply (c : Nat) (s : State) : Answer :=
  match (s.core c).stall with
  | .reply rd v => .next (s.modCore c fun k => (k.setG rd v).resume)
  | _ => .next s

/-- A wait request at the sync block (R371); a refused one is never released (R378). DESIGN CHOICE (log 9): of a wait on a secure
object by a non-secure core, R378 says only that it follows R317, whose read of zero could meet the wait; the model has it stall
until its timeout as a refused one does. -/
def State.waitAt (s : State) (c : Nat) (w : Waiter) : State := { s with waiters := mput s.waiters c w }

def execCtrwait (c : Nat) (rd ra rb : BitVec 5) (func : BitVec 11) (s : State) : Answer :=
  .next (s.issue c (isA 0x31 rd ra rb func) fun k =>
    let n := syncObject (k.rg ra) func
    let v := k.rg rb
    let r := s.syncReach c n false
    if r = .ok ∧ v.toInt ≤ (s.obj n).value.toInt then s.setCore c (k.advance.setG rd 0)
    else
      let s' := (s.syncRefuse r).waitAt c { obj := n, operand := v, isSluice := false, refused := r != .ok, released := false }
      s'.setCore c { k.advance with stall := .counter n rd v, stallTick := s.ticks })

/-- Whether the wait request of a core has been met (R239). -/
def State.waitMet (s : State) (c : Nat) : Bool := s.waiters.any fun e => e.1 == c && e.2.released

/-- The release of a stalled wait (R370, R373). -/
def State.releaseWait (s : State) (c : Nat) (rd : BitVec 5) : State :=
  if s.waitMet c then
    { (s.modCore c fun k => (k.setG rd 0).resume) with waiters := mdel s.waiters c }
  else s

def execCtrwaitRelease (c : Nat) (s : State) : Answer :=
  match (s.core c).stall with
  | .counter _ rd _ => .next (s.releaseWait c rd)
  | _ => .next s

def execSlarr (c : Nat) (rd ra : BitVec 5) (func : BitVec 11) (s : State) : Answer :=
  done (s.issue c (fun w => iwOp w = 0x32 && iwRd w = rd.toNat && iwRa w = ra.toNat && iwFunc w = func.toNat) fun k =>
    let n := syncObject (k.rg ra) func
    let r := s.syncReach c n true
    let (v, s') := if r = .ok then (let (b, s') := s.arrive n; ((if b then 1 else 0 : Reg), s')) else (0, s.syncRefuse r)
    s'.setCore c { k.advance with stall := .reply rd v, stallTick := s.ticks })

def execSlwait (c : Nat) (rd ra rb : BitVec 5) (func : BitVec 11) (s : State) : Answer :=
  .next (s.issue c (isA 0x33 rd ra rb func) fun k =>
    let n := syncObject (k.rg ra) func
    let v := k.rg rb
    let sense := v.toNat % 2 = 1
    let r := s.syncReach c n true
    if r = .ok ∧ (s.obj n).sense ≠ sense then s.setCore c (k.advance.setG rd 0)
    else
      let s' := (s.syncRefuse r).waitAt c { obj := n, operand := v, isSluice := true, refused := r != .ok, released := false }
      s'.setCore c { k.advance with stall := .sluice n rd sense, stallTick := s.ticks })

def execSlwaitRelease (c : Nat) (s : State) : Answer :=
  match (s.core c).stall with
  | .sluice _ rd _ => .next (s.releaseWait c rd)
  | _ => .next s

/-! ## Events, steps, halts (R207, R240, R241, R246) -/

def execEvt (c : Nat) (ra : BitVec 5) (imm : BitVec 14) (s : State) : Answer :=
  .next (s.issue c (fun w => iwOp w = 0x34 && iwRa w = ra.toNat && iwQimm w = imm.toNat) fun k =>
    (s.setCore c k.advance).post (s.coreHead 1 0 c) [(64, (k.rg ra).toNat), (14, imm.toNat)])

def execStep (c : Nat) (s : State) : Answer :=
  .next (s.issue c (fun w => iwOp w = 0x38) fun k =>
    (s.setCore c { k.disarm.advance with stallTick := s.ticks }).placeWaits c [0, 1, 2, 3] (k.cyc.setWidth 32) k.room)

def execHalt (c : Nat) (s : State) : Answer :=
  .next (s.issue c (fun w => iwOp w = 0x3F) fun k => s.setCore c { k.disarm.advance with mode := .halted })

def execUnassignedOpcode (c : Nat) (w : BitVec 32) (s : State) : Answer :=
  .next (s.issue c (fun x => x = w && !opAssigned (iwOp x)) fun k => (s.setCore c k.advance).addFld (ccCount c 3) 0 64 1)

end Sys2Proof.Machine
end

