-- ==== Sys2Proof/Machine/Silicon.lean ====
section
/-! DEFINITION. Physical cores, their error counters, suspect cores and pending row fences (15_faults_sparing R485 to R494). -/

namespace Sys2Proof.Machine

open Sys2Proof

/-- The logical column on a physical column, if one sits there. -/
def State.logicalOf (s : State) (p : Nat) : Option Nat :=
  let y := p / 36
  match (s.usable y).findIdx? (fun x => x == p % 36) with
  | some x => if x < s.width then some (y * 32 + x) else none
  | none => none

/-- Registers that describe the silicon: 0 FT_CORE, 1 PD_ECC, 2 MX_RESIDUE. -/
def State.silReg (s : State) (p k : Nat) : Reg := mget s.silicon 0 (p * 4 + k)

def State.setSil (s : State) (p k : Nat) (v : Reg) : State := { s with silicon := mput s.silicon (p * 4 + k) v }

/-- Adds 1 to a field of a silicon register, saturating. -/
def State.satSil (s : State) (p k lo w : Nat) : State :=
  let v := (s.silReg p k).toNat
  s.setSil p k (BitVec.ofNat 64 (setBitsOf v lo w (satAdd w (bitsOf v lo w) 1)))

/-- Whether a row has a fence pending. -/
def State.rowPending (s : State) (y : Nat) : Bool := s.fences.any fun f => f.row == y

/-- Adds a suspect core to its row's pending fence; one found while the row shifts waits for the next (R489, R493). -/
def addFence (fs : List RowFence) (y p : Nat) : List RowFence :=
  if fs.any (fun f => f.row == y && !f.shifting) then
    fs.map fun f => if f.row = y ∧ !f.shifting then { f with fenced := insertNat f.fenced p } else f
  else fs ++ [{ row := y, shifting := false, fenced := [p], narrow := false }]

/-- A core becomes suspect; one that is suspect keeps its first reason (R485, R486). -/
def State.makeSuspect (s : State) (p reason : Nat) : State :=
  let v := (s.silReg p 0).toNat
  if bitOf v 44 || s.fencedPhys p then s
  else
    let s := s.setSil p 0 (BitVec.ofNat 64 (setBitsOf (setBitsOf v 40 4 reason) 44 1 1))
    { s with fences := addFence s.fences (p / 36) p }

/-- Whether the job of a core's row must hold at its next boundary (R489, R494). -/
def State.fenceHolds (s : State) (j : Nat) : Bool :=
  s.fences.any fun f => s.jobInRow j f.row || (decide ((s.usable f.row).length - f.fenced.length < s.width) && s.jobInLast j)

/-- A residue mismatch: counter, event, suspect with reason 0 (R141). `place` codes LAST_WHERE. -/
def State.residue (s : State) (c code place : Nat) : State :=
  let p := s.physOf c
  let s := s.satSil p 2 0 32
  let v := (s.silReg p 2).toNat
  let s := s.setSil p 2 (BitVec.ofNat 64 (setBitsOf (setBitsOf v 32 8 code) 40 2 place))
  (s.post (s.coreHead 5 0 c) [(8, code), (2, place)]).makeSuspect p 0

end Sys2Proof.Machine
end

