-- ==== Sys2Proof/Machine/Persist.lean ====
section
/-! DEFINITION. What keeper writes to fuses and to the boot flash while the device runs, one step at a time, so that a reset in
between leaves what Table: Reset in mid-operation gives (17_bringup_firmware R535, R558 to R564, R570). -/

namespace Sys2Proof.Machine

open Sys2Proof

/-- The bytes of the saved settings that their CRC-32 covers (R558; log 36). -/
def Saved.bytes (a : Saved) : List Byte :=
  (a.hbm ++ a.heaters ++ a.bias ++ a.taps).flatMap (leBytes 8) ++ leBytes 2 (toSigned 16 a.temp) ++ leBytes 8 a.serial.toNat

/-- Whether saved settings have a good CRC and name the module (R559). -/
def Saved.good (a : Saved) (serial : Reg) : Bool := a.crc == some (crc32 a.bytes) && a.serial == serial

def historyBytes (ids : List Nat) : List Byte := ids.flatMap (leBytes 2)

/-- Whether a copy of the start history has a good CRC: one whose write a reset cut off has none (R563). -/
def HistoryCopy.good (h : HistoryCopy) : Bool := h.crc == some (crc32 (historyBytes h.ids))

/-- The BIST failures of the previous start: those of the newest copy in force (R563). -/
def Firm.lastFailures (f : Firm) : List Nat := match f.history.find? HistoryCopy.good with | some h => h.ids | none => []

/-- The saved settings that the device has, when they are good (R559). -/
def State.savedNow (s : State) : Option Saved := s.firm.saved.filter fun a => a.good s.fuses.serial

/-- The next step of the first write in line: each fuse bit and each CRC is a step of its own (R535, R561, R563, R564). -/
def State.keeperStep (s : State) : State :=
  match s.firm.writes with
  | [] => s
  | w :: rest =>
    let s : State := { s with firm := { s.firm with writes := rest } }
    match w with
    | .infieldId p => { s with fuses := { s.fuses with infield := s.fuses.infield ++ [(p, false)] } }
    | .infieldValid p =>
      { s with fuses := { s.fuses with infield := s.fuses.infield.map fun e => if e.1 = p then (p, true) else e } }
    | .historyBody ids =>
      { s with firm := { s.firm with history := { ids := ids, crc := none } :: (s.firm.history.filter HistoryCopy.good).take 1 } }
    | .historyCrc =>
      { s with firm := { s.firm with history := match s.firm.history with
          | h :: l => { h with crc := some (crc32 (historyBytes h.ids)) } :: l
          | [] => [] } }
    | .savedBody a => { s.setFld fwStatus 6 1 0 with firm := { s.firm with saved := some { a with crc := none } } }
    | .savedCrc =>
      { s.setFld fwStatus 6 1 (if s.firm.saved.isSome then 1 else 0) with
          firm := { s.firm with saved := s.firm.saved.map fun a => { a with crc := some (crc32 a.bytes) } } }
    | .rollback n =>
      let more := if s.fuses.rollback + 1 < n then [KeeperWrite.rollback n] else []
      { s with fuses := { s.fuses with rollback := if s.fuses.rollback < n then s.fuses.rollback + 1 else s.fuses.rollback },
               firm := { s.firm with writes := more ++ rest } }

/-- In a tick keeper may take the next step of what it writes; the spec gives these writes no duration, and a free value tells whether
it does (log 36). -/
def State.keeperWrites (s : State) : State :=
  if s.firm.writes.isEmpty || !s.keeperUp then s
  else
    let (v, s) := s.freeVal 1
    if v = 1 then s.keeperStep else s

/-- Puts writes in line. -/
def State.addWrites (s : State) (ws : List KeeperWrite) : State := { s with firm := { s.firm with writes := s.firm.writes ++ ws } }

end Sys2Proof.Machine
end

