-- ==== Sys2Proof/Machine/Engines.lean ====
section
/-! DEFINITION. What every engine shares: start and end of a command, flag waits, IDLE, freezes and the arrival at a step
boundary (04 R130; 05 R159 to R162; 07 R231 to R241; 08 R256, R276, R277, R284, R290). -/

namespace Sys2Proof.Machine

open Sys2Proof

/-! ## The head of a queue -/

def EngQ.head (q : EngQ) : Option QCmd := q.cmds.head?

/-- The head of a queue as it is seen: it headed the queue at the end of the tick before, and still does (R232). -/
def Core.seenHead (k : Core) (e : Nat) : Option QCmd :=
  match (k.queue e).seen.head?, (k.queue e).cmds.head? with
  | some x, some y => if x = y then some x else none
  | _, _ => none

/-- Whether every descriptor of a command is in the cache (R290). -/
def State.cached (s : State) (c : Nat) (ws : List Word) : Bool :=
  (cmdHandles ws).all fun h => (s.core c).dcache.any fun e => e.hq == s.coreHq c && e.handle == h && e.desc.isSome

def rvStage (c : Nat) : Nat := cw c 0x82408

/-- Staging space that is free (R331). -/
def State.stageFree (s : State) (c : Nat) : Nat :=
  s.fld (rvStage c) 18 18 - ((s.core c).staged.map (·.size)).foldl (· + ·) 0

/-- Padded data size of a tile (R329). -/
def Desc.padded (d : Desc) : Nat := (d.bytes + 63) / 64 * 64

/-- Whether a member processes the elements of a tile (R284). -/
def State.takesPart (s : State) (c : Nat) (d : Desc) : Bool := !d.excludes (s.local c).1 (s.local c).2

/-- The tile of a reservoir command. -/
def State.rsvTile (s : State) (c : Nat) (ws : List Word) : Desc := (s.desc c (reqHandle (cmdField ws 2 0 12))).inPond

def rsvChan (ws : List Word) : Nat := cmdField ws 0 16 5

/-- Whether a reservoir command moves an entry at all: its tile has elements and its member takes part (R284, R285). -/
def State.rsvMoves (s : State) (c : Nat) (d : Desc) : Bool := d.count != 0 && s.takesPart c d

/-- Whether an RSVPUSH finds its limit condition true (R333). -/
def State.limitOk (s : State) (c : Nat) (ws : List Word) : Bool :=
  let ch := rsvChan ws
  decide (s.fld (rvChan c ch) 32 32 + ((s.rsvTile c ws).padded + 64) ≤ s.fld (rvChan c ch) 0 32)

/-- The staged entry that ends at an address of a channel: device addresses have 40 bits (R294). -/
def State.stagedEnd (s : State) (c ch top : Nat) : Option Staged :=
  (s.core c).staged.find? fun x => x.chan == ch && (x.addr + x.size) % 2 ^ 40 == top % 2 ^ 40 && !x.popped

/-- Address of the trailer of the entry at a depth of a channel. -/
def State.trailerAt (s : State) (c ch depth : Nat) : Nat := s.fld (rvChanBase c ch) 0 40 + depth - 64

/-- Size of the entry at a depth of a channel: as it is staged, or as its trailer states it (R329). -/
def State.entrySize (s : State) (c ch depth : Nat) : Nat :=
  match s.stagedEnd c ch (s.trailerAt c ch depth + 64) with
  | some x => x.size
  | none => leNat (s.devBytes (s.streamSecure c) (s.trailerAt c ch depth) 4) + 64

/-- The staged entry on top of a channel, once its bytes are there (R336). -/
def State.topStaged (s : State) (c ch : Nat) : Option Staged :=
  match s.stagedEnd c ch (s.fld (rvChanBase c ch) 0 40 + s.fld (rvChan c ch) 32 32) with
  | some x => if x.st = .fetching then none else some x
  | none => none

/-- Whether a reservoir command at the head of its queue can start (R333, R336, R339, R340). -/
def State.rsvReady (s : State) (c : Nat) (ws : List Word) : Bool :=
  let d := s.rsvTile c ws
  let ch := rsvChan ws
  let size := s.fld (rvStage c) 18 18
  if !s.rsvMoves c d then true
  else if cmdCode ws = 0x30 then
    size < d.padded + 64 || (s.limitOk c ws && d.padded + 64 ≤ s.stageFree c)
  else
    let depth := s.fld (rvChan c ch) 32 32
    depth = 0 || size < d.padded || size < s.entrySize c ch depth || (s.topStaged c ch).isSome

/-- Whether a command is a flag wait whose flag is not set (R159, R276, R277, R290); an implicit wait waits on the step
flag (R241). -/
def State.waits (s : State) (c : Nat) (q : QCmd) : Bool :=
  let k := s.core c
  let ws := q.words
  if q.implicit then !k.stepFlag
  else if !s.cached c ws then true
  else if cmdCode ws = 0 then idleWait ws && !k.flag (cmdField ws 0 16 6)
  else if cmdCode ws = 0x26 then cmdField ws 0 10 2 = 0 && !k.flag (cmdField ws 0 16 6)
  else if cmdCode ws = 0x30 ∨ cmdCode ws = 0x31 then !s.rsvReady c ws
  else false

/-- The flag on which a command of the flag class waits: FLAG WAIT, or IDLE with WAIT set (R382). -/
def QCmd.flagWait (q : QCmd) : Option Nat :=
  let ws := q.words
  if q.implicit then none
  else if (cmdCode ws = 0 ∧ idleWait ws) ∨ (cmdCode ws = 0x26 ∧ cmdField ws 0 10 2 = 0) then some (cmdField ws 0 16 6)
  else none

/-! ## Start of a command -/

/-- The command at the head of queue `e`, where it can start now: its skewed stamp is reached, its unit is free, no IDLE
ahead of it runs, its descriptors are cached, it waits for nothing and the core is not frozen (R130, R149, R256, R290); one that
entered its queue in this tick starts later (R233). A code
that its engine does not execute waits for its stamp as every command does: DESIGN CHOICE, R254 ignores "every other field" of
it and does not say whether STAMP is one of them (log 57). -/
def State.startable (s : State) (c e : Nat) : Option (List Word) :=
  let k := s.core c
  let q := k.queue e
  match q.cmds with
  | [] => none
  | x :: _ =>
    if s.hasCore c && !x.implicit && decide (q.fresh < q.cmds.length) && reached k.cyc (s.skewed c (x.words.getD 1 0)) && decide (q.idleUntil.toNat ≤ k.cyc.toNat) &&
        decide ((k.unitFree (cmdCode x.words) e).toNat ≤ k.cyc.toNat) && !s.freezeDue c && !s.waits c x then
      some x.words
    else none

/-- Takes the head off its queue: it counts if it is late (R233), and a due not later than it is disarmed (R230). -/
def State.takeHead (s : State) (c e : Nat) : State :=
  let k := s.core c
  let q := k.queue e
  match q.cmds with
  | [] => s
  | x :: rest =>
    let q := { q with cmds := rest, waitTick := none, timedOut := false }
    let s := s.setCore c ((k.setQueue e q).takeDue e (x.words.getD 1 0))
    if x.late then s.addFld (ccCount c 2) 0 64 1 else s

/-- A start of a command with code `code` on engine `e`, and the effect of it. -/
def State.start (s : State) (c e code : Nat) (sub : List Word → Bool) (eff : List Word → State → State) : State :=
  match s.startable c e with
  | some ws => if cmdCode ws = code ∧ sub ws then eff ws (s.takeHead c e) else s
  | none => s

/-- A completed command's descriptors may leave the cache (R289). -/
def State.unpin (s : State) (c : Nat) (ws : List Word) : State :=
  s.modCore c fun k => { k with dcache := (cmdHandles ws).foldl (fun d h => dcUnpin d (s.coreHq c) h) k.dcache }

/-- A command of an engine with fixed durations begins to run. -/
def Run.new (ws : List Word) (due : Reg) : Run :=
  { code := cmdCode ws, words := ws, due := due, start := 0, unit := 1, units := 0, lag := 0, pos := 0, later := [], bank := 0,
    rows := 0, cols := 0, anchor := 0, cross := false, write := PondWrite.none, counts := Counts.zero, record := none,
    bins := [], slot := Slot.reset, params := [], cursor := none, seq := 0, outs := [],
    opA := Operand.empty, opB := Operand.empty, marked := [] }

/-- How many pieces of a running command have been read by a cycle (R131, R171). -/
def Run.readBy (r : Run) (cyc : Reg) : Nat := min r.units ((cyc.toNat - r.start.toNat) / max r.unit 1 + 1)

/-- The run with a code whose completion cycle is reached, while the core is not frozen; the one that is due first. -/
def State.completing (s : State) (c code : Nat) (runs : List Run) : Option Run :=
  if s.hasCore c && !s.freezeDue c then
    (runs.filter fun r => r.code == code && decide (r.due.toNat ≤ (s.core c).cyc.toNat)).foldl (fun m r =>
      match m with
      | none => some r
      | some x => if r.due.toNat < x.due.toNat then some r else some x) none
  else none

/-- Removes a run. -/
def dropRun (r : Run) : List Run → List Run
  | [] => []
  | x :: rs => if x = r then rs else x :: dropRun r rs

/-- Writes record bytes at a pond address; those at or beyond 196,608 are dropped (R257, R281). -/
def State.pondRecord (s : State) (c a : Nat) (d : List Byte) : State :=
  s.modCore c fun k => { k with pond := k.pond.write a (d.take (196608 - a)) }

/-- A consumption of poisoned elements by a command of a core (R286, R322): kind 4, naming the first element's address. -/
def State.consume (s : State) (c : Nat) (kind addr : Nat) : State := s.latchKill (s.coreJob c) kind c 0 addr

/-- A read of a tensor whose POISON is 1 consumes when an element is poisoned (R286). -/
def State.readKill (s : State) (c : Nat) (d : Desc) (bad : Bool) : State :=
  if d.kill && bad then s.consume c 4 (if d.space then d.base else cw c d.base) else s

/-! ## IDLE (R277) -/

def execIdle (c e : Nat) (s : State) : Answer :=
  .next (s.start c e 0 (fun _ => true) fun ws s =>
    s.modCore c fun k =>
      let n := cmdField ws 0 16 6
      let k := if !(idleWait ws && cmdBit ws 0 12) then k
        else if e = 2 then (k.setFlag n false).nextId else k.setFlag n false
      let until_ := k.cyc + BitVec.ofNat 64 (idleCount ws)
      let q := k.queue e
      k.setQueue e { q with idleUntil := until_, idleRuns := q.idleRuns ++ [until_] })

def execIdleComplete (c e : Nat) (s : State) : Answer :=
  let k := s.core c
  let q := k.queue e
  match q.idleRuns with
  | [] => .next s
  | t :: rest =>
    if s.hasCore c && !s.freezeDue c && t.toNat ≤ k.cyc.toNat then .next (s.setCore c (k.setQueue e { q with idleRuns := rest }))
    else .next s

/-! ## Freezes (R159 to R162, R231) -/

/-- Whether the empty-queue condition of an engine holds (R231). -/
def Core.starved (k : Core) (e : Nat) : Bool :=
  match k.dues[e]? with
  | some (_, armed) => armed && (k.queue e).cmds.isEmpty
  | none => false

/-- A freeze condition as it is kept: engine e for an empty queue, e + 4 for a flag wait. -/
def State.condHolds (s : State) (c cond : Nat) : Bool :=
  let k := s.core c
  if cond < 4 then k.starved cond
  else
    match (k.queue (cond - 4)).head with
    | some x => s.waits c x
    | none => false

/-- Whether a member has arrived. -/
def Core.arrived (k : Core) : Bool := match k.stall with | .stepWait b => b | _ => false

/-- Whether a member stands at a step boundary: arrived, past the commit but not yet gone on, or held at a step's entry (R241,
R448, R509). -/
def Core.atBoundary (k : Core) : Bool :=
  match k.stall with
  | .stepWait b => b
  | .stepOver => true
  | .held => true
  | _ => false

/-- The conditions of a member that an evaluation in this cycle finds true; `f` is F (R159, R231, R232). -/
def State.condsNow (s : State) (c f : Nat) : List Nat :=
  let k := s.core c
  let early := fun (stamp : Word) => reached k.cyc (s.skewed c stamp - BitVec.ofNat 32 f)
  (List.range 4).flatMap fun e =>
    let starve := match k.dues[e]? with
      | some (d, armed) => armed && !k.dueSeen.contains e && early d && k.seenEmpty e
      | none => false
    let wait := match k.seenHead e with
      | some x => (!x.implicit || k.atBoundary) && early (x.words.getD 1 0) && s.waits c x
      | none => false
    (if starve then [e] else []) ++ (if wait then [e + 4] else [])

/-- Raises or merges a freeze (R160, R161). -/
def ActiveSpan.raise (a : ActiveSpan) (cyc : Reg) (conds : List (Nat × Nat)) : ActiveSpan :=
  let eff := cyc + BitVec.ofNat 64 (5 * a.diameter)
  match a.freeze with
  | none => { a with freeze := some { effect := eff, active := false, conds := conds, effectTick := 0, clearTick := none } }
  | some z =>
    if z.active then a
    else
      let new := conds.filter fun x => !z.conds.contains x
      let z' := { z with effect := if eff.toNat < z.effect.toNat then eff else z.effect, conds := z.conds ++ new }
      { a with freeze := some { z' with clearTick := if new.isEmpty then z.clearTick else none } }

/-- EV_RSV_OVERFLOW, when the RSVPUSH at the head of its queue first fails its limit condition: its condition is evaluated from
its skewed stamp less F (`f`) on (R159, R335). -/
def State.rsvOverflow (s : State) (c f : Nat) : State :=
  let k := s.core c
  match (k.queue 3).head with
  | none => s
  | some x =>
    let ws := x.words
    let d := s.rsvTile c ws
    let ch := rsvChan ws
    if cmdCode ws = 0x30 && !x.implicit && reached k.cyc (s.skewed c (ws.getD 1 0) - BitVec.ofNat 32 f) && s.cached c ws &&
        s.rsvMoves c d && !s.limitOk c ws && !k.rsvOverflow && decide (d.padded + 64 ≤ s.fld (rvStage c) 18 18) then
      (s.setCore c { k with rsvOverflow := true }).post (s.coreHead 7 1 c)
        [(5, ch), (32, s.fld (rvChan c ch) 32 32), (32, s.fld (rvChan c ch) 0 32), (32, d.padded + 64)]
    else s

def execFreezeRaise (c : Nat) (s : State) : Answer :=
  match s.spanOf c with
  | none => .next s
  | some a =>
    let cs := s.condsNow c (5 * a.diameter)
    let active := match a.freeze with | some z => z.active | none => false
    if active || cs.isEmpty || !s.hasCore c then .next s
    else
      let s := s.rsvOverflow c (5 * a.diameter)
      .next (s.modSpan a.corner fun a => a.raise (s.core c).cyc (cs.map fun x => (c, x)))

def execFreezeEffect (c : Nat) (s : State) : Answer :=
  match s.spanOf c with
  | none => .next s
  | some a =>
    match a.freeze with
    | none => .next s
    | some z =>
      if !z.active && z.effect.toNat ≤ (s.core c).cyc.toNat then
        .next (s.modSpan a.corner fun a => { a with freeze := some { z with active := true, effectTick := s.ticks } })
      else .next s

/-! ## Arrival (R241, R342) -/

/-- Whether every command ahead of the implicit waits has completed. -/
def Core.quiet (k : Core) : Bool :=
  (k.queues.toList.all fun q => q.cmds.all (fun x => x.implicit) && q.idleRuns.isEmpty) && k.array.runs.isEmpty &&
    k.path.runs.isEmpty && k.vec.runs.isEmpty && decide (k.vec.busyUntil.toNat ≤ k.cyc.toNat) && k.rsv.runs.isEmpty && k.xfers.isEmpty &&
    k.staged.all (fun x => x.st != .pushed && x.st != .writing)

/-- The core arrives: the implicit waits now count as flag waits, and the freeze is raised in this cycle (R241). Under a freeze
of its span that is in effect the last of its transfers may end, and it arrives then; no condition is evaluated before that
freeze ends (R161). -/
def execStepArrival (c : Nat) (s : State) : Answer :=
  let k := s.core c
  match k.stall, s.spanOf c with
  | .stepWait false, some a =>
    if s.hasCore c && k.quiet then
      let s := s.setCore c { k with stall := .stepWait true }
      .next (s.modSpan a.corner fun a => a.raise k.cyc ((List.range 4).map fun e => (c, e + 4)))
    else .next s
  | _, _ => .next s

/-! ## Descriptor fetch and prefetch trackers (R289, R312, R313) -/

/-- The table entry of a handle: 64 bytes read as one unit in the world of the queue (R288, R291, R315). -/
def State.fetchDesc (s : State) (q h : Nat) : BitVec 512 × List Nat × State :=
  let (bytes, bad, s) := s.devRead (s.hqSecure q) (s.fld (hqDt q) 0 40 + 64 * h) 64
  (BitVec.ofNat 512 (leNat bytes), bad, s)

end Sys2Proof.Machine
end

