-- ==== Sys2Proof/Machine/Random.lean ====
section
/-! DEFINITION. The random generator and the draws of bound and free streams (06_vector_engine R186 to R191). -/

namespace Sys2Proof.Machine

open Sys2Proof

/-- Table: Rotation amounts. -/
def rotA : List Nat := [7, 19, 11, 27, 5, 22, 14, 9, 25, 3]
def rotB : List Nat := [16, 8, 24, 13, 29, 4, 18, 21, 10, 31]

/-- The key words of `inject`. -/
def keyWord (k0 k1 k2 : Word) (i : Nat) : Word :=
  match i % 4 with
  | 0 => k0
  | 1 => k1
  | 2 => k2
  | _ => k0 ^^^ k1 ^^^ k2 ^^^ 0x9e3779b9#32

/-- The four words of the generator's state. -/
structure Quad where
  x0 : Word
  x1 : Word
  x2 : Word
  x3 : Word
deriving DecidableEq, Repr

def Quad.inject (x : Quad) (k0 k1 k2 : Word) (j : Nat) : Quad :=
  let ks := keyWord k0 k1 k2
  { x0 := x.x0 + ks j, x1 := x.x1 + ks (j + 1), x2 := x.x2 + ks (j + 2), x3 := x.x3 + ks (j + 3) + BitVec.ofNat 32 j }

/-- One round. -/
def Quad.round (x : Quad) (k0 k1 k2 : Word) (r : Nat) : Quad :=
  let x0 := x.x0 + x.x1
  let x1 := x.x1.rotateLeft (rotA.getD r 0) ^^^ x0
  let x2 := x.x2 + x.x3
  let x3 := x.x3.rotateLeft (rotB.getD r 0) ^^^ x2
  let y : Quad := { x0 := x0, x1 := x3, x2 := x2, x3 := x1 }
  if r % 2 = 1 then y.inject k0 k1 k2 ((r + 1) / 2) else y

/-- gen (R187). -/
def gen (k0 k1 k2 : Word) (ctr : Nat) : Quad :=
  let w := fun i => BitVec.ofNat 32 (ctr / 2 ^ (32 * i))
  let x : Quad := { x0 := w 0, x1 := w 1, x2 := w 2, x3 := w 3 }
  (List.range 10).foldl (fun x r => x.round k0 k1 k2 r) (x.inject k0 k1 k2 0)

def Quad.at (x : Quad) (d : Nat) : Nat :=
  (match d % 4 with
   | 0 => x.x0
   | 1 => x.x1
   | 2 => x.x2
   | _ => x.x3).toNat

/-- Draw `d` of an element: logical index `e` in a bound slot, position cursor + w·row + d in a free one (R188, R189). -/
def Slot.draw (t : Slot) (step e row w d : Nat) : Nat :=
  if t.free then
    let p := (t.cursor.toNat + w * row + d) % 2 ^ 64
    (gen t.k0 t.k1 t.k2 (p / 4)).at p
  else (gen t.k0 t.k1 t.k2 (step + t.mbatch.toNat * 2 ^ 48 + e * 2 ^ 72)).at d

def Core.slot (k : Core) (n : Nat) : Slot := k.slots.toList.getD n Slot.reset

def Core.setSlot (k : Core) (n : Nat) (t : Slot) : Core := { k with slots := k.slots.setIfInBounds n t }

/-- The slot of a command: the output's binding, else its own field (R266). -/
def Desc.slotOf (d : Desc) (own : Nat) : Nat := if d.stren then d.slot else own

/-- The cursor that a completion writes to a free slot: the value read at the start plus w × n (R189). -/
def Core.cursorAfter (k : Core) (n draws : Nat) : Option (Nat × Reg) :=
  let t := k.slot n
  if t.free then some (n, t.cursor + BitVec.ofNat 64 draws) else none

/-- Writes the cursor that a completed command leaves. -/
def Core.putCursor (k : Core) (x : Option (Nat × Reg)) : Core :=
  match x with
  | some (n, v) => k.setSlot n { k.slot n with cursor := v }
  | none => k

end Sys2Proof.Machine
end

