-- ==== Sys2Proof/Machine/Transcendental.lean ====
section
/-! DEFINITION. The transcendental set (06_vector_engine R174 to R177): each result is the exact value rounded once. A value is
enclosed between two rationals, with more precision until both round alike; a value that no precision here decides is the
opaque one of Config (log 8). -/

namespace Sys2Proof.Machine

open Sys2Proof

/-! ## Intervals of multiples of 2^−p -/

/-- `lo × 2^−p` to `hi × 2^−p`; the scale `p` is an argument of each operation. -/
structure Ival where
  lo : Int
  hi : Int

def Ival.ofQ (p : Nat) (q : Q) : Ival :=
  let f := (q.scale p).floor
  ⟨f, if (q.scale p).den = 1 then f else f + 1⟩

def Ival.ofInt (p : Nat) (i : Int) : Ival := ⟨i * 2 ^ p, i * 2 ^ p⟩

def Ival.add (a b : Ival) : Ival := ⟨a.lo + b.lo, a.hi + b.hi⟩

def Ival.neg (a : Ival) : Ival := ⟨-a.hi, -a.lo⟩

def min4 (a b c d : Int) : Int := min (min a b) (min c d)
def max4 (a b c d : Int) : Int := max (max a b) (max c d)

def Ival.mul (p : Nat) (a b : Ival) : Ival :=
  let w := a.lo * b.lo
  let x := a.lo * b.hi
  let y := a.hi * b.lo
  let z := a.hi * b.hi
  ⟨min4 w x y z / 2 ^ p, max4 w x y z / 2 ^ p + 1⟩

/-- Quotient by a positive integer. -/
def Ival.divNat (a : Ival) (n : Nat) : Ival := ⟨a.lo / n, a.hi / n + 1⟩

/-- Quotient by an interval above zero. -/
def Ival.div (p : Nat) (a b : Ival) : Ival :=
  let lo := if 0 < b.lo then b.lo else 1
  let hi := if 0 < b.hi then b.hi else 1
  let w := a.lo * 2 ^ p
  let z := a.hi * 2 ^ p
  ⟨min (w / lo) (w / hi), max (z / lo) (z / hi) + 1⟩

/-- `a × 2^k`. -/
def Ival.shift (a : Ival) (k : Int) : Ival :=
  if 0 ≤ k then ⟨a.lo * 2 ^ k.toNat, a.hi * 2 ^ k.toNat⟩
  else ⟨a.lo / 2 ^ (-k).toNat, a.hi / 2 ^ (-k).toNat + 1⟩

def Ival.qlo (p : Nat) (a : Ival) : Q := Q.dyadic a.lo (-(p : Int))
def Ival.qhi (p : Nat) (a : Ival) : Q := Q.dyadic a.hi (-(p : Int))

/-- Hull of two intervals. -/
def Ival.hull (a b : Ival) : Ival := ⟨min a.lo b.lo, max a.hi b.hi⟩

/-! ## Series -/

/-- Σ t_n with t_{n+1} = t_n × x / (n + 1), from term `n`, `k` terms. -/
def expGo (p : Nat) (x : Ival) : Nat → Nat → Ival → Ival → Ival
  | 0, _, _, acc => acc
  | k + 1, n, t, acc =>
    let t := (t.mul p x).divNat (n + 1)
    expGo p x k (n + 1) t (acc.add t)

/-- 2 × atanh(1/z-like argument): 2 Σ z^(2n+1) / (2n+1) for |z| ≤ 1/3. -/
def atanhGo (p : Nat) (z2 : Ival) : Nat → Nat → Ival → Ival → Ival
  | 0, _, _, acc => acc
  | k + 1, n, t, acc =>
    let t := t.mul p z2
    atanhGo p z2 k (n + 1) t (acc.add (t.divNat (2 * n + 3)))

/-- ln m for a rational m in [1, 2]. -/
def lnUnit (p : Nat) (m : Q) : Ival :=
  let z := Ival.ofQ p ((m.sub (Q.ofInt 1)).div (m.add (Q.ofInt 1)))
  let s := atanhGo p (z.mul p z) (p / 3 + 4) 0 z z
  ⟨2 * s.lo - 4, 2 * s.hi + 4⟩

def ln2 (p : Nat) : Ival := lnUnit p (Q.ofInt 2)

/-- ln x for x > 0. -/
def lnQ (p : Nat) (x : Q) : Ival :=
  let e := x.log2
  let k := ln2 p
  let ke : Ival := if 0 ≤ e then ⟨e * k.lo, e * k.hi⟩ else ⟨e * k.hi, e * k.lo⟩
  (lnUnit p (x.scale (-e))).add ke

/-- Squares `k` times. -/
def squareTimes (p : Nat) : Nat → Ival → Ival
  | 0, a => a
  | k + 1, a => squareTimes p k (a.mul p a)

/-- e^x for an interval at scale p. -/
def expI (p : Nat) (x : Ival) : Ival :=
  let l := ln2 p
  let k := x.lo / l.hi
  let kl : Ival := if 0 ≤ k then ⟨k * l.lo, k * l.hi⟩ else ⟨k * l.hi, k * l.lo⟩
  let r := (x.add kl.neg).shift (-8)
  let one := Ival.ofInt p 1
  let s := expGo p r (p / 7 + 6) 0 one one
  let s := squareTimes p 8 ⟨s.lo - 2, s.hi + 2⟩
  s.shift k

/-- Σ of arctan(1/n) at scale p: alternating, `k` terms. -/
def atanGo (p : Nat) (n2 : Nat) : Nat → Nat → Bool → Ival → Ival → Ival
  | 0, _, _, _, acc => acc
  | k + 1, i, minus, t, acc =>
    let t := t.divNat n2
    let u := t.divNat (2 * i + 3)
    atanGo p n2 k (i + 1) (!minus) t (if minus then acc.add u.neg else acc.add u)

def atanInv (p n : Nat) : Ival :=
  let t := (Ival.ofInt p 1).divNat n
  let s := atanGo p (n * n) (p / 4 + 4) 0 true t t
  ⟨s.lo - 2, s.hi + 2⟩

/-- π by Machin's formula. -/
def piI (p : Nat) : Ival :=
  let a := atanInv p 5
  let b := atanInv p 239
  ⟨16 * a.lo - 4 * b.hi, 16 * a.hi - 4 * b.lo⟩

/-- Alternating Taylor series of sine and cosine from a first term. -/
def trigGo (p : Nat) (x2 : Ival) : Nat → Nat → Ival → Ival → Ival
  | 0, _, _, acc => acc
  | k + 1, n, t, acc =>
    let t := ((t.mul p x2).divNat ((n + 1) * (n + 2))).neg
    trigGo p x2 k (n + 2) t (acc.add t)

/-- sin x or cos x, the argument reduced with as many bits as it needs (R175). -/
def trigQ (p0 : Nat) (x : Q) (cos : Bool) : Nat × Ival :=
  let p := p0 + x.num.natAbs.log2 + 8
  let tau : Ival := ⟨2 * (piI p).lo, 2 * (piI p).hi⟩
  let k := (Ival.ofQ p x).lo / tau.hi
  let kt : Ival := if 0 ≤ k then ⟨k * tau.lo, k * tau.hi⟩ else ⟨k * tau.hi, k * tau.lo⟩
  let r := (Ival.ofQ p x).add kt.neg
  let one := Ival.ofInt p 1
  let s := if cos then trigGo p (r.mul p r) (p / 2 + 16) 0 one one else trigGo p (r.mul p r) (p / 2 + 16) 1 r r
  (p, ⟨s.lo - 2, s.hi + 2⟩)

/-- Σ 2^n y^(2n+1) / (1·3·…·(2n+1)). -/
def erfGo (p : Nat) (y2 : Ival) : Nat → Nat → Ival → Ival → Ival
  | 0, _, _, acc => acc
  | k + 1, n, t, acc =>
    let t := (t.mul p y2).divNat (2 * n + 3)
    erfGo p y2 k (n + 1) t (acc.add t)

/-- Square root of a non-negative interval. -/
def Ival.sqrt (p : Nat) (a : Ival) : Ival :=
  ⟨natSqrt (a.lo.toNat * 2 ^ p), natSqrt (a.hi.toNat * 2 ^ p) + 1⟩

/-- erf y for an interval 0 ≤ y ≤ 16: 2/√π × e^(−y²) × series, which has no cancellation. -/
def erfI (p : Nat) (y : Ival) : Ival :=
  let yy := y.mul p y
  let y2 : Ival := ⟨2 * yy.lo, 2 * yy.hi⟩
  let s := erfGo p y2 (p + 1400) 0 y y
  let e := expI p yy.neg
  let d := (piI p).sqrt p
  let v := ((s.mul p e).mul p (Ival.ofInt p 2)).div p d
  ⟨v.lo - 2, v.hi + 2⟩

/-! ## Enclosures of the operations (R174) -/

def tinyLo : Q := Q.dyadic 1 (-3000)
def tinyHi : Q := Q.dyadic 1 (-320)

/-- Encloses a positive value so small that every output format treats it alike. -/
def tinyPos : Q × Q := (tinyLo, tinyHi)
def tinyNeg : Q × Q := (tinyHi.neg, tinyLo.neg)
/-- Encloses a value so large that it overflows every output format. -/
def hugePos : Q × Q := (Q.dyadic 1 500, Q.dyadic 1 501)
/-- Encloses a value just below x > 0, or just above it. -/
def justBelow (x : Q) : Q × Q := (x.mul ((Q.ofInt 1).sub tinyHi), x.mul ((Q.ofInt 1).sub tinyLo))
def justAbove (x : Q) : Q × Q := (x.mul ((Q.ofInt 1).add tinyLo), x.mul ((Q.ofInt 1).add tinyHi))
def negPair (a : Q × Q) : Q × Q := (a.2.neg, a.1.neg)

def pairOf (p : Nat) (a : Ival) : Q × Q := (a.qlo p, a.qhi p)

def encExp (p : Nat) (x : Q) : Q × Q :=
  if (Q.ofInt 400).lt x then hugePos else if x.lt (Q.ofInt (-400)) then tinyPos
  else pairOf p (expI p (Ival.ofQ p x))

def encExp2 (p : Nat) (x : Q) : Q × Q :=
  if (Q.ofInt 600).lt x then hugePos else if x.lt (Q.ofInt (-600)) then tinyPos
  else if (Q.trim x).den = 1 then (Q.dyadic 1 (Q.trim x).num, Q.dyadic 1 (Q.trim x).num)
  else pairOf p (expI p ((Ival.ofQ p x).mul p (ln2 p)))

def encLog (p : Nat) (x : Q) : Q × Q := pairOf p (lnQ p x)

/-- log2 x: exact for a power of two. -/
def encLog2 (p : Nat) (x : Q) : Q × Q :=
  if Q.eq x (Q.dyadic 1 x.log2) then (Q.ofInt x.log2, Q.ofInt x.log2)
  else pairOf p ((lnQ p x).div p (ln2 p))

def encTanh (p : Nat) (x : Q) : Q × Q :=
  let a := x.abs
  let v := if (Q.ofInt 200).lt a then justBelow (Q.ofInt 1)
    else
      let t := expI p (Ival.ofQ p (a.scale 1))
      let one := Ival.ofInt p 1
      pairOf p ((t.add one.neg).div p (t.add one))
  if x.isNeg then negPair v else v

/-- σ(x) as an interval, |x| ≤ 400. -/
def sigI (p : Nat) (x : Q) : Ival :=
  let one := Ival.ofInt p 1
  one.div p (one.add (expI p (Ival.ofQ p x.neg)))

def encSigmoid (p : Nat) (x : Q) : Q × Q :=
  if (Q.ofInt 400).lt x then justBelow (Q.ofInt 1) else if x.lt (Q.ofInt (-400)) then tinyPos
  else pairOf p (sigI p x)

def encErf (p : Nat) (x : Q) : Q × Q :=
  let a := x.abs
  let v := if (Q.ofInt 16).lt a then justBelow (Q.ofInt 1) else pairOf p (erfI p (Ival.ofQ p a))
  if x.isNeg then negPair v else v

def encSoftplus (p : Nat) (x : Q) : Q × Q :=
  if (Q.ofInt 400).lt x then justAbove x else if x.lt (Q.ofInt (-400)) then tinyPos
  else
    let y := (Ival.ofInt p 1).add (expI p (Ival.ofQ p x))
    pairOf p ((lnQ p (y.qlo p)).hull (lnQ p (y.qhi p)))

def encGelu (p : Nat) (x : Q) : Q × Q :=
  if (Q.ofInt 22).lt x then justBelow x else if x.lt (Q.ofInt (-22)) then tinyNeg
  else
    let y := (Ival.ofQ p x.abs).div p ((Ival.ofInt p 2).sqrt p)
    let e := erfI p y
    let one := Ival.ofInt p 1
    let phi := (if x.isNeg then one.add e.neg else one.add e).shift (-1)
    pairOf p ((Ival.ofQ p x).mul p phi)

def encSilu (p : Nat) (x : Q) : Q × Q :=
  if (Q.ofInt 400).lt x then justBelow x else if x.lt (Q.ofInt (-400)) then tinyNeg
  else pairOf p ((Ival.ofQ p x).mul p (sigI p x))

def encTrig (p : Nat) (x : Q) (cos : Bool) : Q × Q :=
  let (p, v) := trigQ p x cos
  pairOf p v

/-- √x or 1/√x for x > 0: exact where the root is rational. -/
def encRoot (p : Nat) (x : Q) (recip : Bool) : Q × Q :=
  let x := Q.trim x
  let n := natSqrt x.num.natAbs
  let d := natSqrt x.den
  if n * n = x.num.natAbs ∧ d * d = x.den then
    let r : Q := if recip then ⟨d, n⟩ else ⟨n, d⟩
    (r, r)
  else
    -- relative precision: scale by an even power of two first
    let e := x.log2 / 2
    let y := x.scale (-2 * e)
    let r := (Ival.ofQ p y).sqrt p
    if recip then pairOf p (((Ival.ofInt p 1).div p r)) |> fun v => (v.1.scale (-e), v.2.scale (-e))
    else pairOf p r |> fun v => (v.1.scale e, v.2.scale e)

/-- The enclosure of a VOP code at a finite argument for which Table: Transcendental special cases names no result. -/
def enclose (op p : Nat) (x : Q) : Q × Q :=
  match op with
  | 0x0D => encRoot p x false
  | 0x0F => encRoot p x true
  | 0x10 => encExp2 p x
  | 0x11 => encLog2 p x
  | 0x12 => encExp p x
  | 0x13 => encLog p x
  | 0x14 => encTanh p x
  | 0x15 => encSigmoid p x
  | 0x16 => encErf p x
  | 0x17 => encSoftplus p x
  | 0x18 => encTrig p x false
  | 0x19 => encTrig p x true
  | 0x1A => encGelu p x
  | _ => encSilu p x

/-! ## Results -/

/-- A result before its one rounding: a value, or an operation at a finite argument. -/
inductive Res where
  | val (v : Val)
  | fn (op : Nat) (x : Q)

/-- The first precision at which a function has one value over the enclosure decides it; after the last, the opaque value. -/
def decideFn {α : Type} [DecidableEq α] (op : Nat) (x : Q) (f : Q → α) : List Nat → α
  | [] => f (Q.dyadic (Config.transcendental op x.num x.den) (-2000))
  | p :: ps =>
    let e := enclose op p x
    let a := f e.1
    if a = f e.2 then a else decideFn op x f ps

def precisions : List Nat := [96, 192, 400, 800, 1600, 3200]

/-- Applies what is done with a result once. -/
def Res.apply {α : Type} [DecidableEq α] (r : Res) (f : Val → α) : α :=
  match r with
  | .val v => f v
  | .fn op x => decideFn op x (fun q => f (.fin q)) precisions

def Res.isNan : Res → Bool
  | .val v => v.isNan
  | .fn _ _ => false

/-- floor(log2 |r|) of a finite non-zero result, taken no nearer than −300 and no further than 400: every scale of R87 is
clamped before those limits, so that tiny and huge results decide it too. The sign is part of what an enclosure must decide: one
that holds 0 does not. -/
def Res.log2 (r : Res) : Option Int :=
  (r.apply fun v => match v with
    | .fin q => if q.isZero then none else some (q.isNeg, max (-300) (min 400 q.log2))
    | _ => none).map Prod.snd

/-- Finite arguments at which a transcendental has a result of its own (R169, R175, R176). -/
def transFin (op : Nat) (x : Q) : Res :=
  let one : Val := .fin (Q.ofInt 1)
  if op = 0x0E then (if x.isZero then .val (.inf false) else .val (.fin ((Q.ofInt 1).div x)))
  else if op = 0x0D then (if x.isNeg then .val .nan else if x.isZero then .val Val.zero else .fn op x)
  else if op = 0x0F then (if x.isNeg then .val .nan else if x.isZero then .val (.inf false) else .fn op x)
  else if op = 0x11 ∨ op = 0x13 then
    if x.isNeg then .val .nan
    else if x.isZero then .val (.inf true)
    else if Q.eq x (Q.ofInt 1) then .val Val.zero else .fn op x
  else if x.isZero then
    if op = 0x10 ∨ op = 0x12 ∨ op = 0x19 then .val one
    else if op = 0x15 then .val (.fin ⟨1, 2⟩)
    else if op = 0x17 then .fn op x
    else .val Val.zero
  else .fn op x

/-- Infinite arguments (Table: Transcendental special cases). -/
def transInf (op : Nat) (neg : Bool) : Val :=
  match op with
  | 0x0D => if neg then .nan else .inf false
  | 0x0E => Val.zero
  | 0x0F => if neg then .nan else Val.zero
  | 0x10 => if neg then Val.zero else .inf false
  | 0x11 => if neg then .nan else .inf false
  | 0x12 => if neg then Val.zero else .inf false
  | 0x13 => if neg then .nan else .inf false
  | 0x14 => .fin (Q.ofInt (if neg then -1 else 1))
  | 0x15 => if neg then Val.zero else .fin (Q.ofInt 1)
  | 0x16 => .fin (Q.ofInt (if neg then -1 else 1))
  | 0x17 => if neg then Val.zero else .inf false
  | 0x18 => .nan
  | 0x19 => .nan
  | _ => if neg then Val.zero else .inf false

/-- An operation of the transcendental set (R175, R176). -/
def trans (op : Nat) (v : Val) : Res :=
  match v with
  | .nan => .val .nan
  | .inf b => .val (transInf op b)
  | .fin q => transFin op q

/-! ## Binary32 steps (R177, R191) -/

/-- Rounds a value to FP32, to nearest-even, and reads it back. -/
def rnd (v : Val) : Val := ofFp32 (toFp32 v)

/-- A function step: FP32 output, nearest-even. -/
def step32 (op : Nat) (v : Val) : Val := ofFp32 ((trans op v).apply fun v => toFp32 v)

def Val.ofQ (n : Int) (d : Nat) : Val := .fin ⟨n, d⟩
def Val.sub (a b : Val) : Val := a.add b.neg

/-- 1/√2, 1/√(2π) and 2π, each rounded once to FP32 to nearest-even (R177, R191). -/
def constH : Val := ofFp32 0x3F3504F3
def constQ : Val := ofFp32 0x3ECC422A
def const2Pi : Val := ofFp32 0x40C90FDB

/-- Fused derivative f′(z) (Table: Fused derivative evaluation). -/
def fusedDerivative (code : Nat) (z : Val) : Val :=
  let one := Val.ofQ 1 1
  match code with
  | 0 => one
  | 1 =>
    match z with
    | .inf false => one
    | .fin q => if !q.isNeg && !q.isZero then one else Val.zero
    | _ => Val.zero
  | 2 =>
    let a1 := rnd (z.mul constH)
    let a2 := step32 0x16 a1
    let a3 := rnd (one.add a2)
    let a4 := rnd ((Val.ofQ 1 2).mul a3)
    let b1 := rnd (z.mul z)
    let b2 := rnd ((Val.ofQ (-1) 2).mul b1)
    let b3 := step32 0x12 b2
    let b4 := rnd (b3.mul constQ)
    let c1 := rnd (z.mul b4)
    rnd (a4.add c1)
  | 3 =>
    let s := step32 0x15 z
    let t1 := rnd (one.sub s)
    let t2 := rnd (z.mul t1)
    let t3 := rnd (one.add t2)
    rnd (s.mul t3)
  | 4 =>
    let t := step32 0x14 z
    let t2 := rnd (t.mul t)
    rnd (one.sub t2)
  | 5 =>
    let s := step32 0x15 z
    let t1 := rnd (one.sub s)
    rnd (s.mul t1)
  | _ => step32 0x15 z

end Sys2Proof.Machine
end

