-- ==== Sys2Proof/Machine/Tiles.lean ====
section
/-! DEFINITION. Reading input tiles and writing output tiles of the matrix and vector engines: conversion, block scales,
counts, marks (03 R81 to R87; 04 R136; 06 R198; 09 R321). -/

namespace Sys2Proof.Machine

open Sys2Proof

/-- Order of two values that are not NaN. -/
def Val.lt (a b : Val) : Bool :=
  match a, b with
  | .nan, _ => false
  | _, .nan => false
  | .inf x, .inf y => x && !y
  | .inf x, .fin _ => x
  | .fin _, .inf y => !y
  | .fin x, .fin y => x.lt y

def Val.same (a b : Val) : Bool :=
  match a, b with
  | .nan, _ => false
  | _, .nan => false
  | .inf x, .inf y => x == y
  | .fin x, .fin y => x.eq y
  | _, _ => false

/-- Quotient (R169): a zero divisor has no sign. -/
def Val.div (a b : Val) : Val :=
  match a, b with
  | .nan, _ => .nan
  | _, .nan => .nan
  | .inf _, .inf _ => .nan
  | .inf x, .fin y => .inf (x != y.isNeg)
  | .fin _, .inf _ => Val.zero
  | .fin x, .fin y =>
    if y.isZero then (if x.isZero then .nan else .inf x.isNeg) else .fin (x.div y)

def Val.bit (b : Bool) : Val := if b then Val.ofQ 1 1 else Val.zero

/-- Table: VOP operations, on exact values. -/
def vopValue (op : Nat) (a b c : Val) : Res :=
  match op with
  | 0x00 => .val a
  | 0x01 => .val (a.add b)
  | 0x02 => .val (a.sub b)
  | 0x03 => .val (a.mul b)
  | 0x04 => .val ((a.mul b).add c)
  | 0x05 => .val (if a.isNan || b.isNan then .nan else if a.lt b then b else a)
  | 0x06 => .val (if a.isNan || b.isNan then .nan else if b.lt a then b else a)
  | 0x07 => .val a.abs
  | 0x08 => .val a.neg
  | 0x09 => .val (Val.bit (b.lt a))
  | 0x0A => .val (Val.bit (a.same b))
  | 0x0B => .val (if !c.isNan && !c.isZero then a else b)
  | 0x0C => .val (a.div b)
  | op => trans op a

/-- Formats that the vector engine reads and writes (R168). -/
def vecReads : List Nat := [0, 1, 2, 3, 4, 5, 6, 7, 8, 9, 10]
def vecWrites : List Nat := [0, 1, 2, 3, 4, 5, 7, 8, 9, 10]

/-- An output element before its conversion. -/
structure OutElem where
  ix : List Nat
  val : Res
  sat : Bool
  grid : Bool
  poison : Bool
  draw : Option Nat

def Counts.add (a b : Counts) : Counts :=
  { sat := a.sat + b.sat, grid := a.grid + b.grid, flush := a.flush + b.flush, nan := a.nan + b.nan }

/-- The counts of a converted element (R86, R136, R198). -/
def Conv.counts (c : Conv) (sat grid : Bool) : Counts :=
  { sat := if c.sat || sat then 1 else 0, grid := if grid then 1 else 0, flush := if c.flush then 1 else 0,
    nan := if c.nan then 1 else 0 }

def maxOpt (a b : Option Int) : Option Int :=
  match a, b with
  | some x, some y => some (max x y)
  | some x, none => some x
  | none, y => y

/-- What two parts of a block tell together. -/
def BlockMax.join (x b : BlockMax) : BlockMax := { x with nan := x.nan || b.nan, top := maxOpt x.top b.top, bad := x.bad || b.bad }

def blockJoin : List BlockMax → BlockMax → List BlockMax
  | [], b => [b]
  | x :: l, b => if x.key = b.key then x.join b :: l else x :: blockJoin l b

/-- The scale byte of a block (R87). -/
def BlockMax.scale (b : BlockMax) (f : Nat) : Nat :=
  if b.nan then 255
  else
    match b.top with
    | none => 127
    | some t =>
      let e := t - fmtEmax f + 127
      if e < 0 then 0 else if 254 < e then 254 else e.toNat

def OutElem.block (o : OutElem) (key : Nat) : BlockMax := { key := key, nan := o.val.isNan, top := o.val.log2, bad := o.poison }

/-- Converts a value into an element; `scale` is its block's scale byte. An element of a block whose scale is 0xFF counts as
a NaN produced and nothing else (R86). -/
def OutElem.conv (o : OutElem) (f : Nat) (scale : Option Nat) (sat : Bool) : Conv × Counts :=
  match scale with
  | none =>
    let c := o.val.apply fun v => convert f false v o.draw sat
    (c, c.counts o.sat o.grid)
  | some e =>
    let c := o.val.apply fun v => convertScaled f e v o.draw sat
    (c, if e = 255 then { Counts.zero with nan := 1 } else c.counts o.sat o.grid)

/-- The writes and counts of output elements, block scales given by key; `sx` gives an index in whose block an element's scale
byte stands; the granule of a scale that a poisoned element of its block enters is marked, also where the element is another
member's (R81, R301, R614). -/
def Desc.emit (d : Desc) (sat : Bool) (keyOf : OutElem → Nat) (sx : OutElem → List Nat) (blocks : List BlockMax)
    (os : List OutElem) : PondWrite × Counts :=
  os.foldl (fun acc o =>
    let block := if d.scaled then blocks.find? (fun b => b.key == keyOf o) else none
    let scale := if d.scaled then some ((block.map fun b => b.scale d.fmt).getD 127) else none
    let marks := if o.poison then d.marksAt o.ix (sx o)
      else if (block.map BlockMax.bad).getD false then [d.scaleAt (sx o) / 32] else []
    let (c, n) := o.conv d.fmt scale sat
    let cells := d.elemCells o.ix c.bits ++ (match scale with | some e => d.scaleCells (sx o) e | none => [])
    ({ cells := acc.1.cells ++ cells, bad := acc.1.bad ++ marks }, acc.2.add n)) (PondWrite.none, Counts.zero)

/-- Key of an element's block in its own tile. -/
def Desc.ownBlock (d : Desc) (o : OutElem) : Nat := d.scaleAt o.ix

/-- Writes of a whole tile whose blocks are its own. -/
def Desc.emitOwn (d : Desc) (sat : Bool) (os : List OutElem) : PondWrite × Counts :=
  let blocks := if d.scaled then os.foldl (fun l o => blockJoin l (o.block (d.ownBlock o))) [] else []
  d.emit sat d.ownBlock OutElem.ix blocks os

/-- An output element with a value that is already formed. -/
def outOf (ix : List Nat) (v : Val) (sat grid poison : Bool) : OutElem :=
  { ix := ix, val := .val v, sat := sat, grid := grid, poison := poison, draw := none }

/-! ## Output elements as data (R124, R158, R171) -/

def Val.toHeld (v : Val) : HeldVal :=
  match v with
  | .nan => ⟨.nan, 0, 1⟩
  | .inf neg => ⟨if neg then .negInf else .posInf, 0, 1⟩
  | .fin q => ⟨.finite, q.num, q.den⟩

def HeldVal.val (h : HeldVal) : Val := h.kind.val ⟨h.num, h.den⟩

/-- An output element with a value that is already formed. -/
def HeldOut.of (tile : Nat) (ix : List Nat) (v : Val) (sat grid poison : Bool) (draw : Option Nat) : HeldOut :=
  { tile := tile, ix := ix, op := 0, a := v.toHeld, b := Val.zero.toHeld, z := Val.zero.toHeld, sat := sat, grid := grid,
    poison := poison, draw := draw }

def HeldOut.elem (h : HeldOut) : OutElem :=
  { ix := h.ix, val := vopValue h.op h.a.val h.b.val h.z.val, sat := h.sat, grid := h.grid, poison := h.poison,
    draw := h.draw }

/-- Reads the pieces of a running command up to the `n`-th, each with `piece` (R131, R171). -/
def readPieces (piece : State → Run → Nat → State × Run) (s : State) (r : Run) (n : Nat) : State × Run :=
  let x := ((List.range n).drop r.pos).foldl (fun x u => piece x.1 x.2 u) (s, r)
  (x.1, { x.2 with pos := max r.pos n })

/-- Works through the runs of a unit: each reads the pieces whose cycles have come. -/
def State.readRuns (s : State) (cyc : Reg) (piece : State → Run → Nat → State × Run) (rs : List Run) : State × List Run :=
  rs.foldl (fun x r =>
    let y := readPieces piece x.1 r (r.readBy cyc)
    (y.1, x.2 ++ [y.2])) (s, [])

def PondWrite.append (a b : PondWrite) : PondWrite := { cells := a.cells ++ b.cells, bad := a.bad ++ b.bad }

/-- Whether an index lies within a tile. -/
def Desc.within (d : Desc) (ix : List Nat) : Bool := (List.range 5).all fun k => ix.getD k 0 < d.e k

/-- An element of an input tile in the pond; an index beyond its extents reads +0 (R262). -/
def State.inElem (s : State) (c : Nat) (d : Desc) (ix : List Nat) : Val × Bool :=
  if d.within ix then
    let x := d.read (pondReader (s.core c).pond) ix
    (d.value x, x.poison)
  else (Val.zero, false)

/-- Whether a tile holds a poisoned element among some indices. -/
def State.anyBad (s : State) (c : Nat) (d : Desc) (ixs : List (List Nat)) : Bool := ixs.any fun ix => (s.inElem c d ix).2

/-- Adds counts to four cumulative registers that follow each other (R137, R198). -/
def State.addCounts (s : State) (base : Nat) (n : Counts) : State :=
  (((s.addFld base 0 64 n.sat).addFld (base + 8) 0 64 n.grid).addFld (base + 16) 0 64 n.flush).addFld (base + 24) 0 64 n.nan

/-- The four counts as a record (R198). -/
def Counts.bytes (n : Counts) : List Byte := leBytes 4 n.sat ++ leBytes 4 n.grid ++ leBytes 4 n.flush ++ leBytes 4 n.nan

end Sys2Proof.Machine
end

