-- ==== Sys2Proof/Machine/Matrix.lean ====
section
/-! DEFINITION. The matrix engine: MMA, DRAIN, WSTORE, WLOAD and the drain record (04_matrix_array; 05 R150 to R158;
10 R357 to R360). -/

namespace Sys2Proof.Machine

open Sys2Proof

/-! ## Well registers (R108 to R113) -/

/-- The integer of a well register element. -/
def Elem.int (x : Elem) : Int := x.n.toInt

/-- Adds a contribution on the grid of an anchor: rounds it, marks GRID, clamps it (R108, R109). -/
def Elem.promote (x : Elem) (anchor : Int) (v : Val) : Elem :=
  match v with
  | .fin q =>
    if q.isZero then x
    else
      let t := (q.scale (126 - anchor)).rne
      let exact := (wellValue t anchor).eq q
      let lim : Int := 2 ^ 127 - 1
      let clamp := lim < t.natAbs
      let t := if clamp then (if t < 0 then -lim else lim) else t
      { x with n := x.n + BitVec.ofInt 160 t, grid := x.grid || !exact, overRange := x.overRange || clamp }
  | v => { x with special := x.special.combine v.special }

/-- The total of an exact element as R121 leaves it: special state, integer, whether it was saturated. -/
def Elem.total (x : Elem) : Int × Bool :=
  let n := x.int
  let lim : Int := 2 ^ 127 - 1
  if x.overRange || lim < n.natAbs then (if n < 0 then -lim else lim, true) else (n, false)

/-! ## Copybook mode (R357, R358) -/

/-- Rounds to FP32, telling whether the rounding was inexact. -/
def rfp32 (v : Val) : BitVec 32 × Bool :=
  let w := toFp32 v
  let exact := match v, ofFp32 w with
    | .fin a, .fin b => a.eq b
    | .fin _, _ => false
    | _, _ => true
  (BitVec.ofNat 32 w, !exact)

def fp (w : BitVec 32) : Val := ofFp32 w.toNat

/-- carry(s) (R358). -/
def copyCarry : List (Option (BitVec 32)) → BitVec 32 → List (Option (BitVec 32)) × Bool
  | [], _ => ([], false)
  | none :: ls, s => (some s :: ls, false)
  | some x :: ls, s =>
    let (t, g) := rfp32 ((fp x).add (fp s))
    let (rest, g') := copyCarry ls t
    (none :: rest, g || g')

/-- add_product(x) (R358). -/
def Elem.copyAdd (x : Elem) (v : Val) : Elem :=
  let (t, g1) := rfp32 v
  let (acc, g2) := rfp32 ((fp x.acc).add (fp t))
  let kc := x.kc + 1
  let lev := if x.lev.isEmpty then List.replicate 32 none else x.lev
  if kc % 64 = 0 then
    let (lev, g3) := copyCarry lev acc
    { x with acc := 0, lev := lev, kc := kc, grid := x.grid || g1 || g2 || g3 }
  else { x with acc := acc, kc := kc, lev := lev, grid := x.grid || g1 || g2 }

/-- total() (R358). -/
def Elem.copyTotal (x : Elem) : BitVec 32 × Bool :=
  let start : Option (BitVec 32) := if x.kc % 64 = 0 then none else some x.acc
  let r := x.lev.foldl (fun (st : Option (BitVec 32) × Bool) l =>
    match l with
    | none => st
    | some y =>
      match st.1 with
      | none => (some y, st.2)
      | some t => (let (z, g) := rfp32 ((fp y).add (fp t)); (some z, st.2 || g))) (start, false)
  (r.1.getD 0, r.2)

/-! ## Totals of a bank -/

/-- A total as a drain sees it: value, saturated mark, grid mark, poison (R121, R360). -/
structure Total where
  val : Val
  sat : Bool
  grid : Bool
  poison : Bool

def Bank.elem (b : Bank) (i j : Nat) : Elem := mget b.elems Elem.zero (i * 48 + j)

def Bank.total (b : Bank) (i j : Nat) : Total :=
  let x := b.elem i j
  if b.copybook then
    let (t, g) := x.copyTotal
    { val := fp t, sat := false, grid := x.grid || g, poison := x.poison }
  else
    let (n, overRange) := x.total
    { val := x.special.val (wellValue n b.anchor), sat := overRange || x.sat, grid := x.grid, poison := x.poison }

/-- Sounding bin of a total (R139). -/
def Total.bin (t : Total) (anchor : Int) : Nat :=
  match t.val with
  | .fin q =>
    if t.sat then 63
    else if q.isZero then 64
    else
      let b := q.log2 - anchor + 63
      if b < 0 then 0 else if 63 < b then 63 else b.toNat
  | _ => 65

/-! ## Operands of an MMA (R102 to R108, R151 to R153, R259, R260) -/

/-- Pieces of a format (Table: Operand decomposition). -/
def fmtPieces (f : Nat) : Nat := if f = 9 then 3 else if f = 8 then 2 else 1

/-- Passes per element pair (Table: Passes per element pair). -/
def passes (fa fb : Nat) (copybook : Bool) : Nat :=
  if copybook then 16
  else if fmtPieces fa = 3 ∨ fmtPieces fb = 3 then 9
  else if fmtPieces fa = 2 ∨ fmtPieces fb = 2 then 2 else 1

/-- One K step of a row of an operand: element bits, scale byte, poison. -/
abbrev Piece : Type := Nat × Nat × Bool

def pieceZero : Piece := (0, 127, false)

/-- The operand descriptor of an MMA: its block dimension is its K dimension (R260). -/
def State.mmaDesc (s : State) (c h kdim : Nat) : Desc :=
  let d := ((s.desc c (reqHandle h)).inPond).withFmt matrixFmts
  { d with bdim := kdim }

/-- K step `i` of row `r` of an operand, as the pond holds it in this cycle: zero at or beyond its K extent (R153, R259). -/
def State.operandPiece (s : State) (c : Nat) (d : Desc) (kdim i r : Nat) : Piece :=
  if i < d.e kdim then
    let x := d.read (pondReader (s.core c).pond) (if kdim = 0 then [i, r, 0, 0, 0] else [r, i, 0, 0, 0])
    (x.bits, x.scale.getD 127, x.poison)
  else pieceZero

/-- Rows of an operand: at most 48 (R259). -/
def operandRows (d : Desc) (kdim : Nat) : Nat := min 48 (d.e (1 - kdim))

/-- Value of an operand element. -/
def pieceVal (f : Nat) (scaled : Bool) (x : Piece) : Val := decodeElem f (if scaled then some x.2.1 else none) x.1

/-- Sum of the products of a block pair under R93 and R109. -/
def blockSum (a b : List Val) : Val := (a.zip b).foldl (fun t x => t.add (x.1.mul x.2)) Val.zero

/-- The blocks of 32 of a list, the last padded with zeros (R108). -/
def blocks32 (n : Nat) (l : List Val) : List (List Val) :=
  (List.range n).map fun i => let b := (l.drop (32 * i)).take 32; b ++ List.replicate (32 - b.length) Val.zero

/-- One cell's work for an MMA (R105 to R109, R358): `short` tells the short-run path. -/
def Elem.accumulate (x : Elem) (b : Bank) (short : Bool) (nb : Nat) (ar br : List Val) : Elem :=
  let as := blocks32 nb ar
  let bs := blocks32 nb br
  (as.zip bs).foldl (fun x p =>
    if b.copybook then (p.1.zip p.2).foldl (fun x q => x.copyAdd (q.1.mul q.2)) x
    else if short then x.promote b.anchor (blockSum p.1 p.2)
    else (p.1.zip p.2).foldl (fun x q => x.promote b.anchor (q.1.mul q.2)) x) x

/-- Puts an element into a bank, in canonical form. -/
def Bank.putElem (b : Bank) (k : Nat) (x : Elem) : Bank :=
  { b with elems := if x = Elem.zero then mdel b.elems k else mput b.elems k x }

/-- A matrix product into a bank; elements named by a residue mismatch are poisoned (R113, R141). The integer of such an element is
the one of the product without the error: DESIGN CHOICE, R141 states the mark only (log 53). -/
def Bank.multiply (b : Bank) (short : Bool) (nb : Nat) (x y : Operand) (mis : List Nat) : Bank :=
  let av := x.rows.map fun r => (r.map (pieceVal x.fmt x.scaled), r.any fun p => p.2.2)
  let bv := y.rows.map fun r => (r.map (pieceVal y.fmt y.scaled), r.any fun p => p.2.2)
  (List.range av.length).foldl (fun b i =>
    (List.range bv.length).foldl (fun b j =>
      let a := av.getD i ([], false)
      let w := bv.getD j ([], false)
      let x := (b.elem i j).accumulate b short nb a.1 w.1
      b.putElem (i * 48 + j) { x with poison := x.poison || a.2 || w.2 || mis.contains (i * 48 + j) }) b) b

def Core.bank (k : Core) (n : Nat) : Bank := if n = 0 then k.bank0 else k.bank1

def Core.setBank (k : Core) (n : Nat) (b : Bank) : Core := if n = 0 then { k with bank0 := b } else { k with bank1 := b }

/-- The bank that an MMA with CLEAR leaves before it adds (R112, R114, R357). -/
def State.clearedBank (s : State) (c : Nat) (ws : List Word) (old : Bank) : Bank :=
  let mode := cmdField ws 0 14 2
  let anchor := if mode = 0 then signedOf 11 (cmdField ws 0 16 11)
    else if mode = 1 then signedOf 11 (s.fld (cw c (0x81020 + 8 * cmdField ws 0 27 3)) 0 11) else 0
  { anchor := anchor, copybook := decide (2 ≤ mode), valid := true, elems := [], inflight := old.inflight }

/-- The wave of an MMA that a member takes from the operand network (R152). -/
def ActiveSpan.wave (a : ActiveSpan) (seq : Nat) (isA : Bool) (band : Nat) : Option Wave :=
  a.waves.find? fun w => w.seq == seq && w.isA == isA && w.band == band

/-- One member has taken a wave. -/
def ActiveSpan.takeWave (a : ActiveSpan) (seq : Nat) (isA : Bool) (band : Nat) : ActiveSpan :=
  let ws := a.waves.map fun w => if w.seq = seq ∧ w.isA = isA ∧ w.band = band then { w with left := w.left - 1 } else w
  { a with waves := ws.filter fun w => w.left != 0 }

/-- Whether the operands of a member's MMA are at hand: its own, or in the network (R151, R152). -/
def State.mmaFed (s : State) (c k : Nat) : Bool :=
  let (i, j) := s.local c
  let n := (s.core c).mmaSeq
  match s.spanOf c with
  | some a => k = 0 || ((i = 0 || (a.wave n true j).isSome) && (j = 0 || (a.wave n false i).isSome))
  | none => true

/-- Injects an operand band for the members east or north of the edge (R151, R152). -/
def ActiveSpan.inject (a : ActiveSpan) (w : Wave) : ActiveSpan := if w.left = 0 then a else { a with waves := a.waves ++ [w] }

/-- The format of an operand and its rows before any K step: from the operand network, where the member ignores its own handle (R151,
R152), or of its own tile. -/
def Operand.start (d : Desc) (kdim : Nat) (w : Option Wave) : Operand :=
  match w with
  | some w => { w.op with rows := List.replicate w.op.rows.length [] }
  | .none => { fmt := d.fmt, scaled := d.scaled, rows := List.replicate (operandRows d kdim) [] }

/-- The operand with K step `i` of each of its rows. -/
def Operand.add (o : Operand) (ps : List Piece) : Operand :=
  { o with rows := (o.rows.zip ps).map fun x => x.1 ++ [x.2] }

/-- K step `i` of an operand: what the edge of the span has injected of it, or what the pond holds (R151 to R153). -/
def State.kStep (s : State) (c : Nat) (d : Desc) (kdim i : Nat) (w : Option Wave) : List Piece :=
  match w with
  | some w => w.op.rows.map fun r => r.getD i pieceZero
  | none => (List.range (operandRows d kdim)).map fun r => s.operandPiece c d kdim i r

/-- The turn option of an MMA as the dimension of K in A and in B (R104). -/
def mmaTurns (ws : List Word) : Nat × Nat := (if cmdBit ws 0 11 then 1 else 0, if cmdBit ws 0 12 then 0 else 1)

/-- The waves that a member's MMA takes: none at the edge where the member reads its own pond (R151). -/
def State.mmaWaves (s : State) (c seq : Nat) : Option Wave × Option Wave :=
  let (i, j) := s.local c
  let sp := s.spanOf c
  (if i = 0 then none else sp.bind fun a => a.wave seq true j, if j = 0 then none else sp.bind fun a => a.wave seq false i)

/-- The edge injects one K step of a band (R153). -/
def ActiveSpan.feed (a : ActiveSpan) (seq : Nat) (isA : Bool) (band : Nat) (ps : List Piece) : ActiveSpan :=
  { a with waves := a.waves.map fun w =>
      if w.seq = seq ∧ w.isA = isA ∧ w.band = band then { w with op := w.op.add ps } else w }

/-- The span with a member's K step fed to the members behind it, and its waves given up after the last one (R152, R153). -/
def State.passOn (s : State) (c seq : Nat) (pa pb : List Piece) (last : Bool) : State :=
  let (i, j) := s.local c
  match s.spanOf c with
  | none => s
  | some x => s.modSpan x.corner fun x =>
      let x := if i = 0 then x.feed seq true j pa else if last then x.takeWave seq true j else x
      if j = 0 then x.feed seq false i pb else if last then x.takeWave seq false i else x

/-- K step `i` of an MMA: it is read, or taken from the operand network, in cycle start + p × i (R153). With the last one the
products enter the bank, whose elements count as being written until the completion (R132). -/
def State.mmaPiece (c : Nat) (s : State) (r : Run) (i : Nat) : State × Run :=
  let ws := r.words
  let (ta, tb) := mmaTurns ws
  let da := s.mmaDesc c (cmdField ws 2 0 12) ta
  let db := s.mmaDesc c (cmdField ws 2 12 12) tb
  let (wa, wb) := s.mmaWaves c r.seq
  let pa := s.kStep c da ta i wa
  let pb := s.kStep c db tb i wb
  let bad := fun (ps : List Piece) => ps.any fun x => x.2.2
  let s := if wa.isNone then s.readKill c da (bad pa) else s
  let s := if wb.isNone then s.readKill c db (bad pb) else s
  let last := decide (i + 1 = r.units)
  let s := s.passOn c r.seq pa pb last
  let r := { r with opA := r.opA.add pa, opB := r.opB.add pb }
  if !last then (s, r)
  else
    let short := fmtPieces r.opA.fmt = 1 && fmtPieces r.opB.fmt = 1 && (r.opA.scaled || r.opB.scaled)
    let s := s.modCore c fun k =>
      k.setBank r.bank ((k.bank r.bank).multiply short ((r.units + 31) / 32) r.opA r.opB r.marked)
    (s, { r with opA := { r.opA with rows := [] }, opB := { r.opB with rows := [] } })

/-- The array reads the K steps whose cycles have come (R153). -/
def State.arrayAdvance (s : State) (c : Nat) : State :=
  if s.freezeDue c then s
  else
    let (s, rs) := s.readRuns (s.core c).cyc (State.mmaPiece c) (s.core c).array.runs
    s.modCore c fun k => { k with array := { k.array with runs := rs } }

/-- The effect of an MMA at its start: the cleared bank, and the operands' formats. One residue mismatch at most comes with a command
and names every element that it touches: DESIGN CHOICE, R141 counts each (log 53). -/
def State.mmaStart (s : State) (c : Nat) (ws : List Word) (mis : Option Mismatch) : State :=
  let k := s.core c
  let (i, j) := s.local c
  let (ta, tb) := mmaTurns ws
  let n := cmdField ws 3 0 24
  let bn := cmdField ws 0 13 1
  let old := k.bank bn
  let bank := if cmdBit ws 0 10 then s.clearedBank c ws old else old
  let bank := { bank with inflight := bank.inflight + 1 }
  let run := { Run.new ws 0 with bank := bn, start := k.cyc, seq := k.mmaSeq }
  if n = 0 then
    s.setCore c { k.setBank bn bank with
      mmaSeq := k.mmaSeq + 1, array := { busyUntil := k.cyc + 1, runs := k.array.runs ++ [{ run with due := k.cyc + 1 }] } }
  else
    let seq := k.mmaSeq
    let (wa, wb) := s.mmaWaves c seq
    let a := Operand.start (s.mmaDesc c (cmdField ws 2 0 12) ta) ta wa
    let b := Operand.start (s.mmaDesc c (cmdField ws 2 12 12) tb) tb wb
    let p := passes a.fmt b.fmt bank.copybook
    let occ := p * (32 * ((n + 31) / 32))
    let run := { run with due := k.cyc + BitVec.ofNat 64 (occ + 100), unit := p, units := n, rows := a.rows.length,
                          cols := b.rows.length, opA := a, opB := b,
                          marked := match mis with | some m => m.elems | none => [] }
    let s := s.modCore c fun k =>
      { k.setBank bn bank with
        mmaSeq := seq + 1, array := { busyUntil := k.cyc + BitVec.ofNat 64 occ, runs := k.array.runs ++ [run] } }
    let s := match s.spanOf c with
      | none => s
      | some x => s.modSpan x.corner fun x =>
          let x := if i = 0 then x.inject { seq := seq, isA := true, band := j, op := a, left := x.w - 1 } else x
          if j = 0 then x.inject { seq := seq, isA := false, band := i, op := b, left := x.h - 1 } else x
    let s := s.arrayAdvance c
    match mis with
    | some m => s.residue c 1 m.place.toNat
    | none => s

/-- MMA starts (R112, R151, R258). -/
def execMma (c : Nat) (mis : Option Mismatch) (s : State) : Answer :=
  .next (s.start c 0 1 (fun ws => s.mmaFed c (cmdField ws 3 0 24)) fun ws s => s.mmaStart c ws mis)

/-- MMA completes (R131, R132). -/
def execMmaComplete (c : Nat) (s : State) : Answer :=
  let s := s.arrayAdvance c
  match s.completing c 1 (s.core c).array.runs with
  | none => .next s
  | some r =>
    let s := s.modCore c fun k =>
      let b := k.bank r.bank
      { k.setBank r.bank { b with inflight := b.inflight - 1 } with array := { k.array with runs := dropRun r k.array.runs } }
    .next (s.unpin c r.words)

/-! ## The drain path -/

/-- The bank as a drain-path command reads it: free values where a command still writes it (R29, R132). -/
def State.readBank (s : State) (c n : Nat) : Bank × State := s.freeBank ((s.core c).bank n) ((s.core c).writing n)

/-- Clamp of M and N (R261). -/
def clamp48 (n : Nat) : Nat := max 1 (min 48 n)

/-- A drain-path command starts: the unit is taken for `occ` cycles, and the run is due after `comp`. -/
def State.pathRun (s : State) (c : Nat) (r : Run) (occ comp : Nat) : State :=
  s.modCore c fun k =>
    { k with pathSeq := k.pathSeq + 1,
             path := { busyUntil := k.cyc + BitVec.ofNat 64 occ,
                       runs := k.path.runs ++ [{ r with start := k.cyc, due := k.cyc + BitVec.ofNat 64 comp,
                                                        seq := k.pathSeq }] } }

/-- A command without elements occupies its unit for one cycle (R285). -/
def State.pathIdle (s : State) (c : Nat) (ws : List Word) : State := s.pathRun c (Run.new ws 0) 1 1

/-- Positions (row, column) of the tile that a WLOAD reads. -/
def tileCells (m n : Nat) : List (Nat × Nat) := (List.range m).flatMap fun i => (List.range n).map fun j => (i, j)

/-- Positions of one row. -/
def rowCells (i n : Nat) : List (Nat × Nat) := (List.range n).map fun j => (i, j)

def binsAdd (a b : List Nat) : List Nat := (List.range 66).map fun i => a.getD i 0 + b.getD i 0

/-- The bins of a list of totals. -/
def binsOf (ts : List Total) (anchor : Int) : List Nat :=
  (List.range 66).map fun i => (ts.filter fun t => t.bin anchor == i).length

/-- Record address of DRAIN and WSTORE, where the record option is set (R138, R257). -/
def drainRecord (ws : List Word) : Option Nat := if cmdBit ws 0 13 then some (cmdField ws 3 0 18 / 32 * 32) else none

/-- An element's block in the output of a span, as one number: member (i, j) owns the rows from 48j and the columns from 48i
(R124, R150). -/
def Desc.spanBlock (d : Desc) (i j : Nat) (ix : List Nat) : Nat :=
  let x := 48 * i + ix.getD 0 0
  let y := 48 * j + ix.getD 1 0
  (if d.bdim = 0 then x / 32 else x) + (if d.bdim = 1 then y / 32 else y) * 2 ^ 27

/-- An index in whose block of the member's own scale plane the scale of an element's output block stands: the plane's bytes
hold the blocks that the tile meets, in their order. DESIGN CHOICE where a member's tile starts inside a block: R76 lays the
plane out by the tile's own indices, and no rule says which of its bytes holds a block that starts before the tile (log 44). -/
def Desc.spanScaleIx (d : Desc) (i j : Nat) (ix : List Nat) : List Nat :=
  let at_ := fun (p x : Nat) => ((48 * p + x) / 32 - 48 * p / 32) * 32
  if d.bdim = 0 then ix.set 0 (at_ i (ix.getD 0 0)) else if d.bdim = 1 then ix.set 1 (at_ j (ix.getD 1 0)) else ix

/-- Whether an output block crosses the edge between the tiles of two members that write the output (R150, R158, R284). -/
def ActiveSpan.sharesBlock (a : ActiveSpan) (d : Desc) (m n : Nat) : Bool :=
  let meets := fun (members len : Nat) => (List.range (members - 1)).any fun p => (48 * p + len - 1) / 32 = 48 * (p + 1) / 32
  if d.bdim = 0 then (d.edge = 0 || d.edge = 2) && meets a.w n
  else if d.bdim = 1 then (d.edge = 0 || d.edge = 1) && meets a.h m
  else false

/-- Adds what a member's elements tell of its blocks to the exchange of a span (R124); entries of drains that a queue cannot hold any
more are dropped. -/
def ActiveSpan.shareMax (a : ActiveSpan) (seq : Nat) (bs : List BlockMax) : ActiveSpan :=
  { a with blockMax := (a.blockMax.filter fun e => seq < e.1 + 64) ++ bs.map fun b => (seq, b) }

/-- The blocks of a member as the exchange leaves them. -/
def ActiveSpan.merged (a : ActiveSpan) (seq : Nat) (bs : List BlockMax) : List BlockMax :=
  bs.map fun b => (a.blockMax.filter fun e => e.1 == seq && e.2.key == b.key).foldl (fun b e => b.join e.2) b

/-- Whether a drain of `m` rows and `n` columns by member `p` meets a block that one by member `q` meets (R124, R150). -/
def Desc.sharesWith (d : Desc) (m n : Nat) (p q : Nat × Nat) : Bool :=
  let meets := fun (u v len : Nat) => decide (48 * u / 32 ≤ (48 * v + len - 1) / 32) && decide (48 * v / 32 ≤ (48 * u + len - 1) / 32)
  if d.bdim = 0 then p.2 == q.2 && meets p.1 q.1 n else if d.bdim = 1 then p.1 == q.1 && meets p.2 q.2 m else p == q

/-- The output descriptor of a DRAIN. -/
def State.drainOut (s : State) (c : Nat) (ws : List Word) : Desc :=
  ((s.desc c (reqHandle (cmdField ws 2 0 12))).inPond).withFmt drainFmts

/-- Width class d of Table: Matrix engine durations. -/
def drainWidth (f : Nat) : Nat := if fmtBits f ≤ 8 then 1 else if fmtBits f = 16 then 2 else 4

/-- Moves a word from a grid to another (R126): integer, whether bits were lost. -/
def regrid (n : Int) (from_ toExp : Int) : Int × Bool :=
  if from_ < toExp then
    let q : Q := ⟨n, 2 ^ (toExp - from_).toNat⟩
    let t := q.rne
    (t, t * 2 ^ (toExp - from_).toNat != n)
  else (n * 2 ^ (from_ - toExp).toNat, false)

/-- One row of a DRAIN as its read cycle finds the bank (R120 to R125, R131): its bins, and its elements, converted at once
unless they wait for a block scale. A z tile is read with the row: DEDUCED, R131 names the bank only (log 5). -/
def State.drainRow (s : State) (c : Nat) (r : Run) (i : Nat) : State × Run :=
  let ws := r.words
  let d := s.drainOut c ws
  let n := clamp48 (d.e 0)
  let fn := cmdField ws 0 16 3
  let sr := cmdBit ws 0 12
  let (x, y) := s.local c
  let (b, s) := s.readBank c r.bank
  let zh := cmdField ws 2 12 12
  let dz := ((s.desc c zh).inPond).withFmt vecReads
  let useZ := fn ≠ 0 ∧ zh ≠ 0xFFF
  let step := s.fld (vxStep c) 0 48
  let cells := if s.takesPart c d then rowCells i n else []
  let mo := d.member x y d.ext
  let zs := cells.map fun p => if useZ then s.inElem c dz [p.2, p.1, 0, 0, 0] else (Val.zero, false)
  let ts := cells.map fun p => b.total p.1 p.2
  let outs := (cells.zip (ts.zip zs)).map fun p =>
    let ix := [p.1.2, p.1.1, 0, 0, 0]
    let t := p.2.1
    let v := if fn = 0 then t.val else t.val.mul (fusedDerivative (min fn 6) p.2.2.1)
    let dr := if sr then some (r.slot.draw step (d.logical (cmdIoff ws) (addIx ix mo)) (p.1.1 * n + p.1.2) 1 0) else none
    HeldOut.of 0 ix v t.sat t.grid (t.poison || p.2.2.2) dr
  let s := if useZ then s.readKill c dz (zs.any Prod.snd) else s
  let r := { r with bins := binsAdd r.bins (binsOf ts b.anchor) }
  if !d.scaled then
    let (w, cn) := d.emitOwn (cmdBit ws 0 11) (outs.map HeldOut.elem)
    (s, { r with write := r.write.append w, counts := r.counts.add cn })
  else
    let r := { r with outs := r.outs ++ outs }
    if i + 1 < r.units then (s, r)
    else if r.cross then
      let blocks := (r.outs.map HeldOut.elem).foldl (fun l o => blockJoin l (o.block (d.spanBlock x y o.ix))) []
      match s.spanOf c with
      | some a => (s.modSpan a.corner fun a => a.shareMax r.seq blocks, r)
      | none => (s, r)
    else
      let (w, cn) := d.emitOwn (cmdBit ws 0 11) (r.outs.map HeldOut.elem)
      (s, { r with write := w, counts := cn, outs := [] })

/-- A bank element as a well word: integer and tag [1:0] SPECIAL, [2] SAT, [3] GRID (R92, R126): the element as R121 leaves it,
moved to the tile's grid and saturated there; the word of a special element is zero. A copybook bank writes NaN with a zero
word; that such a tag carries neither SAT nor GRID, so that the element counts as a NaN produced and as nothing else, is a
DESIGN CHOICE: R129 names SPECIAL and the word only (log 55). -/
def Bank.word (b : Bank) (i j : Nat) (anchor : Int) : Int × Nat :=
  let x := b.elem i j
  if b.copybook then (0, 3)
  else
    let (n, overRange) := x.total
    let (t, lost) := regrid n b.anchor anchor
    let lim : Int := 2 ^ 127 - 1
    let sat2 := decide (lim < t.natAbs)
    let t := if sat2 then (if t < 0 then -lim else lim) else t
    let tag := x.special.code + (if overRange || x.sat || sat2 then 4 else 0) + (if x.grid || lost then 8 else 0)
    (if x.special = .finite then t else 0, tag)

/-- The well tile of a WSTORE or WLOAD. -/
def State.wellTile (s : State) (c : Nat) (ws : List Word) : Desc := ((s.desc c (reqHandle (cmdField ws 2 0 12))).inPond).withFmt [11]

/-- One row of a WSTORE (R126, R129, R136, R139); row i is read in cycle start + 8 × i: DEDUCED, the row of a DRAIN (log 5). -/
def State.wstoreRow (s : State) (c : Nat) (r : Run) (i : Nat) : State × Run :=
  let d := s.wellTile c r.words
  let (b, s) := s.readBank c r.bank
  let cells := if s.takesPart c d then rowCells i (clamp48 (d.e 0)) else []
  let one := fun (acc : PondWrite × Counts) (x : Nat × Nat) =>
    let ix := [x.2, x.1, 0, 0, 0]
    let (v, tag) := b.word x.1 x.2 d.anchor
    let w : PondWrite := { cells := acc.1.cells ++ d.elemCells ix (toSigned 128 v) ++ d.tagCells ix tag,
                           bad := acc.1.bad ++ (if (b.elem x.1 x.2).poison then d.elemGranules ix else []) }
    (w, acc.2.add { sat := tag / 4 % 2, grid := tag / 8 % 2, flush := 0, nan := if tag % 4 = 3 then 1 else 0 })
  let (w, cn) := cells.foldl one (PondWrite.none, Counts.zero)
  let bins := if b.copybook then (List.range 66).map fun i => if i = 65 then cells.length else 0
    else binsOf (cells.map fun x => b.total x.1 x.2) b.anchor
  (s, { r with write := r.write.append w, counts := r.counts.add cn, bins := binsAdd r.bins bins })

/-- A row of a command of the drain path. -/
def State.pathPiece (c : Nat) (s : State) (r : Run) (i : Nat) : State × Run :=
  if r.code = 2 then s.drainRow c r i else if r.code = 4 then s.wstoreRow c r i else (s, r)

/-- The drain path reads the rows whose cycles have come (R131). -/
def State.pathAdvance (s : State) (c : Nat) : State :=
  if s.freezeDue c then s
  else
    let k := s.core c
    let (s, rs) := s.readRuns k.cyc (State.pathPiece c) k.path.runs
    s.modCore c fun k => { k with path := { k.path with runs := rs } }

/-- The anchor field of a drain record (R138, R129). -/
def Bank.recordAnchor (b : Bank) : Int := if b.copybook then 0 else b.anchor

/-- The effect of a DRAIN at its start. -/
def State.drainStart (s : State) (c : Nat) (ws : List Word) : State :=
  let d := s.drainOut c ws
  if d.count = 0 then s.pathIdle c ws
  else
    let m := clamp48 (d.e 1)
    let n := clamp48 (d.e 0)
    let fn := cmdField ws 0 16 3
    let sr := cmdBit ws 0 12
    let k := s.core c
    let bn := cmdField ws 0 10 1
    let slotN := d.slotOf (cmdField ws 0 19 4)
    let cross := d.scaled && (match s.spanOf c with | some a => a.sharesBlock d m n | none => false)
    let occ := m * drainWidth d.fmt
    let comp := occ + 14 + (if fn = 0 then 0 else 8) + (if sr then 4 else 0) + (if d.scaled then 40 else 0) +
      (if cross then 10 else 0)
    let run := { Run.new ws 0 with bank := bn, unit := drainWidth d.fmt, units := m, cross := cross, slot := k.slot slotN,
                                   anchor := (k.bank bn).recordAnchor, record := drainRecord ws, bins := binsOf [] 0,
                                   cursor := if sr then k.cursorAfter slotN (m * n) else none }
    (s.pathRun c run occ comp).pathAdvance c

def execDrain (c : Nat) (s : State) : Answer :=
  .next (s.start c 0 2 (fun _ => true) fun ws s => s.drainStart c ws)

/-- A member's part of a drain record joins the sum of its span (R138, R157). -/
def ActiveSpan.addDrain (a : ActiveSpan) (c seq : Nat) (cyc : Reg) (cn : Counts) (bins : List Nat) (anchor : Int) (addr : Nat) :
    ActiveSpan :=
  let far := (a.y0 + a.h - 1) * 32 + a.x0 + a.w - 1
  let due := cyc + 4 + BitVec.ofNat 64 (5 * a.diameter)
  if a.drains.any (fun x => x.seq == seq) then
    { a with drains := a.drains.map fun (x : DrainSum) =>
        if x.seq = seq then
          { x with left := x.left - 1, counts := x.counts.add cn, bins := binsAdd x.bins bins,
                   addrs := x.addrs ++ [(c, addr)], due := if c = far then due else x.due }
        else x }
  else
    { a with drains := a.drains ++ [{ seq := seq, left := a.w * a.h - 1, counts := cn, bins := bins, anchor := anchor,
                                      addrs := [(c, addr)], due := due }] }

/-- Completion of a DRAIN or WSTORE: the tile is written, counts and cursor move, the record gathers (R131, R137, R138). -/
def State.pathDone (s : State) (c : Nat) (r : Run) (w : PondWrite) (cn : Counts) : State :=
  let s := s.pondApply c w
  let s := (s.modCore c fun k => { k with path := { k.path with runs := dropRun r k.path.runs } }.putCursor r.cursor)
  let s := (s.addCounts (cw c 0x81080) cn).unpin c r.words
  match r.record, s.spanOf c with
  | some addr, some a => s.modSpan a.corner fun a => a.addDrain c r.seq (s.core c).cyc cn r.bins r.anchor addr
  | _, _ => s

/-- Whether every member that shares a block of a drain with this one has read its rows (R124). -/
def State.drainShared (s : State) (c : Nat) (r : Run) : Bool :=
  let d := s.drainOut c r.words
  match s.spanOf c with
  | some a => (a.members.filter fun m => d.sharesWith r.units (clamp48 (d.e 0)) (s.local c) (s.local m)).all fun m =>
      decide (r.seq < (s.core m).pathSeq) && (s.core m).path.runs.all fun x => x.seq != r.seq || decide (x.units ≤ x.pos)
  | none => true

/-- DRAIN completes: elements that waited for the scales of blocks shared in the span are converted now (R124, R158). -/
def execDrainComplete (c : Nat) (s : State) : Answer :=
  let s := s.pathAdvance c
  match s.completing c 2 (s.core c).path.runs with
  | none => .next s
  | some r =>
    if r.outs.isEmpty then .next (s.pathDone c r r.write r.counts)
    else if s.drainShared c r then
      let d := s.drainOut c r.words
      let (i, j) := s.local c
      let key := fun (o : OutElem) => d.spanBlock i j o.ix
      let outs := r.outs.map HeldOut.elem
      let own := outs.foldl (fun l o => blockJoin l (o.block (key o))) []
      let bs := match s.spanOf c with | some a => a.merged r.seq own | none => own
      let (w, cn) := d.emit (cmdBit r.words 0 11) key (fun o => d.spanScaleIx i j o.ix) bs outs
      .next (s.pathDone c r w cn)
    else .next s

/-- Table: Drain record. -/
def DrainSum.bytes (x : DrainSum) : List Byte :=
  x.counts.bytes ++ (List.range 66).flatMap (fun i => leBytes 4 (x.bins.getD i 0)) ++ leBytes 2 (toSigned 16 x.anchor) ++
    leBytes 6 0

/-- Writes a complete drain record in every member (R138, R157). -/
def State.writeDrain (s : State) (x : DrainSum) : State :=
  x.addrs.foldl (fun s e => s.pondRecord e.1 e.2 x.bytes) s

def execDrainRecordComplete (c : Nat) (s : State) : Answer :=
  match s.spanOf c with
  | none => .next s
  | some a =>
    match a.drains.find? (fun x => x.left == 0) with
    | none => .next s
    | some x =>
      if s.hasCore c && !s.freezeDue c && x.due.toNat ≤ (s.core c).cyc.toNat then
        let s := s.modSpan a.corner fun a => { a with drains := a.drains.filter fun (y : DrainSum) => y.seq != x.seq }
        .next (s.writeDrain x)
      else .next s

/-! ## Well tiles (R126 to R129) -/

/-- The effect of a WSTORE at its start. -/
def State.wstoreStart (s : State) (c : Nat) (ws : List Word) : State :=
  let d := s.wellTile c ws
  if d.count = 0 then s.pathIdle c ws
  else
    let m := clamp48 (d.e 1)
    let bn := cmdField ws 0 10 1
    let run := { Run.new ws 0 with bank := bn, unit := 8, units := m, anchor := ((s.core c).bank bn).recordAnchor,
                                   record := drainRecord ws, bins := binsOf [] 0 }
    (s.pathRun c run (8 * m) (8 * m + 14)).pathAdvance c

def execWstore (c : Nat) (s : State) : Answer :=
  .next (s.start c 0 4 (fun _ => true) fun ws s => s.wstoreStart c ws)

def execWstoreComplete (c : Nat) (s : State) : Answer :=
  let s := s.pathAdvance c
  match s.completing c 4 (s.core c).path.runs with
  | none => .next s
  | some r => .next (s.pathDone c r r.write r.counts)

/-- A tile word enters an element (R127): replacing, or as one contribution moved to the bank's grid. -/
def Elem.load (x : Elem) (add : Bool) (tile anchor : Int) (w : RawElem) : Elem :=
  let sp := Special.ofCode (w.tag % 4)
  let n := signedOf 128 w.bits
  let x := if add then x else Elem.zero
  let x := { x with sat := x.sat || bitOf w.tag 2, grid := x.grid || bitOf w.tag 3, poison := x.poison || w.poison,
                    special := x.special.combine sp }
  if sp ≠ .finite then x
  else if add then
    let (t, lost) := regrid n tile anchor
    let lim : Int := 2 ^ 127 - 1
    let clamp := decide (lim < t.natAbs)
    let t := if clamp then (if t < 0 then -lim else lim) else t
    { x with n := x.n + BitVec.ofInt 160 t, grid := x.grid || lost, overRange := x.overRange || clamp }
  else { x with n := BitVec.ofInt 160 n }

/-- The bank after the words of a tile (R127). -/
def Bank.load (b : Bank) (add : Bool) (tile : Int) (words : List ((Nat × Nat) × RawElem)) (mis : List Nat) : Bank :=
  words.foldl (fun b x =>
    let key := x.1.1 * 48 + x.1.2
    let y := (b.elem x.1.1 x.1.2).load add tile b.anchor x.2
    b.putElem key { y with poison := y.poison || mis.contains key }) b

/-- The effect of a WLOAD at its start (R127). The bank takes the tile at once, so that an MMA started into it from now on adds
to it; until the completion its elements count as being written. Additions do not depend on their order; where a tile
replaces a bank into which MMAs still run, no rule says which of their contributions come after, and the numbers of those
elements are free (log 6, log 56). -/
def State.wloadStart (s : State) (c : Nat) (ws : List Word) (mis : Option Mismatch) : State :=
  let d := s.wellTile c ws
  if d.count = 0 then s.pathIdle c ws
  else
    let m := clamp48 (d.e 1)
    let n := clamp48 (d.e 0)
    let bn := cmdField ws 0 10 1
    let run := { Run.new ws 0 with bank := bn }
    if !s.takesPart c d then s.pathRun c run (8 * m) (8 * m + 10)
    else
      let bank := (s.core c).bank bn
      let add := cmdBit ws 0 11 && !bank.copybook
      let base := if add then bank
        else { anchor := d.anchor, copybook := false, valid := true, elems := [], inflight := bank.inflight }
      let els := match mis with | some x => x.elems | none => []
      let words := (tileCells m n).map fun x => (x, d.read (pondReader (s.core c).pond) [x.2, x.1, 0, 0, 0])
      let nb := base.load add d.anchor words els
      let (nb, s) := if add then (nb, s) else s.freeBank nb ((s.core c).writing bn)
      let s := s.readKill c d (words.any fun x => x.2.poison)
      let s := s.modCore c fun k => k.setBank bn nb
      let s := s.pathRun c { run with rows := m, cols := n } (8 * m) (8 * m + 10)
      match mis with
      | some x => s.residue c 3 x.place.toNat
      | none => s

def execWload (c : Nat) (mis : Option Mismatch) (s : State) : Answer :=
  .next (s.start c 0 3 (fun _ => true) fun ws s => s.wloadStart c ws mis)

def execWloadComplete (c : Nat) (s : State) : Answer :=
  match s.completing c 3 (s.core c).path.runs with
  | none => .next s
  | some r => .next ((s.modCore c fun k => { k with path := { k.path with runs := dropRun r k.path.runs } }).unpin c r.words)

end Sys2Proof.Machine
end

