-- ==== Sys2Proof/Machine/Vector.lean ====
section
/-! DEFINITION. The vector engine: VOP, VRED, RNG and UPD (06_vector_engine). -/

namespace Sys2Proof.Machine

open Sys2Proof

/-! ## The unit (R170, R171, R198) -/

/-- A command starts on the vector unit: it is taken for `occ` cycles, and the run is due after `comp`. -/
def State.vecRun (s : State) (c : Nat) (r : Run) (occ comp : Nat) : State :=
  s.modCore c fun k =>
    { k with vec := { busyUntil := k.cyc + BitVec.ofNat 64 occ,
                      runs := k.vec.runs ++ [{ r with start := k.cyc, due := k.cyc + BitVec.ofNat 64 comp }] } }

/-- A command without elements occupies its unit for one cycle and writes nothing (R285). -/
def State.vecIdle (s : State) (c : Nat) (ws : List Word) : State := s.vecRun c (Run.new ws 0) 1 1

/-- Groups of 64 elements (R166). -/
def groups (n : Nat) : Nat := (n + 63) / 64

/-- The elements of group `u` of an output tile, where the member takes part (R166, R284). -/
def State.groupIx (s : State) (c : Nat) (d : Desc) (u : Nat) : List (List Nat) :=
  if s.takesPart c d then (List.range (min 64 (d.count - 64 * u))).map fun i => unrank d.ext (64 * u + i) else []

/-- Gives the writes of piece `u`, made in the cycle that R171 states; `late` tells that a block-scaled output moves every
write to the completion. -/
def Run.put (r : Run) (u : Nat) (late : Bool) (w : PondWrite) : Run :=
  { r with later := r.later ++ [(if late then r.due else r.start + BitVec.ofNat 64 (r.unit * u + r.lag), w)] }

/-- Gives the output elements of piece `u` in the tile with descriptor `d`: converted at once, or held until the last piece
where their block scales need the whole tile (R87, R171). Only a `counted` tile enters the counts (R198). -/
def Run.give (r : Run) (u : Nat) (late : Bool) (tile : Nat) (d : Desc) (sat counted : Bool) (hs : List HeldOut) : Run :=
  let emit := fun (r : Run) (hs : List HeldOut) =>
    let (w, cn) := d.emitOwn sat (hs.map HeldOut.elem)
    let r := r.put u late w
    if counted then { r with counts := r.counts.add cn } else r
  if !d.scaled then emit r hs
  else
    let hs := r.outs ++ hs
    if u + 1 < r.units then { r with outs := hs }
    else emit { r with outs := hs.filter fun h => h.tile != tile } (hs.filter fun h => h.tile == tile)

/-! ## VOP (R174 to R176, R262) -/

/-- VOP's OP, 0x1C to 0xFF read as 0x1B. -/
def vopOp (ws : List Word) : Nat := min (cmdField ws 0 16 8) 0x1B

/-- Cycles per group and completion beyond occupancy of a VOP class (Table: VOP operations). -/
def vopClass (op : Nat) : Nat × Nat :=
  if op ≤ 0x0B then (1, 8) else if op ≤ 0x11 then (2, 16) else if op ≤ 0x19 then (4, 24) else (6, 28)

/-- An input of a VOP at an index: absent reads +0 (R262). -/
def State.optIn (s : State) (c h : Nat) (ix : List Nat) : Val × Bool :=
  if h = 0xFFF then (Val.zero, false) else s.inElem c (((s.desc c h).inPond).withFmt vecReads) ix

def State.readKillH (s : State) (c h : Nat) (bad : Bool) : State :=
  if h = 0xFFF then s else s.readKill c (s.desc c h).inPond bad

/-- The output descriptor of a VOP. -/
def State.vopOut (s : State) (c : Nat) (ws : List Word) : Desc :=
  ((s.desc c (reqHandle (cmdField ws 2 0 12))).inPond).withFmt vecWrites

/-- A group of a VOP: its inputs are read in this cycle (R171). An operand that the command names is read whether or not its
operation uses it, so that its poison marks the output and counts as a read of its tensor: DESIGN CHOICE, R174 gives the
result and no rule says that an operand without a part in it is left unread (log 55). -/
def State.vopGroup (s : State) (c : Nat) (r : Run) (u : Nat) : State × Run :=
  let ws := r.words
  let d := s.vopOut c ws
  let ha := reqHandle (cmdField ws 2 12 12)
  let hb := if cmdBit ws 0 12 then 0xFFF else cmdField ws 3 0 12
  let hc := cmdField ws 3 12 12
  let imm := ofFp32 (cmdField ws 4 0 32)
  let step := s.fld (vxStep c) 0 48
  let (i, j) := s.local c
  let mo := d.member i j d.ext
  let cells := s.groupIx c d u
  let ins := cells.map fun ix => (s.optIn c ha ix, s.optIn c hb ix, s.optIn c hc ix)
  let outs := (cells.zip ins).map fun x =>
    let (a, b, z) := x.2
    let bv := if cmdBit ws 0 12 then imm else b.1
    let e := d.logical (cmdIoff ws) (addIx x.1 mo)
    let dr := if cmdBit ws 0 11 then some (r.slot.draw step e (rowMajor d.ext x.1) 1 0) else none
    { HeldOut.of 0 x.1 a.1 false false (a.2 || b.2 || z.2) dr with op := vopOp ws, b := bv.toHeld, z := z.1.toHeld }
  let s := s.readKillH c ha (ins.any fun x => x.1.2)
  let s := s.readKillH c hb (ins.any fun x => x.2.1.2)
  let s := s.readKillH c hc (ins.any fun x => x.2.2.2)
  (s, r.give u d.scaled 0 d (cmdBit ws 0 10) true outs)

def State.vopStart (s : State) (c : Nat) (ws : List Word) : State :=
  let d := s.vopOut c ws
  if d.count = 0 then s.vecIdle c ws
  else
    let sr := cmdBit ws 0 11
    let slotN := d.slotOf (cmdField ws 0 24 4)
    let (q, lam) := vopClass (vopOp ws)
    let lag := lam + (if sr then 4 else 0) + (if d.scaled then 40 else 0)
    let occ := q * groups d.count
    let run := { Run.new ws 0 with unit := q, units := groups d.count, lag := lag, slot := (s.core c).slot slotN,
                                   record := if cmdBit ws 0 13 then some (cmdField ws 5 0 18 / 16 * 16) else none,
                                   cursor := if sr then (s.core c).cursorAfter slotN d.count else none }
    s.vecRun c run occ (occ + lag)

/-! ## VRED (R178 to R185, R263) -/

/-- The elements that one output element reduces. -/
def lineOf (axis len : Nat) (ix : List Nat) : List (List Nat) :=
  (List.range len).map fun l => (List.range 5).map fun k => if k = axis then l else ix.getD k 0

/-- Smallest e with |x| < 2^e for every finite, non-zero value. -/
def boundExp (vs : List Val) : Option Int :=
  vs.foldl (fun m v => match v with
    | .fin q => if q.isZero then m else maxOpt m (some (q.log2 + 1))
    | _ => m) none

/-- Automatic anchors (R180). -/
def autoAnchors (vs : List Val) : Int × Int :=
  match boundExp vs with
  | none => (0, 0)
  | some e =>
    let c : Int := clog2 vs.length
    (clampAnchor (c + e), clampAnchor (c + 2 * e))

/-- An exact sum in a lane: the register after the contributions, and its anchor. -/
structure LaneSum where
  x : Elem
  anchor : Int

def LaneSum.zero (anchor : Int) : LaneSum := { x := Elem.zero, anchor := anchor }

/-- Inputs as contributions. -/
def LaneSum.sums (t : LaneSum) (vs : List Val) : LaneSum := { t with x := vs.foldl (fun x v => x.promote t.anchor v) t.x }

/-- A well word that enters a lane before the elements (R182). -/
def LaneSum.part (anchor tile : Int) (w : RawElem) : LaneSum :=
  { x := Elem.zero.load true tile anchor { w with poison := false }, anchor := anchor }

/-- The integer of a sum as R121 leaves it, and its saturated mark. -/
def LaneSum.total (t : LaneSum) : Int × Bool := let (n, o) := t.x.total; (n, o || t.x.sat)

def LaneSum.value (t : LaneSum) : Val := t.x.special.val (wellValue t.total.1 t.anchor)

def Val.sq (v : Val) : Val := v.mul v

/-- Whether infinities of both signs are among the inputs (R184). -/
def bothInf (vs : List Val) : Bool := vs.contains (.inf true) && vs.contains (.inf false)

/-- The squares of inputs as contributions, after a partial word where there is one: infinities of both signs give NaN (R184). -/
def LaneSum.squares (t : LaneSum) (vs : List Val) : LaneSum :=
  let x := vs.foldl (fun x v => x.promote t.anchor v.sq) t.x
  { t with x := if bothInf vs then { x with special := x.special.combine .nan } else x }

/-- Mean and variance from sums as exact values (R183, R184). -/
def meanVar (s1 s2 : Val) (n : Nat) (unb : Bool) : Val × Val :=
  if n = 0 then (.nan, .nan)
  else
    let nv := Val.ofQ n 1
    let mean := s1.div nv
    let var := if unb && n = 1 then .nan
      else
        match s1, s2 with
        | .fin a, .fin b =>
          let num := (Q.mul (Q.ofInt n) b).sub (a.mul a)
          if num.isNeg then Val.zero else Val.div (.fin num) (Val.ofQ (n * (if unb then n - 1 else n)) 1)
        | _, _ => .nan
    (mean, var)

/-- A well word as a sum (operation 5, R183). -/
def LaneSum.word (tile : Int) (w : RawElem) : LaneSum := { x := Elem.zero.load false tile tile w, anchor := tile }

/-- Whether a sum carries the SAT and GRID marks. -/
def LaneSum.marks (t : LaneSum) : Bool × Bool := (t.total.2, t.x.grid)

/-- The word and tag of a sum in a well tile (R182). A sum on the grid of an explicit ANCHOR enters a tile of another anchor as a
WSTORE moves a bank's element (R126): DESIGN CHOICE, R182 gives the tile's anchor and not the move (log 55). -/
def LaneSum.toWord (t : LaneSum) (anchor : Int) : Int × Nat :=
  Bank.word { anchor := t.anchor, copybook := false, valid := true, elems := [(0, t.x)], inflight := 0 } 0 0 anchor

/-- Writes of a well tile of sums; a finite sum that is not zero and whose word is zero counts as flushed (R86, R182, R198). -/
def Desc.emitWords (d : Desc) (os : List (List Nat × LaneSum × Bool)) : PondWrite × Counts :=
  os.foldl (fun acc o =>
    let (v, tag) := o.2.1.toWord d.anchor
    ({ cells := acc.1.cells ++ d.elemCells o.1 (toSigned 128 v) ++ d.tagCells o.1 tag,
       bad := acc.1.bad ++ (if o.2.2 then d.elemGranules o.1 else []) },
     acc.2.add { sat := tag / 4 % 2, grid := tag / 8 % 2, flush := if tag % 4 = 0 ∧ v = 0 ∧ o.2.1.total.1 ≠ 0 then 1 else 0,
                 nan := if tag % 4 = 3 then 1 else 0 }))
    (PondWrite.none, Counts.zero)

/-- Largest value, infinities ordered, NaN prevailing (R184). -/
def extreme (max : Bool) (vs : List Val) : Val :=
  match vs with
  | [] => Val.zero
  | v :: rest => rest.foldl (fun m x =>
      if m.isNan || x.isNan then .nan else if max then (if m.lt x then x else m) else (if x.lt m then x else m)) v

/-- What a VRED names, as its words and descriptors say (R263): tiles, length of the reduced dimension, anchors. -/
structure RedArgs where
  op : Nat
  din : Desc
  out1 : Desc
  out2 : Desc
  dp : Desc
  axis : Nat
  len : Nat
  well : Bool
  part : Bool
  auto : Bool
  two : Bool
  a1 : Int
  a2 : Int

/-- Whether a block-scaled output moves every write to the completion (R171). -/
def RedArgs.late (g : RedArgs) : Bool := g.out1.scaled || (g.two && g.out2.scaled)

/-- Cycles of one output element (Table: Vector engine durations). MAX and MIN with AMODE 1 count q = 2: DESIGN CHOICE, R180
gives an anchor mode to operations 0, 1 and 4, and no rule says what the bit does in operations 2 and 3 (log 55). -/
def RedArgs.share (g : RedArgs) : Nat := if g.op = 5 then 12 else (if g.auto then 2 else 1) * groups g.len + 8

def State.redArgs (s : State) (c : Nat) (ws : List Word) : RedArgs :=
  let op := vredOp ws
  let din := (s.desc c (reqHandle (cmdField ws 2 0 12))).inPond
  let din := if op = 5 then din.withFmt [11] else din.withFmt vecReads
  let out1 := (s.desc c (reqHandle (cmdField ws 2 12 12))).inPond
  let out1 := out1.withFmt (if op ≤ 1 then vecWrites ++ [11] else vecWrites)
  let axis := min (cmdField ws 0 19 3) (din.rank - 1)
  let well := decide (out1.fmt = 11)
  let hpart := cmdField ws 3 12 12
  let part := decide (op ≤ 1) && decide (hpart ≠ 0xFFF)
  let h2 := cmdField ws 3 0 12
  let own := op ≤ 1 && well && cmdBit ws 0 10
  { op := op, din := din, out1 := out1, out2 := ((s.desc c h2).inPond).withFmt vecWrites,
    dp := ((s.desc c (reqHandle hpart)).inPond).withFmt [11], axis := axis, len := din.e axis, well := well, part := part,
    auto := cmdBit ws 0 10 && !well && !part && op != 5, two := (op = 4 || op = 5) && h2 != 0xFFF,
    a1 := if own then out1.anchor else clampAnchor (signedOf 16 (cmdField ws 4 0 16)),
    a2 := if own then out1.anchor else clampAnchor (signedOf 16 (cmdField ws 4 16 16)) }

/-- A word of a well tile that a VRED names (PART, or the tiles of operation 5). One beyond the tile's extents reads as +0:
DESIGN CHOICE where a tile has not the output's shape, since R262 says so of a VOP's inputs only (log 55). -/
def State.partWord (s : State) (c : Nat) (d : Desc) (ix : List Nat) : RawElem :=
  if d.within ix then d.read (pondReader (s.core c).pond) ix else { bits := 0, scale := none, tag := 0, poison := false }

/-- One output element of a VRED: value, marks and poison of each output (R178 to R185); poison of IN and of PART or S2. -/
structure RedOut where
  v1 : Val
  v2 : Val
  m1 : Bool × Bool
  m2 : Bool × Bool
  p1 : Bool
  p2 : Bool
  word : LaneSum
  badIn : Bool
  badPart : Bool

def State.redOne (s : State) (c : Nat) (ws : List Word) (g : RedArgs) (ix : List Nat) : RedOut :=
  let unb := cmdBit ws 0 12
  let pair := fun (t1 t2 : LaneSum) (n : Nat) (b1 b2 : Bool) =>
    let (m, v) := meanVar t1.value t2.value n unb
    ({ v1 := m, v2 := v, m1 := t1.marks, m2 := (t1.marks.1 || t2.marks.1, t1.marks.2 || t2.marks.2), p1 := b1, p2 := b1 || b2,
       word := t1, badIn := b1, badPart := b2 } : RedOut)
  if g.op = 5 then
    let w1 := s.partWord c g.din ix
    let w2 := s.partWord c g.dp ix
    pair (LaneSum.word g.din.anchor w1) (LaneSum.word g.dp.anchor w2) (cmdField ws 5 0 32) w1.poison w2.poison
  else
    let xs := (lineOf g.axis g.len ix).map fun x => s.inElem c g.din x
    let vs := xs.map Prod.fst
    let bad := xs.any Prod.snd
    let (b1, b2) := if g.auto then autoAnchors vs else (g.a1, g.a2)
    if g.op = 4 then pair ((LaneSum.zero b1).sums vs) ((LaneSum.zero b2).squares vs) g.len bad false
    else if g.op = 2 ∨ g.op = 3 then
      { v1 := extreme (g.op = 2) vs, v2 := .nan, m1 := (false, false), m2 := (false, false), p1 := bad, p2 := bad,
        word := LaneSum.zero 0, badIn := bad, badPart := false }
    else
      let b := if g.op = 0 then b1 else b2
      let w := s.partWord c g.dp ix
      let t := if g.part then LaneSum.part b g.dp.anchor w else LaneSum.zero b
      let t := if g.op = 0 then t.sums vs else t.squares vs
      { v1 := t.value, v2 := .nan, m1 := t.marks, m2 := (false, false), p1 := bad || (g.part && w.poison), p2 := false, word := t,
        badIn := bad, badPart := g.part && w.poison }

/-- Output element `u` of a VRED: its inputs are read at the start of its share of the occupancy: DEDUCED, R171 says that they
are read in order over the occupancy (log 5). A member that an output's EDGE excludes processes nothing of the command (R284). -/
def State.vredPiece (s : State) (c : Nat) (r : Run) (u : Nat) : State × Run :=
  let ws := r.words
  let g := s.redArgs c ws
  if !s.takesPart c g.out1 || (g.two && !s.takesPart c g.out2) then (s, r)
  else
    let ix := unrank g.out1.ext u
    let o := s.redOne c ws g ix
    let s := s.readKill c g.din o.badIn
    let s := s.readKill c g.dp o.badPart
    let r := if g.well then
        let (w, cn) := g.out1.emitWords [(ix, o.word, o.p1)]
        { r.put u false w with counts := r.counts.add cn }
      else r.give u g.late 0 g.out1 (cmdBit ws 0 11) true [HeldOut.of 0 ix o.v1 o.m1.1 o.m1.2 o.p1 none]
    if g.two then
      let hs := if g.out2.within ix then [HeldOut.of 1 ix o.v2 o.m2.1 o.m2.2 o.p2 none] else []
      (s, r.give u g.late 1 g.out2 (cmdBit ws 0 11) true hs)
    else (s, r)

def State.vredStart (s : State) (c : Nat) (ws : List Word) : State :=
  let g := s.redArgs c ws
  if g.out1.count = 0 ∨ g.din.count = 0 then s.vecIdle c ws
  else
    let n := g.out1.count
    let run := { Run.new ws 0 with unit := g.share, units := n, lag := g.share + 20,
                                   record := if cmdBit ws 0 13 then some (cmdField ws 6 0 18 / 16 * 16) else none }
    s.vecRun c run (n * g.share) (n * g.share + 20 + (if g.late then 40 else 0))

/-! ## RNG (R191, R192, R264) -/

def rngSub (ws : List Word) : Nat := cmdField ws 0 10 2

/-- f(u) (R191). -/
def drawUnit (u : Nat) : Val := .fin (Q.dyadic (u / 256 : Nat) (-24))

/-- Table: RNG FILL kinds 1 to 3, before conversion; `lo` and `hi` are the words of the command. -/
def rngValue (kind lo hi u0 u1 : Nat) : Val :=
  match kind with
  | 1 => rnd (((drawUnit u0).mul (rnd ((ofFp32 hi).sub (ofFp32 lo)))).add (ofFp32 lo))
  | 2 =>
    let v1 : Val := .fin (Q.dyadic ((u0 / 256 : Nat) + 1) (-24))
    let t1 := step32 0x13 v1
    let t2 := rnd ((Val.ofQ (-2) 1).mul t1)
    let t3 := step32 0x0D t2
    let t4 := rnd ((drawUnit u1).mul const2Pi)
    let t5 := step32 0x19 t4
    rnd (t3.mul t5)
  | _ => if u0 < lo then Val.zero else ofFp32 hi

/-- The output descriptor of an RNG FILL: kind 0 reads it as FP32 (R191). -/
def State.fillOut (s : State) (c : Nat) (ws : List Word) : Desc :=
  let d := (s.desc c (reqHandle (cmdField ws 2 0 12))).inPond
  if cmdField ws 0 14 2 = 0 then { d with fmt := 9, scaled := false } else d.withFmt vecWrites

/-- Draws of each element of an RNG FILL (Table: RNG FILL kinds). -/
def fillDraws (ws : List Word) : Nat := if cmdField ws 0 14 2 = 2 then 2 else 1

/-- A group of an RNG FILL (R191). -/
def State.fillGroup (s : State) (c : Nat) (r : Run) (u : Nat) : State × Run :=
  let ws := r.words
  let kind := cmdField ws 0 14 2
  let d := s.fillOut c ws
  let step := s.fld (vxStep c) 0 48
  let (i, j) := s.local c
  let mo := d.member i j d.ext
  let cells := s.groupIx c d u
  let draw := fun (ix : List Nat) (k : Nat) =>
    r.slot.draw step (d.logical (cmdIoff ws) (addIx ix mo)) (rowMajor d.ext ix) (fillDraws ws) k
  if kind = 0 then
    (s, r.put u false { cells := cells.flatMap fun ix => d.elemCells ix (draw ix 0), bad := [] })
  else
    (s, r.give u d.scaled 0 d (cmdBit ws 0 12) true (cells.map fun ix =>
      HeldOut.of 0 ix (rngValue kind (cmdField ws 4 0 32) (cmdField ws 5 0 32) (draw ix 0) (draw ix 1)) false false false none))

def State.rngFillStart (s : State) (c : Nat) (ws : List Word) : State :=
  let kind := cmdField ws 0 14 2
  let d := s.fillOut c ws
  if d.count = 0 then s.vecIdle c ws
  else
    let slotN := d.slotOf (cmdField ws 0 16 4)
    let q := if kind = 2 then 3 else 1
    let lag := (if kind = 2 then 40 else 30) + (if d.scaled then 40 else 0)
    let occ := q * groups d.count
    let run := { Run.new ws 0 with unit := q, units := groups d.count, lag := lag, slot := (s.core c).slot slotN,
                                   record := if cmdBit ws 0 13 then some (cmdField ws 3 0 18 / 16 * 16) else none,
                                   cursor := (s.core c).cursorAfter slotN (fillDraws ws * d.count) }
    s.vecRun c run occ (occ + lag)

/-- Bytes that KEY, SEEK and UPD's parameter block read; beyond the pond they read zero (R281). A mark of the bytes is dropped:
DESIGN CHOICE, R286 speaks of a tensor's POISON and R322 of the consumers that kill, and these bytes belong to no tensor
(log 55). -/
def State.slotBytes (s : State) (c a n : Nat) : Nat := leNat ((pondReader (s.core c).pond).bytes a n)

/-! ## UPD (R193 to R197, R265) -/

/-- Rounds to nearest-even into a format, without saturation (R194). -/
def rndTo (f : Nat) (v : Val) : Val := decodeFloat f (convert f false v none false).bits

def rw48 (v : Val) : Val := rndTo 10 v

/-- √ exact before its rounding to MW48 (R194). -/
def sqrt48 (v : Val) : Val := decodeFloat 10 ((trans 0x0D v).apply fun x => (convert 10 false x none false).bits)

def fma (a b c : Val) : Val := (a.mul b).add c

/-- The parameter block (Table: UPD parameter block). -/
structure UpdParams where
  lr : Val
  b1 : Val
  omb1 : Val
  b2 : Val
  omb2 : Val
  eps : Val
  wd : Val
  c1 : Val
  c2 : Val
  gs : Val

/-- The words of a parameter block as it is read at the start (R193). -/
def State.updBlock (s : State) (c a : Nat) : List Nat := (List.range 10).map fun i => s.slotBytes c (a + 4 * i) 4

def UpdParams.of (l : List Nat) : UpdParams :=
  let f := fun i => ofFp32 (l.getD i 0)
  { lr := f 0, b1 := f 1, omb1 := f 2, b2 := f 3, omb2 := f 4, eps := f 5, wd := f 6, c1 := f 7, c2 := f 8, gs := f 9 }

/-- Formats of M′ and V′: FP32 or MW48 (R194). -/
def momentFmts : List Nat := [9, 10]

/-- What UPD gives for an element: the value of w′ before its last rounding, m′, v′, whether it was skipped. -/
structure UpdOut where
  w : Val
  m : Val
  v : Val
  skip : Bool

/-- Table of R194 and R195; `rm` and `rv` round to the formats of M′ and V′. -/
def updElem (p : UpdParams) (mode : Nat) (rm rv : Val → Val) (g w m v : Val) : UpdOut :=
  let g1 := rw48 (g.mul p.gs)
  if !g1.isFin then { w := w, m := m, v := v, skip := true }
  else if mode = 1 then
    let m' := rm (fma p.b1 m g1)
    { w := fma p.lr.neg (rw48 (fma p.wd w m')) w, m := m', v := v, skip := false }
  else
    let m' := rm (fma p.b1 m (rw48 (p.omb1.mul g1)))
    let v' := rv (fma p.b2 v (rw48 (p.omb2.mul (rw48 (g1.mul g1)))))
    let mh := rw48 (m'.mul p.c1)
    let vh := rw48 (v'.mul p.c2)
    let d := rw48 ((sqrt48 vh).add p.eps)
    let u := rw48 (fma p.wd w (rw48 (mh.div d)))
    { w := fma p.lr.neg u w, m := m', v := v', skip := false }

/-- What an UPD names (R265): inputs G, W, M, V and outputs W′, M′, V′, and the counted output, which is WW, or W′ in mode 2. -/
structure UpdArgs where
  mode : Nat
  din : List Desc
  dw : Desc
  dm : Desc
  dv : Desc
  out : Desc

def State.updArgs (s : State) (c : Nat) (ws : List Word) : UpdArgs :=
  let mode := updMode ws
  let ds := fun k => (s.desc c (reqHandle (updHandle ws k))).inPond
  let dw := (ds 4).withFmt vecWrites
  { mode := mode, din := (List.range 4).map fun k => (ds k).withFmt vecReads, dw := dw, dm := (ds 5).withFmt momentFmts,
    dv := (ds 6).withFmt momentFmts, out := if mode = 2 then dw else (ds 7).withFmt vecWrites }

/-- Whether a member processes the elements of an UPD: no output's EDGE excludes it (R284). -/
def State.updTakes (s : State) (c : Nat) (g : UpdArgs) : Bool :=
  s.takesPart c g.out && s.takesPart c g.dm && s.takesPart c g.dv && (g.mode = 2 || s.takesPart c g.dw)

/-- Whether a block-scaled output moves every write to the completion (R171). -/
def UpdArgs.late (g : UpdArgs) : Bool := g.out.scaled || (g.mode != 2 && g.dw.scaled)

/-- A group of an UPD (R193 to R197). VX_CTR_SKIP counts in the cycle in which the group is read: DESIGN CHOICE, R196 gives no cycle
(log 55). Poison of any of g, w, m and v marks every output of the element, also one that its mode
does not form from that input: DESIGN CHOICE, no rule traces poison through the steps of R194 (log 55). -/
def State.updGroup (s : State) (c : Nat) (r : Run) (u : Nat) : State × Run :=
  let ws := r.words
  let g := s.updArgs c ws
  let p := UpdParams.of r.params
  let step := s.fld (vxStep c) 0 48
  let (i, j) := s.local c
  let mo := g.out.member i j g.out.ext
  let cells := if s.updTakes c g then s.groupIx c g.out u else []
  let ins := cells.map fun ix => g.din.map fun d => s.inElem c d ix
  let val := fun (x : List (Val × Bool)) (k : Nat) => (x.getD k (Val.zero, false)).1
  let rows := (cells.zip ins).map fun x =>
    (x.1, updElem p g.mode (rndTo g.dm.fmt) (rndTo g.dv.fmt) (val x.2 0) (val x.2 1) (val x.2 2) (val x.2 3), x.2.any Prod.snd)
  let s := (List.range 4).foldl (fun s k =>
    match g.din[k]? with
    | some d => s.readKill c d (ins.any fun x => (x.getD k (Val.zero, false)).2)
    | none => s) s
  let s := s.addFld (cw c 0x81430) 0 64 (rows.filter fun x => x.2.1.skip).length
  let wNew := fun (o : UpdOut) => if g.mode = 2 || o.skip then o.w else rw48 o.w
  let tile := fun (t : Nat) (d : Desc) (f : UpdOut → Val) =>
    (rows.filter fun x => d.within x.1).map fun x => HeldOut.of t x.1 (f x.2.1) false false x.2.2 none
  let r := r.give u g.late 1 g.dm false false (tile 1 g.dm UpdOut.m)
  let r := r.give u g.late 2 g.dv false false (tile 2 g.dv UpdOut.v)
  let r := if g.mode = 2 then r else r.give u g.late 3 g.dw false false (tile 3 g.dw wNew)
  let outs := rows.map fun x =>
    let e := g.out.logical (cmdIoff ws) (addIx x.1 mo)
    let dr := if cmdBit ws 0 11 then some (r.slot.draw step e (rowMajor g.out.ext x.1) 1 0) else none
    HeldOut.of 0 x.1 (wNew x.2.1) false false x.2.2 dr
  (s, r.give u g.late 0 g.out (cmdBit ws 0 10) true outs)

def State.updStart (s : State) (c : Nat) (ws : List Word) : State :=
  let g := s.updArgs c ws
  if g.out.count = 0 then s.vecIdle c ws
  else
    let sr := cmdBit ws 0 11
    let slotN := g.out.slotOf (cmdField ws 0 18 4)
    let lag := 60 + (if sr then 4 else 0) + (if g.late then 40 else 0)
    let n := groups g.out.count
    let run := { Run.new ws 0 with unit := 6, units := n, lag := lag, slot := (s.core c).slot slotN,
                                   params := s.updBlock c (cmdField ws 5 0 18 / 64 * 64),
                                   record := if cmdBit ws 0 12 then some (cmdField ws 5 18 14 * 16) else none,
                                   cursor := if sr then (s.core c).cursorAfter slotN g.out.count else none }
    s.vecRun c run (6 * n) (6 * n + lag)

/-! ## The unit at work -/

/-- A piece of a vector command: a group, or an output element of a VRED (R171). -/
def State.vecPiece (c : Nat) (s : State) (r : Run) (u : Nat) : State × Run :=
  if r.code = 0x10 then s.vopGroup c r u
  else if r.code = 0x11 then s.vredPiece c r u
  else if r.code = 0x12 then s.fillGroup c r u
  else s.updGroup c r u

/-- Makes the writes whose cycle has come, command by command (R171). -/
def State.vecWrite (s : State) (c : Nat) : State :=
  let cyc := (s.core c).cyc
  let due := fun (x : Reg × PondWrite) => decide (x.1.toNat ≤ cyc.toNat)
  let s := (s.core c).vec.runs.foldl (fun s r => (r.later.filter due).foldl (fun s x => s.pondApply c x.2) s) s
  s.modCore c fun k =>
    { k with vec := { k.vec with runs := k.vec.runs.map fun (r : Run) => { r with later := r.later.filter fun x => !due x } } }

/-- The vector unit in this cycle: it makes the writes that are due, and reads the groups whose cycle has come (R171); a freeze
that is due holds it (R160). -/
def State.vecAdvance (s : State) (c : Nat) : State :=
  if s.freezeDue c then s
  else
    let s := s.vecWrite c
    let (s, rs) := s.readRuns (s.core c).cyc (State.vecPiece c) (s.core c).vec.runs
    (s.modCore c fun k => { k with vec := { k.vec with runs := rs } }).vecWrite c

/-- Completion: counts, cursor, and the count record 4 cycles later (R189, R198). -/
def State.vecDone (s : State) (c code : Nat) : State :=
  let s := s.vecAdvance c
  match s.completing c code (s.core c).vec.runs with
  | none => s
  | some r =>
    let s := s.modCore c fun k =>
      let k := { k with vec := { k.vec with runs := dropRun r k.vec.runs } }.putCursor r.cursor
      match r.record with
      | some a => { k with records := k.records ++ [(k.cyc + 4, a, r.counts.bytes)] }
      | none => k
    (s.addCounts (cw c 0x81410) r.counts).unpin c r.words

/-! ## The commands -/

def execVop (c : Nat) (s : State) : Answer :=
  .next (s.start c 1 0x10 (fun _ => true) fun ws s => (s.vopStart c ws).vecAdvance c)

def execVopComplete (c : Nat) (s : State) : Answer := .next (s.vecDone c 0x10)

def execVred (c : Nat) (s : State) : Answer :=
  .next (s.start c 1 0x11 (fun _ => true) fun ws s => (s.vredStart c ws).vecAdvance c)

def execVredComplete (c : Nat) (s : State) : Answer := .next (s.vecDone c 0x11)

def execRngFill (c : Nat) (s : State) : Answer :=
  .next (s.start c 1 0x12 (fun ws => rngSub ws = 0) fun ws s => (s.rngFillStart c ws).vecAdvance c)

def execRngFillComplete (c : Nat) (s : State) : Answer := .next (s.vecDone c 0x12)

/-- KEY, BIND and SEEK occupy the unit and take effect at their start (R170, R192). -/
def State.slotCommand (s : State) (c cycles : Nat) (f : Core → Core) : State :=
  s.modCore c fun k => { f k with vec := { k.vec with busyUntil := k.cyc + BitVec.ofNat 64 cycles } }

def rngSlot (ws : List Word) : Nat := cmdField ws 0 16 4

def execRngKey (c : Nat) (s : State) : Answer :=
  .next (s.start c 1 0x12 (fun ws => rngSub ws = 1) fun ws s =>
    let a := cmdField ws 3 0 18 / 16 * 16
    let w := fun i => BitVec.ofNat 32 (s.slotBytes c (a + 4 * i) 4)
    let free := s.slotBytes c (a + 12) 1 % 2 = 1
    s.slotCommand c 4 fun k =>
      k.setSlot (rngSlot ws) { k.slot (rngSlot ws) with k0 := w 0, k1 := w 1, k2 := w 2, free := free })

def execRngBind (c : Nat) (s : State) : Answer :=
  .next (s.start c 1 0x12 (fun ws => rngSub ws = 2) fun ws s =>
    s.slotCommand c 1 fun k =>
      k.setSlot (rngSlot ws) { k.slot (rngSlot ws) with mbatch := BitVec.ofNat 24 (cmdField ws 3 0 24) })

def execRngSeek (c : Nat) (s : State) : Answer :=
  .next (s.start c 1 0x12 (fun ws => rngSub ws = 3) fun ws s =>
    let a := cmdField ws 3 0 18 / 8 * 8
    let v := BitVec.ofNat 64 (s.slotBytes c a 8)
    s.slotCommand c 1 fun k => k.setSlot (rngSlot ws) { k.slot (rngSlot ws) with cursor := v })

def execUpd (c : Nat) (s : State) : Answer :=
  .next (s.start c 1 0x13 (fun _ => true) fun ws s => (s.updStart c ws).vecAdvance c)

def execUpdComplete (c : Nat) (s : State) : Answer := .next (s.vecDone c 0x13)

end Sys2Proof.Machine
end

