-- ==== Sys2Proof/Machine/Memory.lean ====
section
/-! DEFINITION. Errors that the checks of memories and cores find, page retirement and pseudo-channel sparing (09_memory R300,
R303 to R308, R311; 15_faults_sparing R484, R485). -/

namespace Sys2Proof.Machine

open Sys2Proof

/-- Page of an address in its pseudo-channel: 64 KiB (R305). -/
def pageOf (a : Nat) : Nat := lineOffset a / 65536

/-- Key of a page of a controller. -/
def pageKey (pch page : Nat) : Nat := pch * 65536 + page

/-- Pages of a pseudo-channel's device-memory and firmware parts, and of its part of the pool (R305, R306). -/
def homePages : Nat := 16896
def poolPages : Nat := 1536

/-- Page `n` of a stack's pool: its pages follow the others of each pseudo-channel. -/
def poolPage (n : Nat) : Nat := pageKey (n / poolPages) (homePages + n % poolPages)

/-- Free pages of a stack's pool. -/
def State.poolFree (s : State) (m : Nat) : Nat := s.fld (mcReg m 0x10) 16 16

/-- EV_MEM_SPARE_EXHAUSTED, once for each stack, when its pool is exhausted (R307). -/
def State.spareExhausted (s : State) (m : Nat) : State :=
  let x := s.mc m
  if s.poolFree m ≠ 0 || x.exhaustedLogged then s
  else ((s.setMc m { x with exhaustedLogged := true }).setFld (mcReg m 0) 14 1 1).post (devHead 0x12 6) [(3, m)]

/-- Whether a pseudo-channel of a controller is spared already. -/
def State.pchSpared (s : State) (m pch : Nat) : Bool :=
  (s.fld (mcReg m 0) 6 1 = 1 && s.fld (mcReg m 0) 1 5 = pch) || (s.fld (mcReg m 0) 12 1 = 1 && s.fld (mcReg m 0) 7 5 = pch)

/-- Whether page `n` of the pool is free. -/
def State.poolIsFree (s : State) (m n : Nat) : Bool :=
  let x := s.mc m
  !s.pchSpared m (n / poolPages) && !x.targets.any (fun e => e.2 == poolPage n) &&
    !x.retired.contains (n / poolPages, homePages + n % poolPages)

/-- The first page of a pool from `n` on that a test accepts. -/
def poolFind (ok : Nat → Bool) : Nat → Nat → Option Nat
  | 0, _ => none
  | f + 1, n => if ok (n % 49152) then some (n % 49152) else poolFind ok f (n + 1)

/-- A free page of the pool for a page of pseudo-channel `pch`, never of that pseudo-channel's own part (R305); which one is not
stated: a free value chooses (log 12). -/
def State.poolTarget (s : State) (m pch : Nat) : Option Nat × State :=
  let (v, s) := s.freeVal 16
  ((poolFind (fun n => n / poolPages != pch && s.poolIsFree m n) 49152 v).map poolPage, s)

/-- The page that holds a page's data once its copies have ended. -/
def MemCtl.follow (x : MemCtl) : Nat → Nat → Nat
  | 0, k => k
  | f + 1, k =>
    match x.targets.find? (fun e => e.1 == k) with
    | some e =>
      if x.copies.contains (.page (k / 65536) (k % 65536)) || x.copies.contains (.pch (k / 65536)) then k else x.follow f e.2
    | none => k

/-- The page in use for a page of a pseudo-channel (R305, R306): the target of its remapping, chosen when it is first needed where
a whole pseudo-channel was spared. -/
def State.pageInUse (s : State) (m pch page : Nat) : Nat × State :=
  let x := s.mc m
  let k := x.follow x.targets.length (pageKey pch page)
  if s.pchSpared m (k / 65536) && decide (k % 65536 < homePages) && !x.copies.contains (.pch (k / 65536)) && !mhas x.targets k then
    match s.poolTarget m (k / 65536) with
    | (some t, s) => (t, s.setMc m { s.mc m with targets := mput (s.mc m).targets k t })
    | (none, s) => (k, s)
  else (k, s)

/-- Free pages of the pool part of one pseudo-channel. -/
def State.ownFree (s : State) (m pch : Nat) : Nat :=
  let x := s.mc m
  poolPages - ((x.targets.filter fun e => e.2 / 65536 == pch).length +
    (x.retired.filter fun e => e.1 == pch && decide (homePages ≤ e.2) && !x.targets.any (fun t => t.2 == pageKey e.1 e.2)).length)

/-- Starts to spare a pseudo-channel: 16,896 pages move into the pool of the others, and its own free pool pages leave the pool
(R306, R307). -/
def State.sparePch (s : State) (m pch : Nat) : State :=
  let two := s.fld (mcReg m 0) 6 1 = 1 ∧ s.fld (mcReg m 0) 12 1 = 1
  let own := s.ownFree m pch
  if two ∨ s.pchSpared m pch ∨ s.poolFree m < homePages + own ∨ (s.mc m).copies.contains (.pch pch) then s
  else
    let s := if s.fld (mcReg m 0) 6 1 = 0 then (s.setFld (mcReg m 0) 1 5 pch).setFld (mcReg m 0) 6 1 1
      else (s.setFld (mcReg m 0) 7 5 pch).setFld (mcReg m 0) 12 1 1
    let s := (s.setFld (mcReg m 0x10) 16 16 (s.poolFree m - homePages - own)).setFld (mcReg m 0) 13 1 1
    let x := s.mc m
    (s.setMc m { x with copies := x.copies ++ [.pch pch] }).spareExhausted m

/-- Retires the page in use (R305): it takes a free page of the pool, its copy starts; a pseudo-channel whose retired pages
exceed the threshold is spared. Where the pool has no page for it, its errors stay in place (R307). -/
def State.retirePage (s : State) (m pch page : Nat) : State :=
  let x := s.mc m
  if x.retired.contains (pch, page) || x.copies.contains (.pch pch) || s.poolFree m = 0 then s
  else
    match s.poolTarget m pch with
    | (none, s) => s
    | (some t, s) =>
      let s := s.setMc m { x with retired := x.retired ++ [(pch, page)], copies := x.copies ++ [.page pch page],
                                  targets := mput x.targets (pageKey pch page) t }
      let s := ((s.addFld (mcReg m 0x10) 0 16 1).setFld (mcReg m 0x10) 16 16 (s.poolFree m - 1)).setFld (mcReg m 0) 13 1 1
      let s := s.spareExhausted m
      let n := ((s.mc m).retired.filter fun e => e.1 == pch).length
      if s.fld (mcReg m 0x18) 8 12 < n then s.sparePch m pch else s

/-- A granule that HBM cannot correct is poisoned (R303); under a line that the lake holds it stays unseen until the line leaves
(R309, R310). -/
def State.hbmPoison (s : State) (a : Nat) : State :=
  if mhas s.lake (a / 256) then { s with hidden := insertNat s.hidden (a / 32) } else { s with mem := s.mem.mark a }

/-- One error that a controller finds in a granule (R303, R305). -/
def State.hbmError (s : State) (addr : Nat) (uncorrectable : Bool) : State :=
  let a := addr / 32 * 32
  if !(a < s.capacity || (fwBase ≤ a && a < fwEnd)) then s
  else
    let m := lineStack a
    let (k, s) := s.pageInUse m (linePch a) (pageOf a)
    let pch := k / 65536
    let page := k % 65536
    if uncorrectable then
      let s := (s.satFld (mcReg m 8) 32 32 1).setReg (mcReg m 0x28) (BitVec.ofNat 64 a)
      (s.hbmPoison a).retirePage m pch page
    else
      let s := s.satFld (mcReg m 8) 0 32 1
      let x := s.mc m
      let n := mget x.errs 0 k + 1
      let s := s.setMc m { x with errs := mput x.errs k n }
      if s.fld (mcReg m 0x18) 0 8 ≤ n then s.retirePage m pch page else s

/-- An error in a line that the lake holds (R311): counted; a clean line is read again from HBM, a dirty one leaves its granule
poisoned. -/
def State.lakeError (s : State) (addr : Nat) (uncorrectable : Bool) : State :=
  let a := addr / 32 * 32
  let line := a / 256
  if !mhas s.lake line then s
  else
    let s := s.satFld (lkReg (lineSlice a) 8) (if uncorrectable then 32 else 0) 32 1
    if !uncorrectable then s
    else if (s.lakeLine line).dirty then { s with mem := s.mem.mark a }
    else { s with mem := s.mem.marks (s.hidden.filter fun g => g / 8 == line), hidden := s.hidden.filter fun g => g / 8 != line }

/-- Poisons the granule of a pond that a window offset names. -/
def State.pondMark (s : State) (c o : Nat) : State :=
  if o < 196608 then s.modCore c fun k => { k with pond := k.pond.mark o } else s

/-- A corrected error in the state of a core: FT_CORE.CE, for the pond PD_ECC.CE, suspect at the threshold (R300, R484, R485). -/
def State.coreCorrected (s : State) (c o : Nat) : State :=
  let p := s.physOf c
  let s := s.satSil p 0 0 16
  let s := if o < 196608 then s.satSil p 1 0 32 else s
  if s.fld 0x8100B00008 0 16 ≤ bitsOf (s.silReg p 0).toNat 0 16 then s.makeSuspect p 3 else s

/-- An uncorrectable error in the state of a core (R300, R322, R484): a pond granule is poisoned, an instruction word is a
consumption of kind 7, other state one of kind 5; the core becomes suspect with reason 2. -/
def State.coreUncorrected (s : State) (c o : Nat) : State :=
  let p := s.physOf c
  let s := if o < 196608 then (s.pondMark c o).satSil p 1 32 32
    else if 0x40000 ≤ o ∧ o < 0x50000 then s.latchKill (s.coreJob c) 7 c 0 (cw c o)
    else s.latchKill (s.coreJob c) 5 c 0 0
  s.makeSuspect p 2

/-- Poisons an element of a well bank. -/
def Bank.mark (b : Bank) (i : Nat) : Bank := { b with elems := mput b.elems i { mget b.elems Elem.zero i with poison := true } }

/-- A parity error on a path to the array strikes an element of a well bank. -/
def Core.wellMark (k : Core) (bank i : Nat) : Core :=
  if bank = 0 then { k with bank0 := k.bank0.mark i } else { k with bank1 := k.bank1.mark i }

/-- An entry of the descriptor cache is to be fetched again from its table (R484). -/
def Core.refetch (k : Core) (i : Nat) : Core :=
  { k with dcache := k.dcache.zipIdx.map fun e => if e.2 = i % k.dcache.length then { e.1 with desc := none } else e.1 }

/-- A parity error of a core (R484). One with the address of a pond granule poisons that granule. The other paths and the descriptor
cache have no address: a free value tells which element of the well banks is struck, or which entry is fetched again (log 53). Where
elements are poisoned, the core becomes suspect with reason 1. -/
def State.parityError (s : State) (c o : Nat) : State :=
  let p := s.physOf c
  if o < 196608 then ((s.pondMark c o).satSil p 0 32 8).makeSuspect p 1
  else
    let (v, s) := s.freeVal 16
    let n := v / 4
    if v % 4 < 2 then ((s.modCore c fun k => k.wellMark (v % 2) (n % 2304)).satSil p 0 32 8).makeSuspect p 1
    else s.modCore c fun k => k.refetch n

/-- One error (R484). -/
def State.memError (s : State) (e : MemErr) : State :=
  let c := winCore e.addr
  let o := winOff e.addr
  match e.check with
  | .hbm => s.hbmError e.addr e.uncorrectable
  | .lake => s.lakeError e.addr e.uncorrectable
  | .coreEcc =>
    if !isWindow e.addr || !s.hasCore c then s
    else if e.uncorrectable then s.coreUncorrected c o else s.coreCorrected c o
  | .parity => if !isWindow e.addr || !s.hasCore c then s else s.parityError c o

/-- Whether an error can be found by a transfer of a core: in memory that it reads, or in the core itself. -/
def foundBy (c : Nat) (memory : Bool) (e : MemErr) : Bool :=
  match e.check with
  | .hbm => memory
  | .lake => memory
  | .coreEcc => isWindow e.addr && winCore e.addr == c
  | .parity => isWindow e.addr && winCore e.addr == c

/-- Whether a patrol scrub of a controller finds an error (R308). -/
def inStack (mc : Nat) (e : MemErr) : Bool :=
  (match e.check with | .hbm => true | _ => false) && lineStack e.addr == mc

end Sys2Proof.Machine
end

