-- ==== Sys2Proof/Machine/Stream.lean ====
section
/-! DEFINITION. The stream engine: LDT, STT, PRF, scans, SEND, RECV, FLAG, descriptor fetch, prefetch trackers
(08 R267 to R275, R287 to R291; 04 R115 to R117; 09 R312, R313, R315). -/

namespace Sys2Proof.Machine

open Sys2Proof

/-! ## Memories as a stream command sees them (R267, R281, R315) -/

/-- World of a command's accesses through a descriptor (R315). -/
def State.cmdSecure (s : State) (c : Nat) (d : Desc) : Bool := s.streamSecure c && d.secure

/-- Device memory in a world. -/
def State.devReader (s : State) (sec : Bool) : Reader :=
  { bytes := fun a n => s.devBytes sec a n, bad := fun a n => !(s.devBad sec a n).isEmpty }

/-- The memory that a descriptor names. -/
def State.descReader (s : State) (c : Nat) (d : Desc) : Reader :=
  if d.space then s.devReader (s.cmdSecure c d) else pondReader (s.core c).pond

/-- Byte ranges that elements occupy, scales and tags included. -/
def Desc.ranges (d : Desc) (ixs : List (List Nat)) : List (Nat × Nat) :=
  ixs.flatMap fun ix =>
    let (a, off) := d.elemAt ix
    let (t, toff) := d.tagAt ix
    span40 a ((off + fmtBits d.fmt + 7) / 8) ++ ((if d.scaled then [(d.scaleAt ix, 1)] else []) ++
      (if tagBits d.fmt = 0 then [] else [(t, (toff + tagBits d.fmt + 7) / 8)]))

/-- Counts a read of a command through a descriptor (R296, R317, R327). -/
def State.countDesc (s : State) (c : Nat) (d : Desc) (ixs : List (List Nat)) : State :=
  if d.space then s.countAccess (s.cmdSecure c d) (d.ranges ixs) else s

/-- Counts a write of a command through a descriptor; it leaves the lines dirty (R309). -/
def State.countWrite (s : State) (c : Nat) (d : Desc) (ixs : List (List Nat)) : State :=
  if d.space then s.countAccess (s.cmdSecure c d) (d.ranges ixs) true else s

/-- A job that writes a poisoned granule into the lake or device memory carries poison (R323). -/
def State.carry (s : State) (j : Nat) (sec : Bool) (w : PondWrite) : State :=
  if j != 0 && w.bad.any (fun g => s.reach sec (g * 32) = Reach.ok) then s.modJob j fun x => { x with carried := true } else s

/-- A write of cells through a descriptor. -/
def State.descWrite (s : State) (c : Nat) (d : Desc) (w : PondWrite) : State :=
  if d.space then
    let sec := s.cmdSecure c d
    ({ s with mem := s.mem.apply w fun a => s.reach sec a = Reach.ok }.carry (s.coreJob c) sec w)
  else s.pondApply c w

/-! ## Packed images (R272, R329) -/

/-- Index tuples of the dimension-0 rows of a tile, in order. -/
def Desc.rows (d : Desc) : List (List Nat) :=
  (List.range (d.e 1 * d.e 2 * d.e 3 * d.e 4)).map fun r => 0 :: unrank (d.ext.drop 1) r

/-- One packed row: its bytes and their marks (R66, R67). -/
def Desc.packRow (d : Desc) (r : Reader) (row : List Nat) : List (Byte × Bool) :=
  let w := fmtBits d.fmt
  let n := d.e 0
  let xs := (List.range n).map fun i =>
    let (a, off) := d.elemAt (i :: row.drop 1)
    (readBits r a off w, r.hit a ((off + w + 7) / 8))
  let v := ((List.range n).zip xs).foldl (fun v x => v + x.2.1 * 2 ^ (w * x.1)) 0
  (leBytes (rowBytes d.fmt n) v).zipIdx.map fun b =>
    (b.1, (((List.range n).zip xs).any fun x => x.2.2 && decide (w * x.1 < 8 * b.2 + 8) && decide (8 * b.2 < w * x.1 + w)))

/-- The first `bits` bits of byte `b` of a packed part; the others are pad (R67). -/
def keepBits (bits b : Nat) : Byte := BitVec.ofNat 8 (2 ^ min 8 (bits - 8 * b) - 1)

/-- Bits of a plane that are no pad. -/
def Desc.planeBits (d : Desc) : Nat := if d.scaled then 8 * d.planeBytes else d.count * tagBits d.fmt

/-- The packed image of a tile: elements in row-major order, then the plane; pad bits are zero (R67, R272). -/
def Desc.image (d : Desc) (r : Reader) : List (Byte × Bool) :=
  if d.count = 0 then []
  else d.rows.flatMap (d.packRow r) ++
    (List.range d.planeBytes).map fun (i : Nat) =>
      let a := wrap40 d.plane (i : Int)
      ((r.bytes a 1).getD 0 0 &&& keepBits d.planeBits i, r.bad a 1)

/-- The cells that byte `b` of a packed row writes: one byte, its pad bits zero (R67); with BCAST0 the elements of the row share
one place, and the bits of each element that the byte holds go there, the last of them staying (R279). -/
def Desc.rowCells (d : Desc) (row : List Nat) (b : Nat) (v : Byte) : List (Nat × Byte × Byte) :=
  let w := fmtBits d.fmt
  let (a, _) := d.elemAt (0 :: row.drop 1)
  if !d.bcast0 then [(wrap40 a (b : Nat), 0xFF, v &&& keepBits (w * d.e 0) b)]
  else if 8 ≤ w then [(wrap40 a (b % (w / 8) : Nat), 0xFF, v)]
  else
    ((List.range (d.e 0)).filter fun i => decide (w * i < 8 * b + 8) && decide (8 * b < w * i + w)).map fun i =>
      let lo := max (8 * b) (w * i)
      let hi := min (8 * b + 8) (w * i + w)
      let x := bitsOf v.toNat (lo - 8 * b) (hi - lo)
      (a, BitVec.ofNat 8 ((2 ^ (hi - lo) - 1) * 2 ^ (lo - w * i)), BitVec.ofNat 8 (x * 2 ^ (lo - w * i)))

/-- The write of the leading bytes of an image (R272). -/
def Desc.imageWrite (d : Desc) (bytes : List (Byte × Bool)) : PondWrite :=
  if d.count = 0 then PondWrite.none
  else
    let n := rowBytes d.fmt (d.e 0)
    let place := fun (x : (Byte × Bool) × Nat) =>
      if x.2 < n * d.rows.length then d.rowCells (d.rows.getD (x.2 / n) []) (x.2 % n) x.1.1
      else
        let i := x.2 - n * d.rows.length
        [(wrap40 d.plane (i : Nat), 0xFF, x.1.1 &&& keepBits d.planeBits i)]
    let xs := (bytes.take d.bytes).zipIdx
    { cells := xs.flatMap place,
      bad := (xs.filter fun x => x.1.2).flatMap fun x => (place x).map fun y => y.1 / 32 }

/-! ## Transfers (R275, R284, R285) -/

/-- Transfers outstanding: FLAG's deferred actions do not count. -/
def Core.outstanding (k : Core) : Nat := (k.xfers.filter fun x => x.code != 0x26).length

/-- A command of the stream engine starts; the issue unit holds while more than 32 transfers are outstanding (R275). -/
def State.streamStart (s : State) (c code : Nat) (sub : List Word → Bool) (eff : List Word → State → State) : State :=
  s.start c 2 code (fun ws => sub ws && decide ((s.core c).outstanding ≤ 32)) eff

/-- The issue unit is taken for `occ` cycles and a transfer begins, `scan` its number where it is a scan; CLRF clears its flag
(R267). -/
def State.beginXferAs (s : State) (c : Nat) (ws : List Word) (occ : Nat) (empty : Bool) (scan : Option Nat) : State :=
  s.modCore c fun k =>
    let k := if cmdBit ws 0 11 && cmdCode ws != 0x26 then k.streamFlag k.nextXfer (cmdField ws 0 16 6) false else k
    let x : Xfer := { id := k.nextXfer, code := cmdCode ws, words := ws, done := false, empty := empty, scan := scan }
    { k with streamBusy := k.cyc + BitVec.ofNat 64 occ, xfers := k.xfers ++ [x] }.nextId

/-- A transfer begins. -/
def State.beginXfer (s : State) (c : Nat) (ws : List Word) (occ : Nat) (empty : Bool) : State :=
  s.beginXferAs c ws occ empty none

/-- The outstanding transfer that a completion names. It ends whether or not the core is frozen: a freeze may wait for its flag
(R159, R241). -/
def State.xfer (s : State) (c code id : Nat) : Option Xfer :=
  if s.hasCore c then (s.core c).xfers.find? fun x => x.id == id && x.code == code else none

/-- A transfer completes: SETF sets its flag, its descriptors are free (R270, R272). -/
def State.endXfer (s : State) (c : Nat) (x : Xfer) : State :=
  (s.modCore c fun k =>
    let k := if cmdBit x.words 0 10 then k.streamFlag x.id (cmdField x.words 0 16 6) true else k
    { k with xfers := k.xfers.filter fun y => y.id != x.id }).unpin c x.words

/-! ## LDT and STT (R267 to R270, R287) -/

def ldtFmts : List Nat := [0, 1, 7, 8, 9]

/-- The two sides of an LDT or STT: pond-side tile, other side, origin without and with the member offset (R268, R283). -/
structure Move where
  tile : Desc
  far : Desc
  origin : List Nat
  start : List Nat

def State.moveOf (s : State) (c : Nat) (ws : List Word) (load : Bool) : Move :=
  let src := s.desc c (reqHandle (cmdField ws 2 0 12))
  let dst := s.desc c (reqHandle (cmdField ws 2 12 12))
  let tile := if load then dst else src
  let far := if load then src else dst
  let (i, j) := s.local c
  let o := (List.range 5).map fun k =>
    let v := cmdOrigin ws k
    if far.scaled && k = far.bdim then v / 32 * 32 else v
  { tile := tile, far := far, origin := o, start := addIx o (far.member i j tile.ext) }

/-- Whether two descriptors name the same format: code, and whether the elements carry block scales. -/
def sameFmt (a b : Desc) : Bool := a.fmt = b.fmt && a.scaled = b.scaled

/-- mix (R516). -/
def mix (e b nb : Nat) : Nat :=
  let m := 2 ^ 64
  let x := (e * 0x9E6C63D0676A9A99 + nb) % m
  let x := (List.range ((nb + 63) / 64)).foldl (fun x k =>
    let x := x ^^^ (b / 2 ^ (64 * k) % m)
    let x := x * 0xD6E8FEB86659FD93 % m
    x ^^^ (x / 2 ^ 32)) x
  let x := x * 0xA0761D6478BD642F % m
  x ^^^ (x / 2 ^ 29)

/-- Bits and width that enter a fingerprint (R287, R516). -/
def fpTerm (f e bits : Nat) (scale : Option Nat) (tag : Nat) : Nat :=
  let w := fmtBits f
  let t := tagBits f
  match scale with
  | some x => mix e (bits + x * 2 ^ w) (w + 8)
  | none => if t = 0 then mix e bits w else mix e (bits + tag * 2 ^ w) (w + t)

/-- The writes of elements moved unchanged (R269). -/
def Desc.moveCells (d : Desc) (os : List (List Nat × RawElem)) : PondWrite :=
  { cells := os.flatMap fun o => d.elemCells o.1 o.2.bits ++
      (match o.2.scale with | some e => d.scaleCells o.1 e | none => []) ++ d.tagCells o.1 o.2.tag,
    bad := os.flatMap fun o => if o.2.poison then d.elemGranules o.1 else [] }

/-- The writes of elements converted once (R269). -/
def Desc.convertCells (d src : Desc) (sat : Bool) (os : List (List Nat × RawElem)) : PondWrite :=
  (d.emitOwn sat (os.map fun o => outOf o.1 (src.value o.2) false false o.2.poison)).1

/-- What an LDT reads at or beyond its tensor's extent: +0, scale 127 (R268). -/
def zeroElem (d : Desc) : RawElem := { bits := 0, scale := if d.scaled then some 127 else none, tag := 0, poison := false }

/-- The pond-side tile of an LDT as it is written: in its own format, or in the one that stands for it in a conversion (R65,
R269). -/
def Move.written (m : Move) : Desc := if sameFmt m.far m.tile then m.tile else m.tile.withFmt ldtFmts

/-- An LDT's copy (R267 to R270). A block that the tensor's extent cuts keeps the scale of its elements inside. -/
def State.loadTile (s : State) (c : Nat) (ws : List Word) : State :=
  let m := s.moveOf c ws true
  let dst := m.written
  let r := s.descReader c m.far
  let pairs := dst.indices.map fun ix => (ix, addIx ix m.start)
  let (inside, outside) := pairs.partition fun p => m.far.within p.2
  let os := outside.map (fun p => (p.1, zeroElem m.far)) ++ inside.map fun p => (p.1, m.far.read r p.2)
  let w := if sameFmt m.far m.tile then dst.moveCells os else dst.convertCells m.far (cmdBit ws 0 12) os
  let s := s.countDesc c m.far (inside.map Prod.snd)
  let s := s.readKill c m.far (os.any fun o => o.2.poison)
  let s := s.countWrite c dst (pairs.map Prod.fst)
  s.descWrite c dst w

/-- An STT's copy, with its fingerprints: an element's logical index is the far side's, origin and member offset included
(R267 to R270, R282, R287). -/
def State.storeTile (s : State) (c : Nat) (ws : List Word) : State :=
  let m := s.moveOf c ws false
  let dst := if sameFmt m.far m.tile then m.far else m.far.withFmt ldtFmts
  let r := s.descReader c m.tile
  let pairs := (m.tile.indices.map fun ix => (ix, addIx ix m.start)).filter fun p => dst.within p.2
  let os := pairs.map fun p => (p.2, m.tile.read r p.1)
  let w := if sameFmt m.far m.tile then dst.moveCells os else dst.convertCells m.tile (cmdBit ws 0 12) os
  let s := s.countDesc c m.tile (pairs.map Prod.fst)
  let s := s.readKill c m.tile (os.any fun o => o.2.poison)
  let s := s.countWrite c dst (pairs.map Prod.snd)
  let s' := s.descWrite c dst w
  if dst.fpen then
    -- the bits as the write leaves them: read back from the write itself
    let after : Mem := (Mem.reset).apply { w with bad := [] } fun _ => true
    let rd : Reader := { bytes := fun a n => after.read a n, bad := fun _ _ => false }
    let sum := os.foldl (fun t o =>
      let x := dst.read rd o.1
      (t + fpTerm dst.fmt (dst.logical 0 o.1) x.bits x.scale x.tag) % 2 ^ 64) 0
    let s' := s'.addFld (sxFp c dst.fpslot) 0 64 sum
    if os.any fun o => o.2.poison then
      s'.setReg (sxFpPoison c) (s'.reg (sxFpPoison c) ||| (1#64 <<< dst.fpslot))
    else s'
  else s'

/-- Occupancy of LDT, STT and SEND (R275, R284, R285). -/
def moveCycles (d : Desc) : Nat := (d.bytes + 127) / 128 + 4

/-- Follows an LDT or RSVPOP in the prefetch trackers (R312): `key` names the source, `ev` the event. -/
def trackEvent (ts : List Tracker) (key : Nat) (ev : List Int) (next : Tracker → Tracker) : List Tracker :=
  ts.map fun t => if t.source = key then next { t with history := (ev :: t.history).take 3 } else t

/-- A step of a raster between two events, where `fast` and `slow` are what earlier steps have told of its dimensions: the origin
advances by the tile extent along the first, or it returns to 0 there and advances along the second (Table: Prefetch patterns). It
answers what is known of the two after the step, or nothing where the events do not match. An event is the address of the region,
the origin 0 to 4, the tile's extents 0 to 4 and the place of the region 0 to 4. -/
def rasterStep (fast slow : Option Nat) (a b : List Int) : Option (Option Nat × Option Nat) :=
  let d := fun k => b.getD (k + 1) 0 - a.getD (k + 1) 0
  let t := fun k => b.getD (k + 6) 0
  let known := fun (x : Option Nat) (k : Nat) => x.isNone || x == some k
  let turn := fun (k m : Nat) => b.getD (k + 1) 0 = 0 && d m = t m && known fast k && known slow m
  match (List.range 5).filter fun k => d k != 0 with
  | [k] => if d k = t k && known fast k then some (some k, slow) else none
  | [k, m] => if turn k m then some (some k, some m) else if turn m k then some (some m, some k) else none
  | _ => none

/-- Retrains a tracker of LDTs after an event (R312). Where three events match both patterns the tracker takes the strided one: DESIGN
CHOICE, R312 names no order of the two (log 12). -/
def Tracker.nextLdt (t : Tracker) : Tracker :=
  match t.history with
  | c :: b :: a :: _ =>
    let strided := c.getD 0 0 - b.getD 0 0 = b.getD 0 0 - a.getD 0 0
    if t.trained then
      if t.pattern = 1 && strided then t
      else match (if t.pattern = 2 then rasterStep t.fast t.slow b c else none) with
        | some (f, g) => { t with fast := f, slow := g }
        | none => { t with pattern := 0, trained := false, history := [c], fast := none, slow := none }
    else if strided then { t with pattern := 1, trained := true }
    else
      match (rasterStep none none a b).bind fun x => rasterStep x.1 x.2 b c with
      | some (f, g) => { t with pattern := 2, trained := true, fast := f, slow := g }
      | none => t
  | _ => t

/-- Retrains a tracker of RSVPOPs on one channel (R312). -/
def Tracker.nextPop (t : Tracker) : Tracker :=
  match t.history with
  | _ :: _ :: _ => { t with pattern := 3, trained := true }
  | _ => t

/-- Gives an event to the tracker of its source; where none follows it, one of the 8 begins to, chosen by a free value when
all are taken (R312; log 12). -/
def State.track (s : State) (c key : Nat) (ev : List Int) (next : Tracker → Tracker) : State :=
  let k := s.core c
  if s.fld (cw c 0x81820) 0 1 = 0 then s
  else if k.trackers.any (fun t => t.source == key) then s.setCore c { k with trackers := trackEvent k.trackers key ev next }
  else
    let t : Tracker := { pattern := 0, source := key, history := [ev], trained := false, fast := none, slow := none }
    if k.trackers.length < 8 then s.setCore c { k with trackers := k.trackers ++ [t] }
    else
      let (v, s) := s.freeVal 3
      s.setCore c { k with trackers := k.trackers.set v t }

/-- An LDT as a prefetch event: start address of its region, its origin, tile extents, the place of its region in the tensor. -/
def Move.event (m : Move) : List Int :=
  ((m.far.elemAt m.start).1 : Int) :: (m.origin ++ m.tile.ext ++ m.start).map fun (x : Nat) => (x : Int)

/-- LDT starts; errors that the checks find while it reads act with it (R267, R484). -/
def execLdt (c : Nat) (errs : List MemErr) (s : State) : Answer :=
  .next (s.streamStart c 0x20 (fun _ => true) fun ws s =>
    let m := s.moveOf c ws true
    let empty := m.tile.count = 0 || !s.takesPart c m.tile
    let reads := !empty && m.far.space
    let s := s.beginXfer c ws (if empty then 4 else moveCycles m.written) empty
    let s := if reads then s.track c (cmdField ws 2 0 12) m.event Tracker.nextLdt else s
    (errs.filter (foundBy c reads)).foldl State.memError s)

/-! ## Order of the accesses (R310) -/

def State.scanDesc (s : State) (c h : Nat) : Desc := (s.desc c (reqHandle h)).withFmt matrixFmts

/-- Formats of IN and OUT of a reduction (R427, R430). -/
def collInFmts : List Nat := [0, 1, 2, 3, 4, 5, 6, 7, 8, 9, 10, 11]
def collOutFmts : List Nat := [0, 1, 2, 3, 4, 5, 7, 8, 9, 10, 11]

/-- Whether the operation carries contributions. -/
def collReduces (op : Nat) : Bool := op = 0 || op = 2

/-- A tile of a COLL in device memory is its member's own: the member offset of R283 moves it (R422). DEDUCED: a tile in the pond
stands at BASE in every member's own pond, as for the other engines (log 65). -/
def State.ownTile (s : State) (c : Nat) (d : Desc) : Desc :=
  if d.space then { d with shift := d.member (s.local c).1 (s.local c).2 d.ext } else d

/-- IN and OUT as the COLL reads and writes them (R427, R429, R430). -/
def State.collTiles (s : State) (c : Nat) (ws : List Word) : Desc × Desc :=
  let din := s.ownTile c (s.desc c (reqHandle (cmdField ws 2 0 12)))
  let dout := s.ownTile c (s.desc c (reqHandle (cmdField ws 2 12 12)))
  if collReduces (collOp ws) then (din.withFmt collInFmts, dout.withFmt collOutFmts)
  else (din, { dout with fmt := din.fmt, scaled := din.scaled })

/-- The blotter of a COLL with S1 words (R443). -/
def State.collBlot (s : State) (c : Nat) (ws : List Word) : Option Desc :=
  if cmdField ws 3 0 12 = 0xFFF then none
  else
    let d := s.ownTile c (s.desc c (cmdField ws 3 0 12))
    some { d with fmt := 9, scaled := false }

/-- The memory lines that a transfer accesses (R310). -/
def State.xferLines (s : State) (c : Nat) (x : Xfer) : List Nat :=
  let lines : Desc → List (List Nat) → List Nat := fun d ixs =>
    if d.space then (d.ranges ixs).flatMap fun p => (pieces p.1 p.2).map fun q => q.1 / 256 else []
  let whole := fun (d : Desc) => lines d d.indices
  let ws := x.words
  if x.empty then []
  else if x.code = 0x20 ∨ x.code = 0x21 then
    let m := s.moveOf c ws (x.code = 0x20)
    lines m.far ((m.tile.indices.map fun ix => addIx ix m.start).filter m.far.within) ++ whole m.tile
  else if x.code = 0x22 ∧ x.scan.isSome then whole (s.scanDesc c (cmdField ws 2 0 12)) ++ whole (s.scanDesc c (cmdField ws 2 12 12))
  else if x.code = 0x25 then
    let (din, dout) := s.collTiles c ws
    whole din ++ whole dout ++ (match s.collBlot c ws with | some b => whole b | none => [])
  else []

/-- Whether a transfer has still to make accesses that others wait for: an LDT or STT, a scan that has not read, a COLL that has not
begun. -/
def State.accessDue (s : State) (c : Nat) (y : Xfer) : Bool :=
  !y.empty && (y.code == 0x20 || y.code == 0x21 || (y.code == 0x22 && y.scan.isSome && !y.done) ||
    (y.code == 0x25 && s.colls.any fun z => z.core == c && z.xfer == y.id && z.waiting && !z.empty))

/-- Whether a transfer may act: none that this core started before it has still to access one of its lines, since accesses
from one source to one line complete in issue order (R310); they are issued in start order: DEDUCED, the issue unit takes the
transfers one after another (R275; log 59). -/
def State.inOrder (s : State) (c : Nat) (x : Xfer) : Bool :=
  let before := (s.core c).xfers.filter fun y => decide (y.id < x.id) && s.accessDue c y
  before.isEmpty || (let own := s.xferLines c x; before.all fun y => (s.xferLines c y).all fun l => !own.contains l)

def execStt (c : Nat) (s : State) : Answer :=
  .next (s.streamStart c 0x21 (fun _ => true) fun ws s =>
    let m := s.moveOf c ws false
    let empty := m.tile.count = 0 || !s.takesPart c m.tile
    s.beginXfer c ws (if empty then 4 else moveCycles m.tile) empty)

/-! ## PRF and scans (R115 to R117, R156, R271) -/

/-- The region of a PRF: MEM with the extents of EXT, from the origin. -/
def State.prfRegion (s : State) (c : Nat) (ws : List Word) : Desc × List (List Nat) :=
  let mem := s.desc c (reqHandle (cmdField ws 2 0 12))
  let ext := s.desc c (reqHandle (cmdField ws 2 12 12))
  let o := (List.range 5).map (cmdOrigin ws)
  (mem, (ext.indices.map fun ix => addIx ix o).filter mem.within)

/-- Bytes of a PRF's region in memory (R275). -/
def prfBytes (mem ext : Desc) : Nat := { ext with fmt := mem.fmt, scaled := mem.scaled, bdim := mem.bdim }.bytes

def prfScanBit (ws : List Word) : Bool := cmdBit ws 0 12

def execPrf (c : Nat) (s : State) : Answer :=
  .next (s.streamStart c 0x22 (fun ws => !prfScanBit ws) fun ws s =>
    let mem := s.desc c (reqHandle (cmdField ws 2 0 12))
    let ext := s.desc c (reqHandle (cmdField ws 2 12 12))
    let empty := mem.count = 0 || ext.count = 0
    s.beginXfer c ws (if empty then 4 else (prfBytes mem ext + 2047) / 2048 + 4) empty)

/-- Bound exponents (Table: Bound exponents). -/
def fmtBound (f : Nat) : Int :=
  match f with
  | 0 => 9 | 1 => 16 | 2 => 5 | 3 => 3 | 4 => 3 | _ => 2

/-- A K-block's exponent: none when the block is entirely zero or special (R116). -/
def State.scanBlock (s : State) (c : Nat) (d : Desc) (kb : Nat) : Option Int × Bool :=
  let r := s.descReader c d
  let ixs := d.indices.filter fun ix => ix.getD d.bdim 0 / 32 = kb
  if d.scaled then
    let scales := (ixs.filter fun ix => ix.getD d.bdim 0 % 32 = 0).map fun ix => leNat (r.bytes (d.scaleAt ix) 1)
    let top := (scales.filter fun x => x != 255).foldl (fun (m : Option Int) (x : Nat) => maxOpt m (some (x : Int))) none
    (top.map fun t => t - 127 + fmtBound d.fmt, ixs.any fun ix => r.bad (d.scaleAt ix) 1)
  else
    let xs := ixs.map (d.read r)
    (boundExp (xs.map d.value), xs.any fun x => x.poison)

/-- The exponents of every K-block of an operand, and whether a poisoned element was read. -/
def State.scanOperand (s : State) (c : Nat) (d : Desc) : List (Option Int) × Bool :=
  let xs := (List.range ((d.e d.bdim + 31) / 32)).map (s.scanBlock c d)
  (xs.map Prod.fst, xs.any Prod.snd)

/-- Bytes that a scan reads of an operand (R116). -/
def scanBytes (d : Desc) : Nat := if d.scaled then d.planeBytes else d.bytes

/-- Counts what a scan reads: the scale plane of a block-scaled operand, every element of another (R116). -/
def State.countScan (s : State) (c : Nat) (d : Desc) : State :=
  if !d.space then s
  else if d.scaled then s.countAccess (s.cmdSecure c d) (span40 d.plane d.planeBytes)
  else s.countDesc c d d.indices

/-- Joins a member's exponents to those of the span (R156). -/
def joinBlocks (old : List (Nat × Option Int × Option Int)) (ea eb : List (Option Int)) : List (Nat × Option Int × Option Int) :=
  let n := max old.length (max ea.length eb.length)
  (List.range n).map fun kb =>
    let o := (old.getD kb (kb, none, none)).2
    (kb, maxOpt o.1 (ea.getD kb none), maxOpt o.2 (eb.getD kb none))

/-- The anchor of R116. -/
def scanAnchor (nb : Nat) (bs : List (Nat × Option Int × Option Int)) : Int :=
  let top := bs.foldl (fun m b =>
    match b.2.1, b.2.2 with
    | some x, some y => maxOpt m (some (x + y))
    | _, _ => m) (none : Option Int)
  match top with
  | none => 0
  | some t => clampAnchor ((clog2 nb : Int) + 5 + t)

/-- A member's part of a scan joins the sum of its span. -/
def ActiveSpan.joinScan (a : ActiveSpan) (seq : Nat) (ea eb : List (Option Int)) : ActiveSpan :=
  if a.scans.any (fun x => x.seq == seq) then
    { a with scans := a.scans.map fun (x : ScanSum) =>
        if x.seq = seq then { x with joined := x.joined + 1, blocks := joinBlocks x.blocks ea eb } else x }
  else { a with scans := a.scans ++ [{ seq := seq, joined := 1, blocks := joinBlocks [] ea eb }] }

/-- A scan starts. Where both operands that it names have no element, in every member alike, the command writes nothing (R285):
DEDUCED for a scan, which has two operands (log 60). -/
def execPrfScan (c : Nat) (s : State) : Answer :=
  .next (s.streamStart c 0x22 prfScanBit fun ws s =>
    let da := s.scanDesc c (cmdField ws 2 0 12)
    let db := s.scanDesc c (cmdField ws 2 12 12)
    let (i, j) := s.local c
    let empty := da.count = 0 && db.count = 0
    let n := (if i = 0 then scanBytes da else 0) + (if j = 0 then scanBytes db else 0)
    let s := s.beginXferAs c ws (if empty then 4 else (n + 127) / 128 + 4) empty (some (s.core c).scanSeq)
    s.modCore c fun k => { k with scanSeq := k.scanSeq + 1 })

/-- A member reads the operands that it holds and contributes their exponents (R151, R156). -/
def State.scanJoin (s : State) (c seq : Nat) (x : Xfer) : State :=
  let da := s.scanDesc c (cmdField x.words 2 0 12)
  let db := s.scanDesc c (cmdField x.words 2 12 12)
  let (i, j) := s.local c
  let (ea, badA) := if i = 0 then s.scanOperand c da else ([], false)
  let (eb, badB) := if j = 0 then s.scanOperand c db else ([], false)
  let s := if i = 0 then (s.countScan c da).readKill c da badA else s
  let s := if j = 0 then (s.countScan c db).readKill c db badB else s
  let s := s.modCore c fun k => { k with xfers := k.xfers.map fun y => if y.id = x.id then { y with done := true } else y }
  match s.spanOf c with
  | some a => s.modSpan a.corner fun a => a.joinScan seq ea eb
  | none => s

/-- The end of a scan in one member: it writes the anchor to its scan slot and sets its flag (R156). -/
def State.endScan (s : State) (c : Nat) (y : ScanSum) : State :=
  match (s.core c).xfers.find? (fun x => x.scan == some y.seq) with
  | none => s
  | some x =>
    let nb := max 1 (cmdField x.words 7 0 24)
    let slot := cw c (0x81020 + 8 * cmdField x.words 0 22 3)
    (if x.empty then s else s.setFld slot 0 11 (toSigned 11 (scanAnchor nb y.blocks))).endXfer c x

/-- A scan ends in every member at one cycle, once every member has contributed (R156). -/
def State.scanEnds (s : State) (c seq : Nat) : State :=
  match s.spanOf c with
  | none => s
  | some a =>
    match a.scans.find? (fun y => y.seq == seq) with
    | none => s
    | some y =>
      if y.joined = a.w * a.h then
        let s := s.modSpan a.corner fun a => { a with scans := a.scans.filter fun (z : ScanSum) => z.seq != seq }
        a.members.foldl (fun s m => s.endScan m y) s
      else s

/-- A PRF completes. Of a scan it completes the member's reads, which follow the earlier accesses of its core (R310); with the last
member's part the scan completes in every member (R156). A PRF without SCAN moves lines into the lake and reads no element: DESIGN
CHOICE, no rule says whether it consumes a poisoned one of a tensor with POISON 1 (R271, R286; log 60). -/
def execPrfComplete (c k : Nat) (s : State) : Answer :=
  match s.xfer c 0x22 k with
  | none => .next s
  | some x =>
    match x.scan with
    | some seq =>
      if x.done then .next (s.scanEnds c seq)
      else if s.inOrder c x then .next ((s.scanJoin c seq x).scanEnds c seq)
      else .next s
    | none =>
      if x.empty then .next (s.endXfer c x)
      else
        let (mem, ixs) := s.prfRegion c x.words
        .next ((s.countDesc c mem ixs).endXfer c x)

/-! ## SEND and RECV (R272, R414) -/

/-- The tile of a SEND or RECV: in the pond, with BASE[17:0] and PLANE[17:0]. DESIGN CHOICE: R281 says so of the matrix, vector and
reservoir engines, R272 calls the tile the "pond source or destination" and does not say how SPACE is read (log 61). -/
def State.sendTile (s : State) (c : Nat) (ws : List Word) : Desc := (s.desc c (reqHandle (cmdField ws 2 0 12))).inPond

def execSend (c : Nat) (s : State) : Answer :=
  done (s.streamStart c 0x23 (fun _ => true) fun ws s =>
    let d := s.sendTile c ws
    let f := s.sendFlow c ws
    let empty := d.count = 0 || !s.takesPart c d || !s.flowUsable f (s.coreJob c)
    let id := (s.core c).nextXfer
    let s := s.beginXfer c ws (if empty then 4 else moveCycles d) empty
    if empty then s
    else
      let img := d.image (pondReader (s.core c).pond)
      let s := s.readKill c d (img.any Prod.snd)
      s.flowQueue f (messageFlits (img.map Prod.fst) (img.map Prod.snd)) (some (c, id)))

/-- Every byte of the image has entered the retransmit buffer (R272), or the flow carries no traffic of the job any more (R414,
R417). -/
def execSendComplete (c k : Nat) (s : State) : Answer :=
  match s.xfer c 0x23 k with
  | none => .next s
  | some x =>
    let f := s.sendFlow c x.words
    if x.empty || !s.flowUsable f (s.coreJob c) || !(s.flow f).txq.any (fun y => y.2 == some (c, k)) then .next (s.endXfer c x)
    else .next s

def execRecv (c : Nat) (s : State) : Answer :=
  done (s.streamStart c 0x24 (fun _ => true) fun ws s =>
    let d := s.sendTile c ws
    let empty := d.count = 0 || !s.takesPart c d || !s.flowUsable (s.sendFlow c ws) (s.coreJob c)
    s.beginXfer c ws 4 empty)

/-- Whether a RECV is the first of its core that takes from its flow (R272, R361). -/
def State.recvFirst (s : State) (c f id : Nat) : Bool :=
  match (s.core c).xfers.find? (fun y => y.code == 0x24 && !y.empty && s.sendFlow c y.words == f) with
  | some y => y.id = id
  | none => false

def sxRxtrunc (c : Nat) : Nat := cw c 0x81810

/-- A whole message has arrived and may be taken (R447): its bytes are written as the image of the tile (R272). On a flow that
carries no traffic of the job any more the RECV moves nothing (R414, R417). -/
def execRecvComplete (c k : Nat) (s : State) : Answer :=
  match s.xfer c 0x24 k with
  | none => .next s
  | some x =>
    if x.empty then .next (s.endXfer c x)
    else
      let f := s.sendFlow c x.words
      if !s.flowUsable f (s.coreJob c) then .next (s.endXfer c x)
      else match s.peekMessage f with
      | none => .next s
      | some (bytes, bad) =>
        if s.recvFirst c f k && s.mayTake f then
          let d := s.sendTile c x.words
          let s := s.pondApply c (d.imageWrite (bytes.zip bad))
          let s := if d.bytes < bytes.length then s.addFld (sxRxtrunc c) 0 64 1 else s
          done ((s.dropMessage f).endXfer c x)
        else .next s

/-! ## FLAG (R274) -/

def flagOp (ws : List Word) : Nat := cmdField ws 0 10 2

/-- FLAG occupies the unit for one cycle. -/
def State.flagBusy (s : State) (c : Nat) : State := s.modCore c fun k => { k with streamBusy := k.cyc + 1 }

/-- WAIT has found its flag set (R274). -/
def execFlagWait (c : Nat) (s : State) : Answer :=
  .next (s.streamStart c 0x26 (fun ws => flagOp ws = 0) fun ws s =>
    (s.flagBusy c).modCore c fun k =>
      (if cmdBit ws 0 12 then k.setFlag (cmdField ws 0 16 6) false else k).nextId)

/-- What SET, CLR and CTRADD do (R274); `id` is the command's place in the start order. A CTRADD acts in the stream engine's world
(R315, R378). -/
def State.flagAct (s : State) (c id : Nat) (ws : List Word) : State :=
  let n := cmdField ws 0 16 6
  match flagOp ws with
  | 1 => s.modCore c fun k => k.streamFlag id n true
  | 2 => s.modCore c fun k => k.streamFlag id n false
  | _ =>
    let obj := cmdField ws 2 0 14
    let r := s.syncReachAs c obj false (s.streamSecure c)
    if r = .ok then (s.counterAdd obj (BitVec.ofInt 64 (signedOf 32 (cmdField ws 3 0 32)))).2 else s.syncRefuse r

/-- SET, CLR and CTRADD act at once when nothing started before them is outstanding, and are kept otherwise (R274). -/
def State.flagStart (s : State) (c : Nat) (ws : List Word) : State :=
  let k := s.core c
  if k.xfers.isEmpty then ((s.flagBusy c).flagAct c k.nextXfer ws).modCore c Core.nextId else s.beginXfer c ws 1 false

def execFlagSet (c : Nat) (s : State) : Answer :=
  .next (s.streamStart c 0x26 (fun ws => flagOp ws = 1) fun ws s => s.flagStart c ws)

def execFlagClr (c : Nat) (s : State) : Answer :=
  .next (s.streamStart c 0x26 (fun ws => flagOp ws = 2) fun ws s => s.flagStart c ws)

def execFlagCtradd (c : Nat) (s : State) : Answer :=
  .next (s.streamStart c 0x26 (fun ws => flagOp ws = 3) fun ws s => s.flagStart c ws)

/-- A kept action acts once every stream command that started before it has completed (R274). -/
def execFlagActionDue (c k : Nat) (s : State) : Answer :=
  match s.xfer c 0x26 k with
  | none => .next s
  | some x =>
    match (s.core c).xfers.head? with
    | some y =>
      if y.id = k then
        .next ((s.flagAct c x.id x.words).modCore c fun z => { z with xfers := z.xfers.filter fun w => w.id != k })
      else .next s
    | none => .next s

/-! ## Descriptors and prefetch (R288 to R291, R312, R313) -/

/-- A descriptor arrives in the cache; a poisoned one consumes (R289, R322 kind 5). -/
def execDescriptorFetch (c h : Nat) (s : State) : Answer :=
  let k := s.core c
  let q := s.coreHq c
  if s.hasCore c && k.dcache.any (fun e => e.hq == q && e.handle == h && e.desc.isNone) then
    let (v, bad, s) := s.fetchDesc q h
    let s := s.modCore c fun k => { k with dcache := k.dcache.map fun e => if e.hq = q ∧ e.handle = h then { e with desc := some v } else e }
    .next (if bad.isEmpty then s else s.consume c 5 (bad.headD 0 * 32))
  else .next s

/-- Lines of a region shifted by a byte delta. -/
def shiftedLines (d : Desc) (start ext : List Nat) (delta : Int) : List Nat :=
  let t := { d with ext := ext }
  t.rows.foldl (fun l row =>
    let a := wrap40 (d.elemAt (addIx row start)).1 delta
    (pieces a (rowBytes d.fmt (t.e 0))).foldl (fun l p => insertNat l (p.1 / 256)) l) []

/-- The event after an event in a raster (R312): along the first dimension while its tile lies in the tensor, then back to 0 there and
along the second; none while no step has told the second. -/
def rasterNext (d : Desc) (fast slow : Option Nat) (b : List Int) : Option (List Int) :=
  let at_ := fun k => b.getD k 0
  let moved := fun (k : Nat) (v : Int) (e : List Int) => (e.set (k + 1) v).set (k + 11) (e.getD (k + 11) 0 + v - e.getD (k + 1) 0)
  match fast, slow with
  | some f, g =>
    if at_ (f + 11) + at_ (f + 6) < (d.e f : Int) then some (moved f (at_ (f + 1) + at_ (f + 6)) b)
    else match g with
      | some g => some (moved g (at_ (g + 1) + at_ (g + 6)) (moved f 0 b))
      | none => none
  | none, _ => none

/-- The next `n` events of a raster. -/
def rasterAhead (d : Desc) (fast slow : Option Nat) : Nat → List Int → List (List Int)
  | 0, _ => []
  | n + 1, b =>
    match rasterNext d fast slow b with
    | some e => e :: rasterAhead d fast slow n e
    | none => []

/-- The lines of the `n` entries below a depth of a channel, the top one first, each of its own size (R312, R329). -/
def State.entriesBelow (s : State) (c ch : Nat) : Nat → Nat → List Nat
  | 0, _ => []
  | n + 1, depth =>
    if depth < 64 then []
    else
      let size := min depth (s.entrySize c ch depth)
      let low := s.fld (rvChanBase c ch) 0 40 + depth - size
      ((pieces low size).map fun p => p.1 / 256).reverse ++ s.entriesBelow c ch n (depth - size)

/-- The lines that a trained tracker predicts, nearest first (R312). -/
def State.predicted (s : State) (c : Nat) (t : Tracker) : List Nat :=
  let n := s.fld (cw c 0x81820) 1 3 + 1
  if t.pattern = 3 then s.entriesBelow c (t.source - 4096) n (s.fld (rvChan c (t.source - 4096)) 32 32)
  else
    let d := s.desc c t.source
    match t.history with
    | b :: a :: _ =>
      let part := fun (e : List Int) (k : Nat) => (List.range 5).map fun i => (e.getD (i + k) 0).toNat
      if t.pattern = 1 then
        let delta := b.getD 0 0 - a.getD 0 0
        (List.range n).flatMap fun m => shiftedLines d (part b 11) (part b 6) (delta * (m + 1 : Nat))
      else (rasterAhead d t.fast t.slow n b).flatMap fun e => shiftedLines d (part e 11) (part e 6) 0
    | _ => []

/-- World of a tracker's fills: that of the LDTs or of the reservoir path it follows (R315, R330). -/
def State.trackSecure (s : State) (c : Nat) (t : Tracker) : Bool :=
  s.streamSecure c && (t.pattern = 3 || (s.desc c t.source).secure)

/-- A trained tracker fills the next predicted line that the lake does not hold; a line whose prefetch would be dropped is passed
over (R312, R313). -/
def execPrefetchFill (c t : Nat) (s : State) : Answer :=
  match (s.core c).trackers[t]? with
  | none => .next s
  | some x =>
    if s.hasCore c && x.trained && s.fld (cw c 0x81820) 0 1 = 1 then
      match (s.predicted c x).find? (s.fillable (s.trackSecure c x)) with
      | some l => .next (s.lakeFill (s.trackSecure c x) l)
      | none => .next s
    else .next s

end Sys2Proof.Machine
end

