-- ==== Sys2Proof/Machine/Reservoir.lean ====
section
/-! DEFINITION. The reservoir engine and the reservoir path (08 R276; 10 R328 to R346). -/

namespace Sys2Proof.Machine

open Sys2Proof

/-- Counters of a core's reservoir registers: 0 RV_EMPTY, 1 RV_MISMATCH, 2 RV_REJECT. -/
def rvCount (c k : Nat) : Nat := cw c (0x82410 + 8 * k)

/-- Occupancy of RSVPUSH and RSVPOP (Table: Reservoir engine durations). -/
def rsvCycles (d : Desc) : Nat := (d.bytes + 255) / 256 + 2

/-- A reservoir command starts to run. -/
def State.rsvRun (s : State) (c : Nat) (r : Run) (occ comp : Nat) : State :=
  s.modCore c fun k =>
    { k with rsvOverflow := false,
             rsv := { busyUntil := k.cyc + BitVec.ofNat 64 occ,
                      runs := k.rsv.runs ++ [{ r with start := k.cyc, due := k.cyc + BitVec.ofNat 64 comp }] } }

/-- Tags of a reservoir command. -/
def rsvLayer (ws : List Word) : Nat := cmdField ws 3 0 16
def rsvMbatch (ws : List Word) : Nat := cmdField ws 4 0 24

/-- Table: Reservoir entry trailer. -/
def rsvTrailer (size layer mbatch fmt step : Nat) : List Byte :=
  leBytes 4 size ++ leBytes 2 layer ++ leBytes 3 mbatch ++ leBytes 1 fmt ++ leBytes 6 step ++ leBytes 48 0

/-! ## The staging area (R331) -/

/-- Units of 64 bytes that the staging area has free. -/
def State.freeStage (s : State) (c : Nat) : List Nat :=
  let used := (s.core c).staged.flatMap fun x => x.units
  (List.range (s.fld (rvStage c) 18 18 / 64)).filter fun u => !used.contains u

/-- Units for an entry of `size` bytes: where in the area an entry lies is not stated, and a free value chooses among the free
units (log 62). -/
def State.stageUnits (s : State) (c size : Nat) : List Nat × State :=
  let (v, s) := s.freeVal 18
  let free := s.freeStage c
  let k := v % max free.length 1
  ((free.drop k ++ free.take k).take (size / 64), s)

/-- Pond address of a unit. -/
def State.unitAddr (s : State) (c u : Nat) : Nat := s.fld (rvStage c) 0 18 + 64 * u

/-- The bytes of an entry, and its poisoned granules counted from its start. -/
def State.stageRead (s : State) (c : Nat) (x : Staged) : List Byte × List Nat :=
  let m := (s.core c).pond
  (x.units.flatMap fun u => m.read (s.unitAddr c u) 64,
   x.units.zipIdx.flatMap fun p =>
    [0, 1].filterMap fun h => if m.bad (s.unitAddr c p.1 + 32 * h) then some (2 * p.2 + h) else none)

/-- Writes bytes of an entry from byte `off` on, a multiple of 64, into the pond, with the marks of its granules that they cover,
counted from the entry's start. -/
def State.stageWrite (s : State) (c : Nat) (x : Staged) (off : Nat) (data : List Byte) (bad : List Nat) : State :=
  s.modCore c fun k =>
    { k with pond := (x.units.zipIdx.filter fun p => decide (off ≤ 64 * p.2) && decide (64 * p.2 < off + data.length)).foldl (fun m p =>
        let a := s.unitAddr c p.1
        (m.write a ((data.drop (64 * p.2 - off)).take 64)).marks
          ([0, 1].filterMap fun h => if bad.contains (2 * p.2 + h) then some (a / 32 + h) else none)) k.pond }

/-- The packed data of a tile, padded, with the marks of its bytes (R329). -/
def State.rsvData (s : State) (c : Nat) (ws : List Word) : List (Byte × Bool) :=
  let d := s.rsvTile c ws
  let img := d.image (pondReader (s.core c).pond)
  img ++ List.replicate (d.padded - img.length) (0, false)

/-- The entry that an RSVPUSH reserves (R334). -/
def State.rsvEntry (s : State) (c : Nat) (ws : List Word) (units : List Nat) : Staged :=
  let ch := rsvChan ws
  { chan := ch, addr := s.fld (rvChanBase c ch) 0 40 + s.fld (rvChan c ch) 32 32, size := (s.rsvTile c ws).padded + 64,
    units := units, st := .pushed, copying := true, popped := false }

/-- EV_RSV_REJECTED (R340). -/
def State.rsvReject (s : State) (c ch size : Nat) : State :=
  (s.addFld (rvCount c 2) 0 64 1).post (s.coreHead 0xA 1 c) [(5, ch), (32, size)]

/-- Whether an entry is one that a running RSVPUSH fills. -/
def Run.copies (r : Run) (x : Staged) : Bool := x.chan == r.bank && x.addr + 1 == r.seq && x.copying

/-- The entry that a running RSVPUSH fills: the newest of those at its address, since an earlier one has been popped. -/
def Run.entryOf (r : Run) (k : Core) : Option Staged := (k.staged.filter r.copies).getLast?

/-- An RSVPUSH copies 256 bytes of its tile into the staging area in cycle start + `u` of its occupancy, in the order of the entry:
DEDUCED from R334 and from Table: Reservoir engine durations (log 5). -/
def State.rsvPiece (c : Nat) (s : State) (r : Run) (u : Nat) : State × Run :=
  match r.entryOf (s.core c) with
  | none => (s, r)
  | some x =>
    let part := ((s.rsvData c r.words).drop (256 * u)).take 256
    let bad := (part.zipIdx.filter fun b => b.1.2).foldl (fun l b => insertNat l ((256 * u + b.2) / 32)) []
    ((s.readKill c (s.rsvTile c r.words) (!bad.isEmpty)).stageWrite c x (256 * u) (part.map Prod.fst) bad, r)

/-- The reservoir engine copies what its cycles have come to (R334); a freeze that is due holds it (R160). -/
def State.rsvAdvance (s : State) (c : Nat) : State :=
  if s.freezeDue c then s
  else
    let (s, rs) := s.readRuns (s.core c).cyc (State.rsvPiece c) (s.core c).rsv.runs
    s.modCore c fun k => { k with rsv := { k.rsv with runs := rs } }

/-- RSVPUSH starts: it allocates the entry, raises DEPTH and writes the trailer; its tile is copied over the occupancy (R333, R334,
R340). -/
def State.rsvPush (s : State) (c : Nat) (ws : List Word) : State :=
  let d := s.rsvTile c ws
  let occ := rsvCycles d
  let run := Run.new ws 0
  if d.count = 0 then s.rsvRun c run 1 1
  else if !s.takesPart c d then s.rsvRun c run occ (occ + 4)
  else if s.fld (rvStage c) 18 18 < d.padded + 64 then
    (s.rsvRun c run occ (occ + 4)).rsvReject c (rsvChan ws) (d.padded + 64)
  else
    let (units, s) := s.stageUnits c (d.padded + 64)
    let x := s.rsvEntry c ws units
    let trailer := rsvTrailer d.padded (rsvLayer ws) (rsvMbatch ws) d.fmt (s.fld (vxStep c) 0 48)
    let s := s.addFld (rvChan c x.chan) 32 32 x.size
    let s := s.modCore c fun k => { k with staged := k.staged ++ [x] }
    let s := s.rsvRun c { run with bank := x.chan, seq := x.addr + 1, units := (d.padded + 255) / 256 } occ (occ + 4)
    (s.rsvAdvance c).stageWrite c x d.padded trailer []

def execRsvpush (c : Nat) (s : State) : Answer :=
  .next (s.start c 3 0x30 (fun _ => true) fun ws s => s.rsvPush c ws)

/-- RSVPUSH completes its copy: the entry may be written to memory (R334). -/
def execRsvpushComplete (c : Nat) (s : State) : Answer :=
  let s := s.rsvAdvance c
  match s.completing c 0x30 (s.core c).rsv.runs with
  | none => .next s
  | some r =>
    let s := s.modCore c fun k =>
      { k with rsv := { k.rsv with runs := dropRun r k.rsv.runs },
               staged := match k.staged.find? r.copies with
                 | some y => k.staged.map fun x => if x = y then { x with copying := false } else x
                 | none => k.staged }
    .next (s.unpin c r.words)

/-! ## The reservoir path (R332, R334, R336) -/

/-- Whether a pop still copies an entry. -/
def Core.popCopies (k : Core) (x : Staged) : Bool := k.rsv.runs.any fun r => r.code == 0x31 && r.bank == x.chan && r.seq == x.addr + 1

/-- An entry after its transfer: one that no push holds and no pop copies any more leaves the staging area. -/
def Core.settleEntry (k : Core) (x : Staged) (keep : Bool) : Core :=
  if keep || (x.popped && k.popCopies x) then
    { k with staged := k.staged.map fun y => if y = x then { y with st := .staged } else y }
  else { k with staged := k.staged.filter fun y => y != x }

/-- The reservoir path completes the write of the oldest entry that it writes to channel memory (R330, R334). -/
def execRsvEntryWritten (c : Nat) (s : State) : Answer :=
  match (s.core c).staged.find? (fun x => x.st == .writing) with
  | none => .next s
  | some x =>
    if s.hasCore c then
      let sec := s.streamSecure c
      let (data, bad) := s.stageRead c x
      let w : PondWrite := { cells := [], bad := bad.map fun g => x.addr / 32 + g }
      let s := ((s.devWrite sec x.addr data).devMark sec w.bad).carry (s.coreJob c) sec w
      .next (s.modCore c fun k => k.settleEntry x false)
    else .next s

/-- The reservoir path completes the fetch of the oldest entry that it brings into the staging area (R330, R336). -/
def execRsvEntryStaged (c : Nat) (s : State) : Answer :=
  match (s.core c).staged.find? (fun x => x.st == .fetching) with
  | none => .next s
  | some x =>
    if s.hasCore c then
      let (bytes, bad, s) := s.devRead (s.streamSecure c) x.addr x.size
      let s := s.stageWrite c x 0 bytes (bad.map fun g => g - x.addr / 32)
      .next (s.modCore c fun k => k.settleEntry x (!x.popped))
    else .next s

/-- A zero tile: every element +0, every scale 127, every tag 0 (R339). -/
def Desc.zeroTile (d : Desc) : PondWrite := d.moveCells (d.indices.map fun ix => (ix, zeroElem d))

/-- DEPTH less an entry's size, whose bits [5:0] read 0 (Table: RV_CHAN); an entry larger than the depth leaves a depth that the spec
does not state: a free value (log 6). -/
def State.popDepth (s : State) (c ch size : Nat) : State :=
  let depth := s.fld (rvChan c ch) 32 32
  if size ≤ depth then s.setFld (rvChan c ch) 32 32 ((depth - size) / 64 * 64)
  else
    let (v, s) := s.freeVal 26
    s.setFld (rvChan c ch) 32 32 (v * 64)

/-- A pop takes the top entry, where it is staged; its write to memory is dropped if it has not started (R336). -/
def Core.takeEntry (k : Core) (ch top : Nat) : Core :=
  { k with staged := k.staged.map fun x =>
      if x.chan = ch ∧ (x.addr + x.size) % 2 ^ 40 = top % 2 ^ 40 ∧ !x.popped then
        { x with popped := true, st := if x.st = .pushed then .staged else x.st }
      else x }

/-- A pop that is rejected has read the trailer of an entry that is not staged (R296, R317, R330). -/
def State.readTrailer (s : State) (c ch depth : Nat) : State :=
  match s.stagedEnd c ch (s.trailerAt c ch depth + 64) with
  | some _ => s
  | none => (s.devRead (s.streamSecure c) (s.trailerAt c ch depth) 4).2.2

/-- RSVPOP starts (R336 to R340). One on a channel of depth 0 whose tile is larger than the staging area counts as a pop from an empty
channel only: DESIGN CHOICE, R339 and R340 both describe it and neither names an order (log 62). -/
def State.rsvPop (s : State) (c : Nat) (ws : List Word) : State :=
  let d := s.rsvTile c ws
  let ch := rsvChan ws
  let occ := rsvCycles d
  let run := Run.new ws 0
  if d.count = 0 then s.rsvRun c run 1 1
  else if !s.takesPart c d then s.rsvRun c run occ (occ + 4)
  else
    let depth := s.fld (rvChan c ch) 32 32
    let stage := s.fld (rvStage c) 18 18
    let zero := { run with write := d.zeroTile }
    if depth = 0 then
      let s := (s.addFld (rvCount c 0) 0 64 1).post (s.coreHead 9 1 c) [(5, ch), (16, rsvLayer ws), (24, rsvMbatch ws)]
      s.rsvRun c zero occ (occ + 4)
    else
      let size := s.entrySize c ch depth
      let top := s.fld (rvChanBase c ch) 0 40 + depth
      let names := fun (r : Run) => { r with bank := ch, seq := top - size + 1 }
      if stage < size ∨ stage < d.padded then
        let s := (s.readTrailer c ch depth).modCore c fun k => k.takeEntry ch top
        ((s.popDepth c ch size).rsvRun c (names zero) occ (occ + 4)).rsvReject c ch size
      else
        match s.topStaged c ch with
        | none => s
        | some x =>
          let (data, bad) := s.stageRead c x
          let tr := data.drop (x.size - 64)
          let layer := leNat ((tr.drop 4).take 2)
          let mbatch := leNat ((tr.drop 6).take 3)
          let fmt := leNat ((tr.drop 9).take 1) % 16
          let same := layer = rsvLayer ws ∧ mbatch = rsvMbatch ws ∧ fmt = d.fmt ∧ leNat (tr.take 4) = d.padded
          let n := min (x.size - 64) d.padded
          let bytes := (data.take n).zipIdx.map fun b => (b.1, bad.contains (b.2 / 32))
          let s := s.modCore c fun k => k.takeEntry ch top
          let s := (s.popDepth c ch x.size).track c (4096 + ch) [(x.size : Int)] Tracker.nextPop
          let s := if same then s
            else (s.addFld (rvCount c 1) 0 64 1).post (s.coreHead 8 1 c)
              [(5, ch), (16, rsvLayer ws), (24, rsvMbatch ws), (16, layer), (24, mbatch)]
          s.rsvRun c (names { run with write := d.imageWrite bytes }) occ (occ + 4)

def execRsvpop (c : Nat) (s : State) : Answer :=
  .next (s.start c 3 0x31 (fun _ => true) fun ws s => s.rsvPop c ws)

/-- RSVPOP completes: the tile is written and the staging space freed, unless the path still uses it (R337). -/
def execRsvpopComplete (c : Nat) (s : State) : Answer :=
  match s.completing c 0x31 (s.core c).rsv.runs with
  | none => .next s
  | some r =>
    let s := s.pondApply c r.write
    let gone := fun (x : Staged) => x.popped && x.st == .staged && x.chan == r.bank && x.addr + 1 == r.seq
    let s := s.modCore c fun k =>
      { k with rsv := { k.rsv with runs := dropRun r k.rsv.runs }, staged := k.staged.filter fun x => !gone x }
    .next (s.unpin c r.words)

/-- What the reservoir path fetches next: the entry of the first queued RSVPOP that is neither staged nor on its way (R336):
channel, address, size. `depths` are the depths that the commands ahead leave. Staging space goes to entries in the order in
which they are needed (R331): behind an RSVPUSH that has still to start, a command whose descriptor has not come, or a pop whose
entry is larger than the depth, which leaves a depth that is not stated, nothing is fetched. -/
def State.nextFetch (s : State) (c : Nat) : List QCmd → Map Nat → Option (Nat × Nat × Nat)
  | [], _ => none
  | q :: qs, depths =>
    let ws := q.words
    let ch := rsvChan ws
    let d := s.rsvTile c ws
    let depth := mget depths (s.fld (rvChan c ch) 32 32) ch
    let stage := s.fld (rvStage c) 18 18
    if cmdCode ws ≠ 0x30 ∧ cmdCode ws ≠ 0x31 then s.nextFetch c qs depths
    else if !s.cached c ws then none
    else if !s.rsvMoves c d then s.nextFetch c qs depths
    else if cmdCode ws = 0x30 then (if stage < d.padded + 64 then s.nextFetch c qs depths else none)
    else if depth = 0 then s.nextFetch c qs depths
    else
      let size := s.entrySize c ch depth
      let addr := (s.fld (rvChanBase c ch) 0 40 + depth + (2 ^ 40 - size % 2 ^ 40)) % 2 ^ 40
      let here := (s.core c).staged.any fun x => x.chan == ch && x.addr % 2 ^ 40 == addr && x.size == size && !x.popped
      if stage < size ∨ stage < d.padded ∨ here then
        (if depth < size then none else s.nextFetch c qs (mput depths ch ((depth - size) / 64 * 64)))
      else some (ch, addr, size)

/-- Transfers of the reservoir path that are outstanding. -/
def Core.pathTransfers (k : Core) : Nat := (k.staged.filter fun x => x.st == .writing || x.st == .fetching).length

/-- The reservoir path begins a transfer, while it has fewer than 4: the write of the oldest pushed entry (R334), else a fetch
for which staging space is free (R336). That a write goes before a fetch is a DESIGN CHOICE, the spec orders each kind alone
(log 62). -/
def State.beginPath (s : State) (c : Nat) : State :=
  let k := s.core c
  if 4 ≤ k.pathTransfers then s
  else
    match k.staged.find? (fun x => x.st == .pushed) with
    | some x =>
      if x.copying then s
      else s.setCore c { k with staged := k.staged.map fun y => if y = x then { y with st := .writing } else y }
    | none =>
      match s.nextFetch c (k.queue 3).cmds [] with
      | none => s
      | some (ch, addr, size) =>
        if size ≤ s.stageFree c then
          let (units, s) := s.stageUnits c size
          let x : Staged :=
            { chan := ch, addr := addr, size := size, units := units, st := .fetching, copying := false, popped := false }
          s.modCore c fun k => { k with staged := k.staged ++ [x] }
        else s

end Sys2Proof.Machine
end

