-- ==== Sys2Proof/Machine/Collectives.lean ====
section
/-! DEFINITION. Collectives: channels, contributions, the ring, the overrange repeat, thinning with the blotter
(13_collectives R421 to R444; 03 R95 to R100). -/

namespace Sys2Proof.Machine

open Sys2Proof

/-! ## Channels (R421 to R426) -/

/-- N of a channel: 0 stands for 4,096 (Table: FB_CCFG). -/
def State.chanRanks (s : State) (ch : Nat) : Nat := if s.fld (fbCcfg ch) 0 12 = 0 then 4096 else s.fld (fbCcfg ch) 0 12
def State.chanRank (s : State) (ch : Nat) : Nat := s.fld (fbCcfg ch) 12 12
def State.chanFlow (s : State) (ch : Nat) : Nat := s.fld (fbCcfg ch) 24 12
def State.chanAbsent (s : State) (ch : Nat) : Bool := s.fld (fbCcfg ch) 44 1 = 1

/-- Whether a job may use a channel (R421). -/
def State.chanUsable (s : State) (ch j : Nat) : Bool := s.fld (fbCcfg ch) 45 1 = 1 && s.chanJob ch = j

/-- Key of a COLL, by channel and sequence number, in `State.collDone` and `State.collCfg`. -/
def collKey (chan seq : Nat) : Nat := chan * 2 ^ 40 + seq

/-- The configuration of a COLL: what FB_CCFG held when its first member started it, else what it holds (R454). -/
def State.collConfig (s : State) (ch seq : Nat) : Nat := (mget s.collCfg (s.reg (fbCcfg ch)) (collKey ch seq)).toNat

def collChan (ws : List Word) : Nat := cmdField ws 3 12 10

/-- P: 1 to 2^20 (Table: COLL fields). -/
def collParts (ws : List Word) : Nat := max 1 (min (2 ^ 20) (cmdField ws 5 0 21))

/-- Agreed anchor; S1 ignores the field (R441). -/
def collAnchor (ws : List Word) : Int :=
  if collWord ws = 3 then 0 else clampAnchor (signedOf 16 (cmdField ws 4 0 16))

/-- Mloc (R425). -/
def Desc.slices (d : Desc) : Nat := if d.rank ≤ 1 then 1 else d.e (d.rank - 1)

/-- Elements of one slice. -/
def Desc.sliceCount (d : Desc) : Nat := if d.slices = 0 then 0 else d.count / d.slices

/-- E (R425). -/
def collElems (op : Nat) (din dout : Desc) : Nat :=
  min (2 ^ 32 - 1) (if collReduces op then din.sliceCount else dout.count)

/-- The indices of the first `e` elements of each slice, slice after slice: elements beyond E are not read (R425). -/
def Desc.sliceIxs (d : Desc) (e : Nat) : List (List Nat) :=
  (List.range d.slices).flatMap fun i => (List.range (min e d.sliceCount)).map fun k => unrank d.ext (i * d.sliceCount + k)

/-- Z (R426). -/
def shardSize (e n : Nat) : Nat := 256 * ((e + 256 * n - 1) / (256 * n))

/-- First element and length of the shard of a rank (R426). -/
def shardOf (e n r : Nat) : Nat × Nat :=
  let z := shardSize e n
  let lo := min (r * z) e
  (lo, min ((r + 1) * z) e - lo)

/-- The elements of a list that lie in a shard. -/
def cutShard {α : Type} (e n r : Nat) (l : List α) : List α := (l.drop (shardOf e n r).1).take (shardOf e n r).2

/-- Bits of a reduction word (R95). -/
def wordBits (word : Nat) : Nat := if word = 0 then 32 else if word = 1 then 48 else 64

/-- The flows that a COLL uses. -/
def Coll.flows (x : Coll) : List Nat :=
  if x.n ≤ 1 then []
  else if x.word = 3 then (otherRanks x.n x.rank).map (s1Flow x.base x.member x.n)
  else [ringTx x.base x.member, ringRx x.base x.member]

/-- Member index (R422). -/
def State.memberIndex (s : State) (c : Nat) : Nat :=
  let (i, j) := s.local c
  match s.spanOf c with | some a => j * a.w + i | none => 0

/-! ## The header (Table: Collective message header) -/

def Summary.none : Summary := { overRange := false, grid := false, sat := false, need := -32768, pc := 0 }

/-- Combination of two summaries of different modules (R432). -/
def Summary.join (a b : Summary) : Summary :=
  { overRange := a.overRange || b.overRange, grid := a.grid || b.grid, sat := a.sat || b.sat, need := max a.need b.need, pc := a.pc + b.pc }

def bitNat (b : Bool) : Nat := if b then 1 else 0

structure CollHead where
  phase : Nat
  op : Nat
  word : Nat
  pass : Bool
  t : Nat
  seq : Nat
  step : Nat
  attempt : Nat
  anchor : Int
  sum : Summary
  parts : Nat
  e : Nat

def CollHead.bytes (h : CollHead) : List Byte :=
  leBytes 1 h.phase ++ leBytes 1 (h.op + h.word * 8 + bitNat h.pass * 32 + bitNat h.sum.overRange * 64) ++
    leBytes 2 (bitNat h.sum.grid + bitNat h.sum.sat * 2 + h.t * 16) ++ leBytes 4 h.seq ++ leBytes 6 h.step ++
    leBytes 2 h.attempt ++ leBytes 2 (toSigned 16 h.anchor) ++ leBytes 2 (toSigned 16 h.sum.need) ++ leBytes 3 h.sum.pc ++
    leBytes 1 0 ++ leBytes 3 h.parts ++ leBytes 1 0 ++ leBytes 4 h.e

/-- A field of a message. -/
def msgField (m : List Byte) (i n : Nat) : Nat := leNat ((m.drop i).take n)

/-- The summary that a message carries. -/
def msgSummary (m : List Byte) : Summary :=
  { overRange := bitOf (msgField m 1 1) 6, grid := bitOf (msgField m 2 2) 0, sat := bitOf (msgField m 2 2) 1,
    need := signedOf 16 (msgField m 18 2), pc := msgField m 20 3 }

/-- The first field of a message that differs from the receiver's own, by its byte offset (R433, R434). -/
def headDiffers (m : List Byte) (h : CollHead) : Option Nat :=
  if msgField m 0 1 ≠ h.phase then some 0
  else if bitsOf (msgField m 1 1) 0 5 ≠ h.op + h.word * 8 then some 1
  else if msgField m 4 4 ≠ h.seq % 2 ^ 32 then some 4
  else if msgField m 16 2 ≠ toSigned 16 h.anchor then some 16
  else if msgField m 24 3 ≠ h.parts then some 24
  else if msgField m 28 4 ≠ h.e then some 28
  else none

/-- Whether a message belongs to the step and attempt that the module is in (R433). -/
def State.msgCurrent (s : State) (j : Nat) (m : List Byte) : Bool :=
  msgField m 8 6 = s.jobStep j && msgField m 14 2 = s.jobAttempt j

/-- The header that a COLL sends or expects. -/
def State.collHead (s : State) (x : Coll) (phase t : Nat) (sum : Summary) : CollHead :=
  { phase := phase, op := x.op, word := x.word, pass := x.pass, t := t, seq := x.seq % 2 ^ 32, step := s.jobStep x.job,
    attempt := s.jobAttempt x.job, anchor := x.anchor, sum := sum, parts := x.parts, e := x.e }

/-- A message on a flow. -/
def State.sendMessage (s : State) (f : Nat) (bytes : List Byte) : State :=
  s.flowQueue f (messageFlits bytes (List.replicate bytes.length false)) none

/-! ## Reduction words (R95 to R98, R430) -/

/-- Elements of a tile, with the marks of an L128 tag. -/
def State.readVals (s : State) (c : Nat) (d : Desc) (ixs : List (List Nat)) : List (Val × RawElem) :=
  let r := s.descReader c d
  ixs.map fun ix =>
    let x := d.read r ix
    (d.value x, x)

/-- One contribution: word, tag, and what it adds to the summary (R97, R98, R436). -/
def contribute (w g : Nat) (a : Int) (pass : Bool) (v : Val) : Int × Special × Summary :=
  match v with
  | .fin q =>
    if q.isZero then (0, .finite, Summary.none)
    else
      let unit := a - ((w - 1 - g : Nat) : Int)
      let n := q.grid unit none
      let lim : Int := 2 ^ (w - 1 - g)
      let grid := !(Q.dyadic n unit).eq q
      if lim ≤ (n.natAbs : Int) then
        let n' := if n < 0 then 1 - lim else lim - 1
        (n', .finite, { overRange := !pass, grid := grid, sat := pass, need := if pass then -32768 else q.log2 + 1, pc := 0 })
      else (n, .finite, { Summary.none with grid := grid })
  | v => (0, v.special, Summary.none)

/-- Sum of two words with their tags; the word wraps at its width (R93, R96). -/
def addWord (w : Nat) (a b : Int × Special) : Int × Special :=
  (signedOf w (toSigned w (a.1 + b.1)), a.2.combine b.2)

def addWords (w : Nat) : List (Int × Special) → List (Int × Special) → List (Int × Special)
  | a :: as, b :: bs => addWord w a b :: addWords w as bs
  | as, [] => as
  | [], bs => bs

/-- Marks of an L128 IN element (R430). -/
def tagSummary (d : Desc) (x : RawElem) : Summary :=
  if d.fmt = 11 then { Summary.none with grid := bitOf x.tag 3, sat := bitOf x.tag 2 } else Summary.none

/-- A module's words of all E elements, and its summary (R430). `xs` are the elements of its slices one after another. -/
def contributions (d : Desc) (w g e : Nat) (a : Int) (pass : Bool) (xs : List (Val × RawElem)) :
    List (Int × Special) × Summary :=
  let zero := List.replicate e ((0 : Int), Special.finite)
  (List.range (if e = 0 then 0 else xs.length / e)).foldl (fun acc k =>
    let slice := (xs.drop (k * e)).take e
    let ys := slice.map fun x => (contribute w g a pass x.1, tagSummary d x.2)
    let sum := ys.foldl (fun t y => (t.join y.1.2.2).join y.2) acc.2
    (addWords w acc.1 (ys.map fun y => (y.1.1, y.1.2.1)), { sum with pc := acc.2.pc + 1 })) (zero, Summary.none)

/-- Words and tags as a message carries them (R98, R432). -/
def packWords (w : Nat) (xs : List (Int × Special)) : List Byte :=
  let tags := (List.range xs.length).zip xs |>.foldl (fun v x => v + x.2.2.code * 4 ^ x.1) 0
  xs.flatMap (fun x => leBytes (w / 8) (if x.2 = Special.finite then toSigned w x.1 else 0)) ++ leBytes ((xs.length + 3) / 4) tags

/-- The words of a message body. -/
def unpackWords (w n : Nat) (m : List Byte) : List (Int × Special) :=
  let tags := leNat ((m.drop (n * (w / 8))).take ((n + 3) / 4))
  (List.range n).map fun k =>
    (signedOf w (leNat ((m.drop (k * (w / 8))).take (w / 8))), Special.ofCode (tags / 4 ^ k % 4))

/-- Words of a message that fails its check: free values (log 6). -/
def State.freeWords (s : State) (w n : Nat) : List (Int × Special) × State :=
  ((List.range n).map fun k => (signedOf w (Config.free (s.freeCtr + k)), Special.finite), { s with freeCtr := s.freeCtr + n })

/-! ## Gathered bits (R429) -/

/-- The block keys of the elements of a shard in order, elements beyond the tile's own in blocks of 32. -/
def Desc.blockKeys (d : Desc) (lo n : Nat) : List Nat :=
  (List.range n).map fun k =>
    let p := lo + k
    if p < d.count then d.scaleAt (unrank d.ext p)
    else if p / 32 = (d.count - 1) / 32 && d.count ≠ 0 then d.scaleAt (unrank d.ext (d.count - 1))
    else 2 ^ 41 + p / 32

/-- Keys without repeats, in order of first appearance. -/
def dedup : List Nat → List Nat → List Nat
  | seen, [] => seen.reverse
  | seen, k :: ks => if seen.contains k then dedup seen ks else dedup (k :: seen) ks

/-- The bits of elements, then a byte for each block scale or the packed tags (R66 to R68, R429). -/
def packBits (d : Desc) (xs : List RawElem) (keys : List Nat) : List Byte :=
  let w := fmtBits d.fmt
  let tb := tagBits d.fmt
  let ixd := (List.range xs.length).zip xs
  let v := ixd.foldl (fun v x => v + x.2.bits * 2 ^ (w * x.1)) 0
  let plane := if d.scaled then
      (dedup [] keys).map fun k =>
        match (keys.zip xs).find? (fun x => x.1 == k) with
        | some x => BitVec.ofNat 8 (x.2.scale.getD 127)
        | none => 127#8
    else leBytes ((xs.length * tb + 7) / 8) (ixd.foldl (fun v x => v + x.2.tag * 2 ^ (tb * x.1)) 0)
  leBytes (rowBytes d.fmt xs.length) v ++ plane

/-- The elements that bits stand for. -/
def unpackBits (d : Desc) (n : Nat) (keys : List Nat) (m : List Byte) : List RawElem :=
  let w := fmtBits d.fmt
  let tb := tagBits d.fmt
  let body := rowBytes d.fmt n
  let v := leNat (m.take body)
  let plane := m.drop body
  let t := leNat plane
  let order := dedup [] keys
  (List.range n).map fun k =>
    let scale := if d.scaled then
        some ((order.findIdx? (fun x => x == keys.getD k 0)).elim 127 fun i => (plane.getD i 127#8).toNat)
      else none
    { bits := v / 2 ^ (w * k) % 2 ^ w, scale := scale, tag := t / 2 ^ (tb * k) % 2 ^ tb, poison := false }

/-- A module's own part of a gather: `n` elements of IN, those that it lacks as zero (R429). -/
def State.ownBits (s : State) (c : Nat) (d : Desc) (n : Nat) : List Byte :=
  let r := s.descReader c d
  let xs := (List.range n).map fun k => if k < d.count then d.read r (unrank d.ext k) else zeroElem d
  packBits d xs (d.blockKeys 0 n)

/-! ## Thinning (R99, R100, R441 to R444) -/

/-- An S1 group: 256 signs, then an FP32 magnitude. The mean is the exact one: DESIGN CHOICE, R100 forms it on the exact lanes and
names no anchor of their grid (log 58). -/
def packGroup (xs : List Val) : List Byte :=
  let bad := xs.any fun v => !v.isFin
  let sum := xs.foldl (fun q v => match v with | .fin x => q.add x.abs | _ => q) Q.zero
  let m := if bad then 0x7FC00000 else if xs.isEmpty then 0 else toFp32 (.fin (sum.div (Q.ofInt xs.length)))
  let signs := ((List.range xs.length).zip xs).foldl (fun v x => if x.2.isNeg then v + 2 ^ x.1 else v) 0
  leBytes 32 signs ++ leBytes 4 m

/-- Decoded elements of a group. -/
def unpackGroup (n : Nat) (g : List Byte) : List Val :=
  let m := ofFp32 (leNat ((g.drop 32).take 4))
  let signs := leNat (g.take 32)
  (List.range n).map fun k => if m.isNan then .nan else if bitOf signs k then m.neg else m

/-- Groups of 256. -/
def groupsOf {α : Type} (l : List α) : List (List α) :=
  (List.range ((l.length + 255) / 256)).map fun i => (l.drop (256 * i)).take 256

/-- Decoded elements of a run of groups. -/
def unpackGroups (n : Nat) (m : List Byte) : List Val :=
  (List.range ((n + 255) / 256)).flatMap fun i => unpackGroup (min 256 (n - 256 * i)) ((m.drop (36 * i)).take 36)

/-- Index tuple of element `k` in the half of a blotter (R443). -/
def Desc.blotIx (d : Desc) (half k : Nat) : List Nat :=
  if d.e (d.rank - 1) < 2 then unrank d.ext k
  else (unrank (d.ext.set (d.rank - 1) 1) k).set (d.rank - 1) half

/-- The elements of a blotter half, element after element (R443). -/
def State.blotRead (s : State) (c : Nat) (b : Option Desc) (half e : Nat) : List RawElem :=
  match b with
  | some b =>
    let r := s.descReader c b
    (List.range e).map fun k =>
      let ix := b.blotIx half k
      if b.within ix then b.read r ix else zeroElem b
  | none => []

/-- Groups of a member's tile from its slices and its blotter; the summary, and the blotter's new values (R442, R443). -/
def State.thin (s : State) (c : Nat) (ws : List Word) (x : Coll) (d : Desc) (xs : List (Val × RawElem)) :
    List Byte × Summary × PondWrite :=
  let step := s.fld (vxStep c) 0 48
  let blot := s.collBlot c ws
  let olds := (s.blotRead c blot (step % 2) x.e).map fun y => decodeElem 9 none y.bits
  let old := fun k => olds.getD k Val.zero
  let m := if x.e = 0 then 0 else xs.length / x.e
  let ts := (List.range x.e).map fun k =>
    (List.range m).foldl (fun t i => t.add (xs.getD (i * x.e + k) (Val.zero, zeroElem d)).1) (old k)
  let gs := (groupsOf ts).map packGroup
  let news := ((groupsOf ts).zip gs).flatMap fun y =>
    (y.1.zip (unpackGroup y.1.length y.2)).map fun z =>
      if z.2.isNan then 0 else toFp32 (z.1.add z.2.neg)
  let sum := xs.foldl (fun t y => t.join (tagSummary d y.2)) Summary.none
  let w := match blot with
    | some b =>
      let cells := ((List.range news.length).zip news).flatMap fun y =>
        let ix := b.blotIx ((step + 1) % 2) y.1
        if b.within ix then b.elemCells ix y.2 else []
      { cells := cells, bad := [] }
    | none => PondWrite.none
  (gs.flatten, { sum with pc := m }, w)

/-! ## Course of a COLL -/

def State.putColl (s : State) (x : Coll) : State :=
  if s.colls.any (fun y => y.core = x.core ∧ y.xfer = x.xfer) then
    { s with colls := s.colls.map fun (y : Coll) => if y.core = x.core ∧ y.xfer = x.xfer then x else y }
  else { s with colls := s.colls ++ [x] }

/-- The command of a COLL. -/
def State.collWords (s : State) (x : Coll) : List Word :=
  match (s.core x.core).xfers.find? (fun y => y.id == x.xfer) with
  | some y => y.words
  | none => []

/-- Sends a shard in a ring step: partial sums or summed words (R431, R432, R437). -/
def State.sendShard (s : State) (x : Coll) (phase : Nat) (sum : Summary) (ys : List (Int × Special)) : State :=
  s.sendMessage (ringTx x.base x.member) ((s.collHead x phase x.t sum).bytes ++ packWords (wordBits x.word) ys)

/-- Lake traffic of a blotter half. -/
def State.countBlot (s : State) (c : Nat) (b : Desc) (half e : Nat) : State :=
  s.countDesc c b (((List.range e).map (b.blotIx half)).filter b.within)

/-- Starts a pass of a reduction: reads IN, forms the words, sends the first partial sum (R430, R431). A poisoned element
of IN or of the blotter is a consumption before any word leaves (R322 kind 1): the COLL then makes no progress. -/
def State.beginReduce (s : State) (x : Coll) : State :=
  let ws := s.collWords x
  let d := (s.collTiles x.core ws).1
  let ixs := if x.absent then [] else d.sliceIxs x.e
  let xs := s.readVals x.core d ixs
  let s := s.countDesc x.core d ixs
  let blot := if x.word = 3 && !x.absent then s.collBlot x.core ws else none
  let bs := s.blotRead x.core blot (s.fld (vxStep x.core) 0 48 % 2) x.e
  let s := match blot with | some b => s.countBlot x.core b (s.fld (vxStep x.core) 0 48 % 2) x.e | none => s
  if bs.any (fun y => y.poison) && !xs.any (fun y => y.2.poison) then
    let b := blot.getD d
    s.putColl { x with waiting := true } |>.consume x.core 1 (if b.space then b.base else cw x.core b.base)
  else if xs.any fun y => y.2.poison then s.putColl { x with waiting := true } |>.consume x.core 1 (if d.space then d.base else cw x.core d.base)
  else if x.word = 3 then
    let (g, sum, w) := if x.absent then
        (((groupsOf (List.replicate x.e Val.zero)).map packGroup).flatten, Summary.none, PondWrite.none)
      else s.thin x.core ws x d xs
    let part := fun q => (g.drop (36 * (q * (shardSize x.e x.n / 256)))).take (36 * (((shardOf x.e x.n q).2 + 255) / 256))
    let x := { x with stage := if x.n = 1 then 1 else 3, ownSum := sum, sum := sum, bits := [(x.rank, part x.rank)], blot := w }
    let s := s.putColl x
    (otherRanks x.n x.rank).foldl (fun s q =>
      s.sendMessage (s1Flow x.base x.member x.n q) ((s.collHead x 2 0 x.ownSum).bytes ++ part q)) s
  else
    let w := wordBits x.word
    let a := if x.pass then x.anchor2 else x.anchor
    let (own, sum) := contributions d w (clog2 x.parts) x.e a x.pass xs
    let x := { x with own := own, ownSum := sum, sum := sum, t := 0 }
    if x.n = 1 then s.putColl { x with stage := 1, shards := [(0, own)] }
    else
      let r := (x.rank + x.n - 1) % x.n
      (s.putColl { x with stage := 0, shards := [] }).sendShard x 0 sum (cutShard x.e x.n r own)

/-- Starts an all-gather or broadcast (R429). -/
def State.beginGather (s : State) (x : Coll) : State :=
  let d := (s.collTiles x.core (s.collWords x)).1
  let n := if x.op = 3 then x.e else (shardOf x.e x.n x.rank).2
  let reads := x.op = 1 || x.rank = 0
  let bad := reads && (List.range (min n d.count)).any fun k => (d.read (s.descReader x.core d) (unrank d.ext k)).poison
  let s := if reads then s.countDesc x.core d (d.indices.take n) else s
  if bad then s.putColl { x with waiting := true } |>.consume x.core 1 (if d.space then d.base else cw x.core d.base)
  else if reads then
    let b := s.ownBits x.core d n
    let x := { x with stage := if x.n = 1 || x.op = 3 then 4 else 2, bits := [(x.rank, b)] }
    let s := s.putColl x
    if x.n = 1 then s else s.sendMessage (ringTx x.base x.member) ((s.collHead x 1 0 Summary.none).bytes ++ b)
  else s.putColl { x with stage := 2 }

/-- A COLL begins on its channel; one that moves nothing is ready at once (R285). -/
def State.beginColl (s : State) (x : Coll) : State :=
  let x := { x with waiting := false, late := false }
  if x.empty then s.putColl { x with stage := 4 }
  else if collReduces x.op then s.beginReduce x else s.beginGather x

/-- Begins a COLL whose turn on its channel has come, once no earlier transfer of its core has still to access its lines (R310). -/
def State.tryColl (s : State) (x : Coll) : State :=
  let turn := match (s.core x.core).xfers.find? (fun y => y.id == x.xfer) with
    | some y => s.inOrder x.core y
    | none => true
  if turn then s.beginColl x else s.putColl { x with late := true }

def State.collEvent (s : State) (t : Nat) (x : Coll) (fields : List (Nat × Nat)) : State :=
  s.post (s.jobHead t 7 x.job) ([(10, x.chan), (27, x.seq)] ++ fields)

/-- Whether a member stands at the decision, has passed it, or had no part in it. -/
def State.memberReady (s : State) (x : Coll) (m : Nat) : Bool :=
  match s.colls.find? (fun y => y.core == m && y.chan == x.chan && y.seq == x.seq) with
  | some y => y.empty || (!y.waiting && 1 ≤ y.stage && y.stage ≠ 3)
  | none => decide (x.seq < s.chanSeq x.chan m)

/-- The members of a span combine their summaries (R432) and decide: a second pass when OVER is 1 in the first (R435), else
the sums are final (R428, R437). -/
def State.decideColl (s : State) (x : Coll) : State :=
  let ms := match s.spanOf x.core with | some a => a.members | none => [x.core]
  let group := s.colls.filter fun y => ms.contains y.core && y.chan == x.chan && y.seq == x.seq && y.stage == 1
  if group.isEmpty || !ms.all (s.memberReady x) then s
  else
    let all := group.foldl (fun t y => { t.join y.sum with pc := max t.pc y.sum.pc }) Summary.none
    if all.overRange && !x.pass && x.word ≠ 3 then
      let a2 : Int := min all.need 1023
      let s := s.collEvent 0x30 x [(16, toSigned 16 x.anchor), (16, toSigned 16 a2)]
      group.foldl (fun s y => s.beginReduce { y with pass := true, anchor2 := a2 }) s
    else
      let wrong := all.pc = 0 || x.parts < all.pc
      let s := if wrong then s.collEvent 0x31 x [(13, 0x1000), (8, 20)] else s
      group.foldl (fun s y =>
        let mis := if wrong then y.mismatch.or (some (0x1000, 20)) else y.mismatch
        let y := { y with sum := { all with pc := y.sum.pc }, mismatch := mis, t := 0,
                          stage := if y.op = 2 && 1 < y.n then 2 else 4 }
        let s := s.putColl y
        if y.stage = 2 then
          match y.shards with
          | (_, ws) :: _ => s.sendShard y 1 y.sum ws
          | [] => s
        else s) s

/-- Decides every group that can be decided. -/
def State.decideColls (s : State) : State := s.colls.foldl (fun s x => s.decideColl x) s

/-- The second pass of a span on one module can be complete at once; two rounds settle everything. -/
def State.advanceColls (s : State) : State := s.decideColls.decideColls

/-! ## Start (R273, R421, R423, R425) -/

/-- The COLL that a member starts, with the channel's configuration as its first member found it (R454). It moves nothing without
elements, in a member that EDGE excludes (R284), or over a flow that it may not use (R414). A rank with an empty shard takes part
(R426). -/
def State.collNew (s : State) (c : Nat) (ws : List Word) : Coll :=
  let ch := collChan ws
  let op := collOp ws
  let (din, dout) := s.collTiles c ws
  let e := collElems op din dout
  let seq := s.chanSeq ch c
  let cfg := s.collConfig ch seq
  let x : Coll :=
    { core := c, xfer := (s.core c).nextXfer, job := s.coreJob c, chan := ch, base := bitsOf cfg 24 12,
      n := if bitsOf cfg 0 12 = 0 then 4096 else bitsOf cfg 0 12, rank := bitsOf cfg 12 12, absent := bitOf cfg 44,
      member := s.memberIndex c, seq := seq, op := op,
      word := collWord ws, anchor := collAnchor ws, anchor2 := collAnchor ws, parts := collParts ws, e := e, stage := 0, t := 0,
      pass := false, own := [], shards := [], bits := [], ownSum := Summary.none, sum := Summary.none, mismatch := none,
      waiting := true, late := false, empty := false, blot := PondWrite.none }
  { x with empty := e = 0 || !s.takesPart c dout || !x.flows.all (fun f => s.flowUsable f x.job) }

/-- A COLL starts on its channel, or waits behind an earlier one of its member (R423); on a channel that the job may not use it
moves nothing and takes no sequence number (R421). -/
def State.collStart (s : State) (c : Nat) (ws : List Word) : State :=
  let x := s.collNew c ws
  let cfg := s.collConfig x.chan x.seq
  if !(bitOf cfg 45 && bitsOf cfg 36 6 = x.job) then s.beginXfer c ws 4 true
  else
    let s := { s with collSeq := mput s.collSeq (x.chan * 2048 + c) (x.seq + 1),
                      collCfg := mput s.collCfg (collKey x.chan x.seq) (BitVec.ofNat 64 cfg) }
    let s := s.beginXfer c ws (if x.empty then 4 else 8) false
    if s.colls.any (fun y => y.core == c && y.chan == x.chan) then (s.putColl x).advanceColls
    else (s.tryColl x).advanceColls

def execCollReduceScatter (c : Nat) (s : State) : Answer :=
  done (s.streamStart c 0x25 (fun ws => collOp ws = 0) fun ws s => s.collStart c ws)

def execCollAllGather (c : Nat) (s : State) : Answer :=
  done (s.streamStart c 0x25 (fun ws => collOp ws = 1) fun ws s => s.collStart c ws)

def execCollAllReduce (c : Nat) (s : State) : Answer :=
  done (s.streamStart c 0x25 (fun ws => collOp ws = 2) fun ws s => s.collStart c ws)

def execCollBroadcast (c : Nat) (s : State) : Answer :=
  done (s.streamStart c 0x25 (fun ws => collOp ws = 3) fun ws s => s.collStart c ws)

/-! ## The ends of LDT and STT (R267 to R270, R310) -/

/-- The COLLs of a core whose reads waited for its earlier accesses begin, where none is left (R310). -/
def State.resumeColls (s : State) (c : Nat) : State :=
  let late := s.colls.filter fun x => x.core == c && x.late
  if late.isEmpty then s else (late.foldl State.tryColl s).advanceColls.settle

def execLdtComplete (c k : Nat) (s : State) : Answer :=
  match s.xfer c 0x20 k with
  | none => .next s
  | some x => if s.inOrder c x then .next (((if x.empty then s else s.loadTile c x.words).endXfer c x).resumeColls c) else .next s

def execSttComplete (c k : Nat) (s : State) : Answer :=
  match s.xfer c 0x21 k with
  | none => .next s
  | some x => if s.inOrder c x then .next (((if x.empty then s else s.storeTile c x.words).endXfer c x).resumeColls c) else .next s

/-! ## Messages (R431 to R437, R444) -/

/-- A message that fails its check marks the COLL once (R434). -/
def State.markMismatch (s : State) (x : Coll) (f : Nat) (field : Nat) : Coll × State :=
  match x.mismatch with
  | some _ => (x, s)
  | none =>
    let r := s.peerRank f
    ({ x with mismatch := some (r, field) }, s.collEvent 0x31 x [(13, r), (8, field)])

/-- A ring message of a reduction: combine, then pass on or finish (R431, R432). -/
def State.reduceMessage (s : State) (x : Coll) (f : Nat) (m : List Byte) : State :=
  let w := wordBits x.word
  let r := (x.rank + 2 * x.n - x.t - 2) % x.n
  let len := (shardOf x.e x.n r).2
  let (x, got, s) := match headDiffers m (s.collHead x 0 x.t x.sum) with
    | some field => let (x, s) := s.markMismatch x f field
                    let (ys, s) := s.freeWords w len
                    (x, ys, s)
    | none => (x, unpackWords w len (m.drop 32), s)
  let ys := addWords w got (cutShard x.e x.n r x.own)
  let sum := x.ownSum.join (msgSummary m)
  let x := { x with sum := if x.pass then { sum with overRange := false } else sum }
  if x.t + 2 < x.n then
    let x := { x with t := x.t + 1 }
    (s.putColl x).sendShard x 0 sum ys
  else (s.putColl { x with stage := 1, shards := [(x.rank, ys)] }).advanceColls

/-- A ring message of a gather phase (R429, R437). -/
def State.gatherMessage (s : State) (x : Coll) (f : Nat) (m : List Byte) : State :=
  let fails := headDiffers m (s.collHead x 1 x.t x.sum)
  let (x, s) := match fails with | some field => s.markMismatch x f field | none => (x, s)
  let r := if x.op = 3 then 0 else (x.rank + x.n - x.t - 1) % x.n
  let more := if x.op = 3 then decide (x.rank + 1 < x.n) else decide (x.t + 2 < x.n)
  if x.op = 2 then
    let w := wordBits x.word
    let len := (shardOf x.e x.n r).2
    let (ys, s) := if fails.isSome then s.freeWords w len else (unpackWords w len (m.drop 32), s)
    let x := { x with t := x.t + 1, stage := if more then 2 else 4, shards := x.shards ++ [(r, ys)] }
    let s := s.putColl x
    if more then s.sendShard x 1 x.sum ys else s
  else
    let body := m.drop 32
    let (b, s) := if fails.isSome then
        ((List.range body.length).map fun k => Config.freeBits 8 (s.freeCtr + k), { s with freeCtr := s.freeCtr + body.length })
      else (body, s)
    let x := { x with t := if x.op = 3 then x.rank else x.t + 1, stage := if more && x.op ≠ 3 then 2 else 4,
                      bits := x.bits ++ [(r, b)] }
    let s := s.putColl x
    if more then s.sendMessage (ringTx x.base x.member) ((s.collHead x 1 x.t Summary.none).bytes ++ b) else s

/-- The groups of another rank (R444). -/
def State.s1Message (s : State) (x : Coll) (f q : Nat) (m : List Byte) : State :=
  let (x, s) := match headDiffers m (s.collHead x 2 0 x.sum) with
    | some field => s.markMismatch x f field
    | none => (x, s)
  let sum := { (x.sum.join (msgSummary m)) with overRange := false }
  let bits := x.bits ++ [(q, m.drop 32)]
  let x := { x with sum := sum, bits := bits }
  if bits.length = x.n then (s.putColl { x with stage := 1 }).advanceColls else s.putColl x

/-- A COLL takes a message of the flow it waits on; one of another step or attempt is discarded (R433, R447). -/
def State.collMessage (s : State) (x : Coll) (f : Nat) (m : List Byte) : State :=
  if !s.msgCurrent x.job m then s
  else if x.stage = 0 then s.reduceMessage x f m
  else if x.stage = 2 then s.gatherMessage x f m
  else
    match x.waitsOn f with
    | some q => s.s1Message x f q m
    | none => s

/-! ## Completion (R427 to R429, R434, R439, R444) -/

/-- v = S × P / Pc (R427). -/
def scaleSum (v : Val) (p pc : Nat) : Val :=
  match v with
  | .fin q => if pc = 0 then .nan else .fin (Q.mul q ⟨(p : Int), pc⟩)
  | v => v

/-- The writes of output elements of a reduction from the `lo`-th on (R427, R91). -/
def Desc.collWrite (d : Desc) (sat : Bool) (lo : Nat) (vs : List Val) : PondWrite :=
  let ixs := ((List.range vs.length).map fun k => lo + k).zip vs |>.filter fun x => x.1 < d.count
  if d.fmt = 11 then
    let os := ixs.map fun x => (unrank d.ext x.1, (LaneSum.zero d.anchor).sums [x.2], false)
    (d.emitWords os).1
  else (d.emitOwn sat (ixs.map fun x => outOf (unrank d.ext x.1) x.2 false false false)).1

/-- NaN in every element of a run (R72, R93, R434); S1 has no NaN of its own and reduction words none but their tag. -/
def State.nanWrite (s : State) (d : Desc) (n : Nat) : PondWrite × State :=
  let ixs := (List.range (min n d.count)).map (unrank d.ext)
  if d.fmt = 15 then
    ({ cells := ((List.range ixs.length).zip ixs).flatMap fun x => d.elemCells x.2 (Config.free (s.freeCtr + x.1) % 2), bad := [] },
     { s with freeCtr := s.freeCtr + ixs.length })
  else if 11 ≤ d.fmt then ({ cells := ixs.flatMap fun ix => d.elemCells ix 0 ++ d.tagCells ix 3, bad := [] }, s)
  else if d.scaled then ({ cells := ixs.flatMap fun ix => d.elemCells ix 0 ++ d.scaleCells ix 255, bad := [] }, s)
  else ({ cells := ixs.flatMap fun ix => d.elemCells ix (nanEnc d.fmt), bad := [] }, s)

/-- Sums of a shard that stand for reduction words (R95). -/
def Coll.wordVals (x : Coll) (ys : List (Int × Special)) : List Val :=
  let a := if x.pass then x.anchor2 else x.anchor
  let unit := a - ((wordBits x.word - 1 - clog2 x.parts : Nat) : Int)
  ys.map fun y => y.2.val (Q.dyadic y.1 unit)

/-- Sums of the own shard from the S1 groups of every rank (R444). -/
def Coll.s1Vals (x : Coll) : List Val :=
  let len := (shardOf x.e x.n x.rank).2
  let parts := x.bits.map fun b => unpackGroups len b.2
  (List.range len).map fun k =>
    let g := k / 256
    let mags := x.bits.map fun b => ofFp32 (leNat ((b.2.drop (36 * g + 32)).take 4))
    let a := match boundExp mags with | none => 0 | some e => clampAnchor ((clog2 x.n : Int) + e)
    ((LaneSum.zero a).sums (parts.map fun p => p.getD k Val.zero)).value

/-- How many elements of OUT a COLL writes. -/
def Coll.written (x : Coll) : Nat := if x.op = 0 then (shardOf x.e x.n x.rank).2 else x.e

/-- The writes that a COLL makes to OUT. -/
def State.collOutput (s : State) (x : Coll) (sat : Bool) (d : Desc) : PondWrite × State :=
  if x.mismatch.isSome then s.nanWrite d x.written
  else if x.op = 0 then
    let vs := if x.word = 3 then x.s1Vals else x.wordVals ((x.shards.headD (0, [])).2)
    (d.collWrite sat 0 (vs.map fun v => scaleSum v x.parts x.sum.pc), s)
  else if x.op = 2 then
    let whole := (List.range x.n).flatMap fun r =>
      match x.shards.find? (fun y => y.1 == r) with | some y => y.2 | none => []
    (d.collWrite sat 0 ((x.wordVals whole).map fun v => scaleSum v x.parts x.sum.pc), s)
  else
    let os := x.bits.flatMap fun b =>
      let (lo, n) := if x.op = 3 then (0, x.e) else shardOf x.e x.n b.1
      ((List.range n).map fun k => unrank d.ext (lo + k)).zip (unpackBits d n (d.blockKeys lo n) b.2)
    (d.moveCells (os.filter fun o => d.within o.1), s)

/-- Whether every member of the span has completed a COLL (FB_CSTAT counts it once). -/
def State.collOver (s : State) (x : Coll) : Bool :=
  let ms := match s.spanOf x.core with | some a => a.members | none => [x.core]
  ms.all fun m => decide (x.seq < s.chanSeq x.chan m) && !s.colls.any fun y => y.core == m && y.chan == x.chan && y.seq == x.seq

/-- The entry of the step record (R439, R512, R513). -/
def Coll.entry (x : Coll) : CollEntry :=
  { chan := x.chan, seq := x.seq, a := x.anchor, final := if x.pass then x.anchor2 else x.anchor, word := x.word,
    repeated := x.pass, grid := x.sum.grid, sat := x.sum.sat, mismatch := x.mismatch.isSome, pc := x.sum.pc,
    reduction := collReduces x.op && !x.empty, p := x.parts }

/-- What FB_CSTAT shows of a COLL (Table: FB_CSTAT), and one more COLL completed. -/
def State.collStat (s : State) (e : CollEntry) : State :=
  let r := fbCstat e.chan
  let s := ((((s.setFld r 0 21 e.pc).setFld r 21 11 (toSigned 11 e.final)).setFld r 32 1 (bitNat e.repeated)).setFld r 33 1
    (bitNat e.grid)).setFld r 34 1 (bitNat e.sat)
  (s.setFld r 35 1 (bitNat e.mismatch)).addFld r 37 27 1

/-- What the members of a COLL that have completed show of it together: it was mismatched when one of them was (R434). -/
def CollEntry.join (x : Coll) : Option CollEntry → CollEntry
  | none => x.entry
  | some e => if x.empty then e else { x.entry with mismatch := e.mismatch || x.mismatch.isSome }

/-- A member has completed a COLL. When its last member has, the COLL shows in FB_CSTAT, and a drop is posted once (R451, R454). -/
def State.collEnded (s : State) (x : Coll) : State :=
  let s := { s with colls := s.colls.filter fun (y : Coll) => !(y.core = x.core ∧ y.xfer = x.xfer) }
  let e := CollEntry.join x ((s.collDone.find? fun y => y.1 == collKey x.chan x.seq).map Prod.snd)
  let s := if s.collOver x then
      let key := collKey x.chan x.seq
      let s := ({ s with collDone := mdel s.collDone key, collCfg := mdel s.collCfg key } : State).collStat e
      if e.reduction && e.pc < e.p then s.collEvent 0x34 x [(21, e.p), (21, e.pc)] else s
    else { s with collDone := mput s.collDone (collKey x.chan x.seq) e }
  let s := if x.member = 0 then s.modJob x.job fun j => { j with colls := j.colls ++ [x.entry] } else s
  match s.colls.find? (fun y => y.core == x.core && y.chan == x.chan) with
  | some y => if y.waiting then (s.tryColl y).advanceColls else s
  | none => s

/-- The result of a COLL becomes final: OUT and the blotter are written, and the next COLL of its channel begins (R423). -/
def State.finishColl (s : State) (x : Coll) : State :=
  let ws := s.collWords x
  let dout := (s.collTiles x.core ws).2
  let (w, s) := s.collOutput x (cmdBit ws 0 12) dout
  let s := s.countWrite x.core dout (dout.indices.take x.written)
  let s := s.descWrite x.core dout w
  let s := match s.collBlot x.core ws with
    | some b =>
      if x.word = 3 && !x.absent then
        let half := (s.fld (vxStep x.core) 0 48 + 1) % 2
        (s.countWrite x.core b (((List.range x.e).map (b.blotIx half)).filter b.within)).descWrite x.core b x.blot
      else s
    | none => s
  s.collEnded x

/-- Whether a flow that a running COLL needs carries no traffic of its job any more: the COLL then moves nothing (R414, R417). -/
def State.collCut (s : State) (x : Coll) : Bool := !x.waiting && !x.flows.all fun f => s.flowUsable f x.job

/-- A COLL whose result is ready completes, after the earlier accesses of its core to its lines (R310); one that moves nothing completes
without a result (R285, R414). -/
def execCollComplete (c k : Nat) (s : State) : Answer :=
  match s.xfer c 0x25 k with
  | none => .next s
  | some x =>
    if x.empty then .next (s.endXfer c x)
    else
      match s.colls.find? (fun y => y.core == c && y.xfer == k) with
      | some y =>
        if !y.empty && s.collCut y then done ((s.collEnded { y with empty := true, sum := Summary.none }).endXfer c x)
        else if y.stage = 4 && !y.waiting && (y.empty || s.inOrder c x) then
          done ((if y.empty then s.collEnded y else s.finishColl y).endXfer c x)
        else .next s
      | none => .next s

end Sys2Proof.Machine
end

