-- ==== Sys2Proof/Machine/Records.lean ====
section
/-! DEFINITION. Step records and the rings they are written to (16_checkpoints_replay R508, R512 to R515). -/

namespace Sys2Proof.Machine

open Sys2Proof

def State.stepChan (s : State) (j : Nat) : Nat := s.fld (fwStepcfg j) 0 10

/-- Cores of a job in ascending order. -/
def State.coresUp (s : State) (j : Nat) : List Nat := (s.jobCores j).foldl insertNat []

/-! ## Commit vector (Table: Commit vector) -/

def State.ownVector (s : State) (j : Nat) : CommitVec :=
  let cs := s.jobCores j
  let ch := s.stepChan j
  let absent := s.chanAbsent ch
  { fps := (List.range 16).map fun n => cs.foldl (fun t c => t + s.reg (sxFp c n)) 0,
    fpPoison := cs.foldl (fun t c => t ||| (s.reg (sxFpPoison c)).setWidth 16) 0,
    ranks := if absent then [] else [s.chanRank ch],
    modules := if absent then 0 else 1 }

def CommitVec.join (a b : CommitVec) : CommitVec :=
  { fps := (List.range 16).map fun n => a.fps.getD n 0 + b.fps.getD n 0,
    fpPoison := a.fpPoison ||| b.fpPoison,
    ranks := b.ranks.foldl insertNat a.ranks,
    modules := a.modules + b.modules }

def bitmapBytes (ranks : List Nat) : List Byte := leBytes 512 (ranks.foldl (fun v r => v + 2 ^ r) 0)

def CommitVec.bytes (v : CommitVec) : List Byte :=
  v.fps.flatMap (fun x => leBytes 8 x.toNat) ++ leBytes 2 v.fpPoison.toNat ++ bitmapBytes v.ranks ++ leBytes 2 v.modules

def CommitVec.ofBytes (m : List Byte) : CommitVec :=
  let map := msgField m 130 512
  { fps := (List.range 16).map fun n => BitVec.ofNat 64 (msgField m (8 * n) 8),
    fpPoison := BitVec.ofNat 16 (msgField m 128 2),
    ranks := (List.range 4096).filter fun r => bitOf map r,
    modules := msgField m 642 2 }

/-! ## Step record (Table: Step record, R513) -/

def insertEntry (e : CollEntry) : List CollEntry → List CollEntry
  | [] => [e]
  | x :: l => if e.chan < x.chan ∨ (e.chan = x.chan ∧ e.seq < x.seq) then e :: x :: l else x :: insertEntry e l

def CollEntry.bytes (e : CollEntry) : List Byte :=
  let flags := bitNat e.repeated + 2 * bitNat e.grid + 4 * bitNat e.sat + 8 * bitNat e.mismatch
  leBytes 2 e.chan ++ leBytes 4 e.seq ++ leBytes 2 (toSigned 16 e.a) ++ leBytes 2 (toSigned 16 e.final) ++ leBytes 1 e.word ++
    leBytes 1 flags ++ leBytes 3 e.pc ++ leBytes 1 0

/-- Stream entry of a slot; the cursor of a bound slot is 0. -/
def Slot.entry (t : Slot) (c n : Nat) : List Byte :=
  leBytes 2 c ++ leBytes 1 n ++ leBytes 1 (bitNat t.free) ++ leBytes 3 t.mbatch.toNat ++ leBytes 1 0 ++
    leBytes 8 (if t.free then t.cursor.toNat else 0)

/-- The record of the step that a job commits, phase, CHECKPOINT, CORRELATED and seal still to come. -/
def State.buildRecord (s : State) (j : Nat) (v : CommitVec) : List Byte :=
  let cfg := fwStepcfg j
  let sealed := s.fld cfg 32 1
  let colls := ((s.job j).colls.foldl (fun l e => insertEntry e l) [])
  let mask := s.fld cfg 16 16
  let streams := (s.coresUp j).flatMap fun c =>
    ((List.range 16).filter fun n => bitOf mask n).map fun n => ((s.core c).slot n).entry c n
  let room := (2 ^ s.fld (fwSrring j) 45 5 - 1024 - 96 * sealed) / 16
  let kc := min colls.length room
  let ks := min streams.length (room - kc)
  let trunc := decide (kc < colls.length) || decide (ks < streams.length)
  let drop := colls.any fun e => e.reduction && decide (e.pc < e.p)
  let flags := 2 * sealed + 4 * bitNat drop + 8 * s.fld (fbJobpol j) 3 1 + 64 * bitNat trunc
  let note := if s.fld cfg 34 1 = 1 then (pondReader (s.core (s.fld cfg 53 10)).view).bytes (s.fld cfg 35 18) 256 else []
  let size := 1024 + 16 * (kc + ks) + 96 * sealed
  leBytes 4 size ++ leBytes 1 flags ++ leBytes 1 j ++ leBytes 6 (s.jobStep j) ++ leBytes 2 (s.jobAttempt j) ++
    leBytes 2 (s.chanRanks (s.stepChan j)) ++ leBytes 2 v.modules ++ leBytes 2 kc ++ leBytes 2 ks ++
    leBytes 2 v.fpPoison.toNat ++ leBytes 40 0 ++ v.fps.flatMap (fun x => leBytes 8 x.toNat) ++ bitmapBytes v.ranks ++
    (note ++ List.replicate (256 - note.length) 0) ++ leBytes 64 0 ++ (colls.take kc).flatMap CollEntry.bytes ++
    (streams.take ks).flatten

/-- A record with bits of its flag byte set. -/
def flagRecord (rec_ : List Byte) (bits : Nat) : List Byte :=
  rec_.take 4 ++ leBytes 1 (leNat ((rec_.drop 4).take 1) ||| bits) ++ rec_.drop 5

/-- Whether a record carries a seal, which keeper makes (R512). -/
def recordSealed (rec_ : List Byte) : Bool := bitOf (leNat ((rec_.drop 4).take 1)) 1

/-- A job's record ring: slots, and whether it is full (R515). -/
def State.srSlots (s : State) (j : Nat) : Nat := 2 ^ s.fld (fwSrring j) 40 5

/-- The scribe writes one record (R512, R515), in the world of the job (log 13). -/
def State.writeRecord (s : State) (j : Nat) (rec_ : List Byte) : State :=
  if s.fld (fwSrring j) 50 1 = 0 then s
  else
    let p := fwSrptr j
    let n := s.srSlots j
    let x := s.job j
    let s := if x.srFull then (s.setFld p 0 16 ((s.fld p 0 16 + 1) % n)).satFld p 32 32 1 else s
    let head := s.fld p 0 16
    let tail := s.fld p 16 16
    let body := flagRecord rec_ (bitNat x.srPhase)
    let body := if recordSealed body then body ++ leBytes 96 (Config.identitySignature body) else body
    let s := s.devWrite (s.jobSecure j) (s.fld (fwSrring j) 0 40 + tail * 2 ^ s.fld (fwSrring j) 45 5) body
    let tail' := (tail + 1) % n
    let s := s.setFld p 16 16 tail'
    s.modJob j fun x => { x with srPhase := if tail' = 0 then !x.srPhase else x.srPhase, srFull := decide (tail' = head) }

/-- Writes the records in line, in step order: the scribe must run, and keeper for a sealed one (R512, R574). -/
def State.flushRecords (s : State) (j : Nat) : Nat → State
  | 0 => s
  | n + 1 =>
    match (s.job j).records with
    | [] => s
    | r :: rest =>
      if s.roleUp 3 && (!recordSealed r || s.roleUp 0) then
        ((s.modJob j fun x => { x with records := rest }).writeRecord j r).flushRecords j n
      else s

/-- Hands a record to the scribe (R509). -/
def State.handRecord (s : State) (j : Nat) (rec_ : List Byte) : State :=
  let s := s.modJob j fun x => { x with records := x.records ++ [rec_], lastRecord := rec_ }
  s.flushRecords j (s.job j).records.length

/-- Slots of a record ring whose records the host has still to free. -/
def State.srUsed (s : State) (j : Nat) : Nat :=
  let p := fwSrptr j
  if (s.job j).srFull then s.srSlots j else (s.fld p 16 16 + s.srSlots j - s.fld p 0 16) % s.srSlots j

/-- Whether one more record finds no slot: those in line for scribe or keeper take theirs first (R512, R515). -/
def State.srNoRoom (s : State) (j : Nat) : Bool := decide (s.srSlots j ≤ s.srUsed j + (s.job j).records.length)

/-- Whether a commit holds for a slot of the record ring, behind earlier records that wait for one (R515). -/
def State.recordHolds (s : State) (j : Nat) : Bool :=
  s.fld (fwStepcfg j) 33 1 = 1 && s.fld (fwSrring j) 50 1 = 1 && (s.srNoRoom j || !(s.job j).heldRecords.isEmpty)

/-- The records that wait for a slot are handed over, oldest first (R512). -/
def State.handHeld (s : State) (j : Nat) : State :=
  (s.job j).heldRecords.foldl (fun s r => s.handRecord j r) (s.modJob j fun x => { x with heldRecords := [] })

end Sys2Proof.Machine
end

