-- ==== Sys2Proof/Machine/Checkpoint.lean ====
section
/-! DEFINITION. Checkpoints and restores: the state set, the partner copy, the hold region, the snapshot and flash tiers, and
the restore (16_checkpoints_replay R517 to R529). -/

namespace Sys2Proof.Machine

open Sys2Proof

/-! ## The state set (R517) -/

def Slot.save (t : Slot) : List Byte :=
  leBytes 4 t.k0.toNat ++ leBytes 4 t.k1.toNat ++ leBytes 4 t.k2.toNat ++ leBytes 1 (bitNat t.free) ++
    leBytes 3 t.mbatch.toNat ++ leBytes 8 t.cursor.toNat

def Slot.ofSave (m : List Byte) : Slot :=
  { k0 := BitVec.ofNat 32 (msgField m 0 4), k1 := BitVec.ofNat 32 (msgField m 4 4), k2 := BitVec.ofNat 32 (msgField m 8 4),
    free := msgField m 12 1 ≠ 0, mbatch := BitVec.ofNat 24 (msgField m 13 3), cursor := BitVec.ofNat 64 (msgField m 16 8) }

/-- A core's part of the device state block: ID, slots, VX_STEP, channel bases, limits and depths (log 22). -/
def State.coreBlock (s : State) (c : Nat) : List Byte :=
  leBytes 8 c ++ (List.range 16).flatMap (fun n => ((s.core c).slot n).save) ++ leBytes 8 (s.reg (vxStep c)).toNat ++
    (List.range 32).flatMap (fun ch => leBytes 8 (s.reg (rvChanBase c ch)).toNat ++ leBytes 8 (s.reg (rvChan c ch)).toNat)

/-- Bytes of a core's part. -/
def coreBlockBytes : Nat := 8 + 16 * 24 + 8 + 32 * 16

def pad8 (m : List Byte) : List Byte := m ++ List.replicate ((8 - m.length % 8) % 8) 0

/-- The device state block: core count, cores, length of the record, the committed step's record (log 22). -/
def State.deviceBlock (s : State) (j : Nat) : List Byte :=
  let cs := s.coresUp j
  let r := (s.job j).lastRecord
  leBytes 8 cs.length ++ cs.flatMap s.coreBlock ++ leBytes 8 r.length ++ pad8 r

/-- The regions that FW_CKLIST lists: base and length. -/
def State.listRegions (s : State) (j : Nat) : List (Nat × Nat) :=
  let a := s.fld (fwCklist j) 0 40
  (List.range (s.fld (fwCklist j) 40 12)).map fun i =>
    let m := s.devBytes (s.jobSecure j) (a + 16 * i) 16
    (msgField m 0 5, msgField m 8 5)

/-- Memory of every channel whose depth is not 0. -/
def State.chanRegions (s : State) (cs : List Nat) : List (Nat × Nat) :=
  cs.flatMap fun c => ((List.range 32).map fun ch => (s.fld (rvChanBase c ch) 0 40, s.fld (rvChan c ch) 32 32)).filter fun r => r.2 != 0

def State.ckRegions (s : State) (j : Nat) : List (Nat × Nat) := s.listRegions j ++ s.chanRegions (s.coresUp j)

/-- Reads of the scribe as accesses, each counted in its lines (R296, R310, R317). -/
def State.countReads (s : State) (sec : Bool) (rs : List (Nat × Nat)) : State := rs.foldl (fun s r => s.countAccess sec [r]) s

/-- The read of the list of regions. -/
def State.countList (s : State) (j : Nat) : State :=
  s.countReads (s.jobSecure j) [(s.fld (fwCklist j) 0 40, 16 * s.fld (fwCklist j) 40 12)]

/-- The read of a job's state set. -/
def State.countSet (s : State) (j : Nat) : State := (s.countList j).countReads (s.jobSecure j) (s.ckRegions j)

/-- For each byte of a range, whether a read meets poison there. -/
def State.devMarks (s : State) (sec : Bool) (a n : Nat) : List Bool :=
  let gs := s.devBad sec a n
  (List.range n).map fun i => gs.contains ((a + i) / 32)

/-- A write of bytes with their marks as one access (R301, R321). -/
def State.devWriteMarked (s : State) (sec : Bool) (a : Nat) (d : List Byte) (bad : List Bool) : State :=
  let marks := ((List.range d.length).filter fun i => bad.getD i false).map fun i => (a + i) / 32
  (s.devWrite sec a d).devMark sec marks

/-- The state set as bytes, read in the world of the job (log 13). -/
def State.stateSet (s : State) (j : Nat) : List Byte :=
  s.deviceBlock j ++ (s.ckRegions j).flatMap fun r => s.devBytes (s.jobSecure j) r.1 r.2

def State.stateSetBad (s : State) (j : Nat) : Bool := (s.ckRegions j).any fun r => !(s.devBad (s.jobSecure j) r.1 r.2).isEmpty

/-- Data fingerprint: the sum of mix over 8-byte words, the last filled with zeros (Table: Commit record). -/
def dataPrint (d : List Byte) : Nat :=
  (List.range ((d.length + 7) / 8)).foldl (fun t k => (t + mix k (msgField d (8 * k) 8) 64) % 2 ^ 64) 0

/-- Table: Commit record. -/
def commitRecord (step job rank feed : Nat) (correlated : Bool) (size print : Nat) : List Byte :=
  leBytes 6 step ++ leBytes 1 job ++ leBytes 1 (1 + 2 * bitNat correlated) ++ leBytes 2 rank ++ leBytes 1 feed ++ leBytes 5 0 ++
    leBytes 8 size ++ leBytes 8 print ++ leBytes 32 0

def recordValid (m : List Byte) : Bool := bitOf (msgField m 7 1) 0

/-! ## Messages (Table: Checkpoint message header) -/

/-- Bytes of data in one message (log 22). -/
def ckChunk : Nat := 65536

def State.ckHeader (s : State) (kind rank step off extra : Nat) (correlated : Bool) : List Byte :=
  leBytes 1 kind ++ leBytes 1 (s.power.feedId.toNat + 16 * bitNat correlated) ++ leBytes 2 rank ++ leBytes 6 step ++ leBytes 6 0 ++
    leBytes 8 off ++ leBytes 8 extra

/-- Sends data in messages on the flows in turn; its poison marks travel with it (R321, R392). -/
def State.sendData (s : State) (flows : List Nat) (rank step : Nat) (data : List Byte) (bad : List Bool) : State :=
  (List.range ((data.length + ckChunk - 1) / ckChunk)).foldl (fun s k =>
    let part := (data.drop (k * ckChunk)).take ckChunk
    let marks := List.replicate 32 false ++ (bad.drop (k * ckChunk)).take ckChunk
    s.flowQueue (flows.getD (k % flows.length) 0) (messageFlits (s.ckHeader 0 rank step (k * ckChunk) 0 false ++ part) marks) none) s

def State.ckFlows (s : State) (j : Nat) : List Nat :=
  let f := s.fld (fwCkcfg j) 12 12
  if s.fld (fwCkcfg j) 24 1 = 1 then [f, f + 1] else [f]

def State.ckResult (s : State) (j r : Nat) : State := s.setFld (fwCkstat j) 3 4 r

/-! ## Snapshot (R523, R524) -/

/-- A checkpoint transfer reads the state set; a poisoned granule of it is a consumption that kills the job instead (R322 kind 6). -/
def State.readSet (s : State) (j : Nat) (f : State → State) : State :=
  let s := s.countSet j
  if s.stateSetBad j then s.latchKill j 6 1024 0 (((s.ckRegions j).flatMap fun r => s.devBad (s.jobSecure j) r.1 r.2).headD 0 * 32)
  else f s

/-- Writes the state set to the snapshot region, its commit record last (R520, R523, R526). -/
def State.putSnapshot (s : State) (j step : Nat) (correlated : Bool) : State :=
  let sec := s.jobSecure j
  let a := s.fld (fwCksnap j) 0 40
  let d := s.stateSet j
  let s := s.devWrite sec a (leBytes 64 0)
  let s := s.devWrite sec (a + 4096) d
  let s := s.devWrite sec a (commitRecord step j s.ownRank s.power.feedId.toNat correlated d.length (dataPrint d))
  s.modJob j fun x => { x with snapshot := some step, snapshotFilled := true }

/-- Copies the state set to the snapshot region (R523). -/
def State.fillSnapshot (s : State) (j step : Nat) (correlated : Bool) : State :=
  s.readSet j fun s => s.putSnapshot j step correlated

/-- A flash write begins: the older of the two generations makes way first, its commit record written as zero (R520, R523). `own`: it is
that of a correlated checkpoint (R525). -/
def Job.flashBegin (x : Job) (step : Nat) (own : Bool) : Job :=
  { x with flashWriting := some step, flashOwn := own, gens := x.gens.take 1 }

/-- The flash write of a filled snapshot begins. -/
def State.flashStart (s : State) (j : Nat) : State :=
  s.modJob j fun x => match x.snapshot with
    | some step => if x.snapshotFilled && x.flashWriting.isNone then x.flashBegin step false else x
    | none => x

/-! ## End of a checkpoint -/

/-- What follows a boundary: a pending row fence holds the job (R489), else its spans resume. -/
def State.leaveBoundary (s : State) (j : Nat) : State :=
  let s := if s.fenceHolds j then s.addHold j .fence else s
  if (s.job j).holds.contains .checkpoint then s.dropHold j .checkpoint
  else if s.held j then s
  else s.resumeJob j

/-- A checkpoint ends: the step record that waited for it is handed over (R509, R512), a job that has committed since the lapse is orphaned
(R477), the flash write goes on in the background (R523), and the job leaves the boundary. -/
def State.ckLeave (s : State) (j : Nat) (ok correlated : Bool) : State :=
  let s := s.modJob j fun x => { x with ck := .idle }
  let s := match (s.job j).ckRecord with
    | some r => (s.modJob j fun x => { x with ckRecord := none }).handRecord j (flagRecord r (16 * bitNat ok + 32 * bitNat correlated))
    | none => s
  let s := if (s.job j).lapseCk then s.orphan j else s
  (((s.flashStart j).ckShow j).leaveBoundary j)

/-- The copy fails and the job resumes (R522). -/
def State.ckAbort (s : State) (j result : Nat) : State := (s.ckFail j result).ckLeave j false false

/-! ## Partner copy: the owner's side (R519 to R523) -/

/-- The scribe starts the checkpoint that a job holds for (R519, R523, R574): it waits while the scribe is down. -/
def State.ckBegin (s : State) (j : Nat) : State :=
  if !s.roleUp 3 then s
  else
    let step := (s.jobStep j + (2 ^ 48 - 1)) % 2 ^ 48
    let x := s.job j
    let flash := s.fld (fwCkcfg j) 29 1 = 1
    let free := x.flashWriting.isNone && !x.snapshotHeld
    let s := s.setFld (fwCkstat j) 8 1 (bitNat (flash && !free))
    let s := s.setFld (fwCkstat j) 7 1 0
    let s := s.modJob j fun x =>
      let y := { x with ck := .partnerCopy step, ckSteps := x.ckSteps.filter fun t => step < t }
      { y with snapshot := if flash && free then some step else none, snapshotFilled := false }
    let s := s.ckShow j
    let flows := s.ckFlows j
    s.readSet j fun s =>
      if !flows.all (fun f => s.flowUsable f j) then s.ckAbort j 1
      else
        let d := s.stateSet j
        let s := s.sendData flows s.ownRank step d (List.replicate d.length false)
        s.sendMessage (flows.headD 0) (s.ckHeader 1 s.ownRank step 0 d.length false)

/-- A checkpoint of a job that stands at a boundary. -/
def State.checkpoint (s : State) (j : Nat) : State := (s.addHold j .checkpoint).ckBegin j

/-- Whether the snapshot of a copy is still to be taken. -/
def Job.snapshotDue (x : Job) (step : Nat) : Bool := x.snapshot = some step && !x.snapshotFilled

/-- What the scribe does waits while its role is down, and comes in order when the role is back (R52, R574). -/
def State.whenScribe (s : State) (a : Answer) : Answer := if s.roleUp 3 then a else .next s

def execSnapshotCopyComplete (j : Nat) (s : State) : Answer := s.whenScribe <|
  match (s.job j).ck with
  | .partnerCopy step =>
    if (s.job j).snapshotDue step && (s.job j).killLatch.isNone then .next (s.fillSnapshot j step false) else .next s
  | _ => .next s

/-- A correlated checkpoint writes its snapshot to flash before the job resumes, behind an earlier write (R525). -/
def State.flashFirst (s : State) (j step : Nat) : State :=
  if s.fld (fwCkcfg j) 29 1 = 0 then s.ckLeave j true true
  else
    let s := s.modJob j fun x => { x with ck := .flashFirst step }
    if (s.job j).flashWriting.isSome then s.ckShow j
    else
      s.readSet j fun s =>
        let s := (s.putSnapshot j step true).modJob j fun x => { x.flashBegin step true with snapshotHeld := false }
        (s.setFld (fwCkstat j) 8 1 0).ckShow j

/-- The first whole message of a flow, as bytes, and its header's job. -/
def State.ckMessage (s : State) (f : Nat) : Option (List Byte × List Bool) := if s.flowLive f then s.peekMessage f else none

/-- The partner has acknowledged the copy: the checkpoint completes (R520, R525). -/
def State.copyAcked (s : State) (j step : Nat) (correlated : Bool) : State :=
  let s := ((s.ckResult j 0).setFld (fwCkstep j) 0 32 step).setFld (fwCkstat j) 7 1 (bitNat correlated)
  let partner := s.fld (fwCkcfg j) 0 12
  let s := s.post (s.jobHead 0x43 4 j) [(2, 0), (13, partner)]
  if correlated then (s.post (s.jobHead 0x44 4 j) [(13, partner)]).flashFirst j step
  else s.ckLeave j true false

/-- The acknowledgement: the copy completes (R520, R522, R525), after the snapshot's copy (R523); in a restore it brings the
fingerprint (log 22). -/
def execCkptAck (f : Nat) (s : State) : Answer := s.whenScribe <|
  match s.ckMessage f with
  | none => .next s
  | some (m, _) =>
    let j := s.flowJob f
    if msgField m 0 1 ≠ 2 then .next s
    else
      let s := s.dropMessage f
      match (s.job j).ck with
      | .partnerCopy step =>
        if msgField m 4 6 ≠ step || (s.job j).killLatch.isSome then done s
        else
          let correlated := bitOf (msgField m 1 1) 4
          done (if (s.job j).snapshotDue step then
              s.readSet j fun s => (s.putSnapshot j step correlated).copyAcked j step correlated
            else s.copyAcked j step correlated)
      | .restoring _ 2 => done (s.modJob j fun x => { x with restorePrint := some (msgField m 24 8) })
      | _ => done s

/-! ## The holder's side (R520, R526) -/

/-- Half of a hold region. -/
def State.holdHalf (s : State) (j : Nat) : Nat := s.fld (fwCkhold j) 52 10 / 2 * 2 ^ 30

def State.holdSlot (s : State) (j k : Nat) : Nat := s.fld (fwCkhold j) 0 40 + k * s.holdHalf j

/-- Commit record of a slot, read in the world of the flow (R315). -/
def State.holdRecord (s : State) (j f k : Nat) : List Byte := s.devBytes (s.flowSecure f) (s.holdSlot j k) 64

/-- The reads of both commit records. -/
def State.countHold (s : State) (j f : Nat) : State :=
  s.countReads (s.flowSecure f) [(s.holdSlot j 0, 64), (s.holdSlot j 1, 64)]

/-- The slot that does not hold the newer valid generation. -/
def State.holdOlder (s : State) (j f : Nat) : Nat :=
  let a := s.holdRecord j f 0
  let b := s.holdRecord j f 1
  if !recordValid a then 0
  else if !recordValid b then 1
  else if msgField b 0 6 < msgField a 0 6 then 1 else 0

/-- A message of the owner whose copies are accepted; others are discarded (Table: FW_CKHOLD). -/
def State.holdAccepts (s : State) (j : Nat) (m : List Byte) : Bool := msgField m 2 2 = s.fld (fwCkhold j) 40 12

/-- The progress of the copy that a message belongs to; a new one begins by writing its slot's commit record as zero. A region of size 0
has no slot. -/
def State.holdFor (s : State) (j f : Nat) (m : List Byte) : HoldIn × State :=
  let rank := msgField m 2 2
  let step := msgField m 4 6
  let fresh :=
    let feed := msgField m 1 1 % 16
    let own := s.power.feedId.toNat
    let h : HoldIn := { flow := f, rank := rank, step := step, feed := feed, slot := s.holdOlder j f,
                        correlated := feed = own || feed = 15 || own = 15, got := 0, size := none }
    (h, if s.holdHalf j = 0 then s else (s.countHold j f).devWrite (s.flowSecure f) (s.holdSlot j h.slot) (leBytes 64 0))
  match (s.job j).holdIn with
  | some h => if h.rank = rank ∧ h.step = step then (h, s) else fresh
  | none => fresh

/-- The copy is complete when every byte has arrived: the commit record is written and the owner acknowledged. -/
def State.holdCommit (s : State) (j f : Nat) (h : HoldIn) : State :=
  let base := s.holdSlot j h.slot
  match h.size with
  | none => s.modJob j fun x => { x with holdIn := some h }
  | some n =>
    if s.holdHalf j < n || s.holdHalf j = 0 then
      -- a state set that exceeds half of SIZE fails, and the owner hears so by KIND 4 (R522; log 22)
      (s.modJob j fun x => { x with holdIn := none }).sendMessage f (s.ckHeader 4 h.rank h.step 0 0 false)
    else if h.got < n then s.modJob j fun x => { x with holdIn := some h }
    else
      let sec := s.flowSecure f
      let p := dataPrint (s.devBytes sec (base + 4096) n)
      let s := s.countReads sec [(base + 4096, n)]
      let s := s.devWrite sec base (commitRecord h.step j h.rank h.feed h.correlated n p)
      (s.modJob j fun x => { x with holdIn := none }).sendMessage f (s.ckHeader 2 h.rank h.step 0 p h.correlated)

/-- Data that a holder takes; a copy that exceeds half of SIZE fails when its size is known, and what exceeds it is not written. -/
def State.holdData (s : State) (j f : Nat) (m : List Byte) (bad : List Bool) : State :=
  let (h, s) := s.holdFor j f m
  let off := msgField m 16 8
  let d := m.drop 32
  let a := s.holdSlot j h.slot + 4096 + off
  let sec := s.flowSecure f
  let s := if off + d.length ≤ s.holdHalf j then
      let marks := ((List.range d.length).filter fun i => bad.getD (i + 32) false).map fun i => (a + i) / 32
      (s.devWriteMarked sec a d (bad.drop 32)).carry j sec { cells := [], bad := marks }
    else s
  s.holdCommit j f { h with got := h.got + d.length }

/-- Whether a message belongs to the restore that this module has asked for. -/
def State.restoreWants (s : State) (j : Nat) (m : List Byte) : Bool :=
  match (s.job j).ck with
  | .restoring step 2 => msgField m 2 2 = s.ownRank && msgField m 4 6 = step
  | _ => false

/-- A data message; a message of KIND 5 to 255 is discarded. -/
def execCkptData (f : Nat) (s : State) : Answer := s.whenScribe <|
  match s.ckMessage f with
  | none => .next s
  | some (m, bad) =>
    let j := s.flowJob f
    let kind := msgField m 0 1
    if 5 ≤ kind then done (s.dropMessage f)
    else if kind ≠ 0 then .next s
    else
      let s := s.dropMessage f
      if s.restoreWants j m then
        done (s.modJob j fun x => { x with restoreIn := x.restoreIn ++ [(msgField m 16 8, m.drop 32, bad.drop 32)] })
      else if s.holdAccepts j m then done (s.holdData j f m bad)
      else done s

def execCkptEndOfData (f : Nat) (s : State) : Answer := s.whenScribe <|
  match s.ckMessage f with
  | none => .next s
  | some (m, _) =>
    let j := s.flowJob f
    if msgField m 0 1 ≠ 1 then .next s
    else
      let s := s.dropMessage f
      let n := msgField m 24 8
      if s.restoreWants j m then done (s.modJob j fun x => { x with restoreSize := some n })
      else if s.holdAccepts j m then
        let (h, s) := s.holdFor j f m
        done (s.holdCommit j f { h with size := some n })
      else done s

/-- Sends the checkpoint held in slot `k` for a flow: its data with marks, its size and the message that ends it (R526). -/
def State.sendHeld (s : State) (j f k rank step : Nat) : State :=
  let r := s.holdRecord j f k
  let n := msgField r 16 8
  let a := s.holdSlot j k + 4096
  let sec := s.flowSecure f
  let s := (s.countReads sec [(a, n)]).sendData [f] rank step (s.devBytes sec a n) (s.devMarks sec a n)
  let s := s.sendMessage f (s.ckHeader 1 rank step 0 n false)
  s.sendMessage f (s.ckHeader 2 rank step 0 (msgField r 24 8) false)

/-- A restore request: answered from the generation that holds the step, else absent (R526). -/
def execCkptRestoreRequest (f : Nat) (s : State) : Answer := s.whenScribe <|
  match s.ckMessage f with
  | none => .next s
  | some (m, _) =>
    let j := s.flowJob f
    if msgField m 0 1 ≠ 3 then .next s
    else
      let s := s.dropMessage f
      let rank := msgField m 2 2
      let step := msgField m 4 6
      let found := [0, 1].find? fun k =>
        let r := s.holdRecord j f k
        recordValid r && msgField r 8 2 = rank && msgField r 0 6 = step
      if s.fld (fwCkhold j) 52 10 = 0 then done (s.sendMessage f (s.ckHeader 4 rank step 0 0 false))
      else
        let s := s.countHold j f
        match found with
        | none => done (s.sendMessage f (s.ckHeader 4 rank step 0 0 false))
        | some k => done (s.sendHeld j f k rank step)

/-! ## Restore: the owner's side (R526, R527) -/

/-- A restore ends with a result. -/
def State.restoreEnd (s : State) (j r : Nat) : State :=
  ((s.modJob j fun x => { x with ck := .idle, restoreIn := [], restoreSize := none, restorePrint := none }).ckResult j r).ckShow j

def execCkptAbsent (f : Nat) (s : State) : Answer := s.whenScribe <|
  match s.ckMessage f with
  | none => .next s
  | some (m, _) =>
    let j := s.flowJob f
    if msgField m 0 1 ≠ 4 then .next s
    else
      let s := s.dropMessage f
      match (s.job j).ck with
      | .restoring step 2 => if msgField m 4 6 = step then done (s.restoreEnd j 3) else done s
      | .partnerCopy step => if msgField m 4 6 = step && (s.job j).killLatch.isNone then done (s.ckAbort j 2) else done s
      | _ => done s

/-- Restores the reservoir registers, stream slots and VX_STEP of one core from its part of the block (R527). The registers take the
values as their fields hold them (Table: RV_CHAN): DEPTH clamps to LIMIT, as a write, "meant for restore only", does (log 62). -/
def State.restorePart (s : State) (j step : Nat) (m : List Byte) : State :=
  let c := msgField m 0 8 % 1024
  let slots := (List.range 16).map fun n => Slot.ofSave ((m.drop (8 + 24 * n)).take 24)
  let saved := msgField m (8 + 384) 8 % 2 ^ 48
  let new := (step + 1) % 2 ^ 48
  let s := s.modCore c fun k => { (slots.zipIdx.foldl (fun k t => k.setSlot t.2 t.1) k) with staged := [] }
  let s := (List.range 32).foldl (fun s ch =>
    let o := 8 + 384 + 8 + 16 * ch
    let (limit, depth) := (msgField m (o + 8) 4 / 64 * 64, msgField m (o + 12) 4 / 64 * 64)
    (s.setReg (rvChanBase c ch) (BitVec.ofNat 64 (msgField m o 8 % 2 ^ 40 / 64 * 64))).setReg (rvChan c ch)
      (BitVec.ofNat 64 (limit + 2 ^ 32 * min depth limit))) s
  let s := s.setFld (vxStep c) 0 48 new
  match slots.findIdx? (fun t => !t.free) with
  | some n =>
    if saved ≠ new then
      s.post { type := 0x45, job := j, core := some c, hq := none, source := 4, step := new }
        [(4, n), (64, toSigned 64 ((saved : Int) - (step + 1 : Nat)))]
    else s
  | none => s

/-- Writes bytes with their marks to regions in order. -/
def State.putRegions (s : State) (sec : Bool) : List (Nat × Nat) → List Byte → List Bool → State
  | [], _, _ => s
  | r :: rs, d, bad => (s.devWriteMarked sec r.1 (d.take r.2) (bad.take r.2)).putRegions sec rs (d.drop r.2) (bad.drop r.2)

/-- A restore from checked data: registers and slots first, then the listed regions and the channels' memory (R527). -/
def State.restoreData (s : State) (j step : Nat) (d : List Byte) (bad : List Bool) : State :=
  let n := msgField d 0 8 % 1025
  let parts := (List.range n).map fun i => (d.drop (8 + coreBlockBytes * i)).take coreBlockBytes
  let cs := parts.map fun m => msgField m 0 8 % 1024
  let rest := d.drop (8 + coreBlockBytes * n)
  let len := msgField rest 0 8
  let rec_ := (rest.drop 8).take len
  let front := 8 + coreBlockBytes * n + 8 + (len + 7) / 8 * 8
  let s := parts.foldl (fun s m => s.restorePart j step m) s
  let s := s.modJob j fun x => { x with lastRecord := rec_ }
  (s.countList j).putRegions (s.jobSecure j) (s.listRegions j ++ s.chanRegions cs) (d.drop front) (bad.drop front)

/-- The data of a restore with its marks, and its fingerprint, once it is all there. -/
def State.restoreReady (s : State) (j step op : Nat) : Option (List Byte × List Bool × Nat) :=
  let x := s.job j
  if op = 2 then
    match x.restoreSize, x.restorePrint with
    | some n, some p =>
      if (x.restoreIn.map fun r => r.2.1.length).foldl (· + ·) 0 < n then none
      else
        let m := x.restoreIn.foldl (fun m r => m.write r.1 r.2.1) Mem.reset
        let bad := (List.range n).map fun i =>
          x.restoreIn.any fun r => decide (r.1 ≤ i) && (r.2.2.getD (i - r.1) false)
        some (m.read 0 n, bad, p)
    | _, _ => none
  else if op = 3 then
    match x.gens.find? (fun g => g.step == step) with
    | some g => some (g.data, g.bad, g.print.toNat)
    | none => none
  else
    let sec := s.jobSecure j
    let a := s.fld (fwCksnap j) 0 40
    let n := msgField (s.devBytes sec a 64) 16 8
    some (s.devBytes sec (a + 4096) n, s.devMarks sec (a + 4096) n, msgField (s.devBytes sec a 64) 24 8)

/-- The reads of the snapshot region that a restore makes. -/
def State.countSnapshot (s : State) (sec : Bool) (a n : Nat) : State := s.countReads sec [(a, 64), (a + 4096, n)]

/-- The data of a restore is complete: it is checked and written, or the restore ends with RESULT 4 (R526, R527). -/
def execCkptRestoreDataDone (j : Nat) (s : State) : Answer := s.whenScribe <|
  match (s.job j).ck with
  | .restoring step op =>
    match s.restoreReady j step op with
    | none => .next s
    | some (d, bad, p) =>
      let s := if op = 4 then s.countSnapshot (s.jobSecure j) (s.fld (fwCksnap j) 0 40) d.length else s
      if dataPrint d ≠ p then .next (s.restoreEnd j 4)
      else
        let s := (s.restoreData j step d bad).restoreEnd j 0
        let rank := if op = 2 then s.fld (fwCkcfg j) 0 12 else 0x1000
        .next (s.post { s.jobHead 0x43 4 j with step := step } [(2, 3), (13, rank)])
  | _ => .next s

/-! ## Flash (R523 to R525, R577) -/

def flStatus : Nat := 0x8100A00000
def flWear : Nat := 0x8100A00008

/-- Once the flash is initialised, fewer spare blocks than FL_STATUS.MINSPARE mark it FAILED (R577). -/
def State.checkSpare (s : State) : State :=
  if s.fld flStatus 0 1 = 1 ∧ s.fld flStatus 16 16 < s.fld flStatus 32 16 then s.setFld flStatus 1 1 1 else s

/-- Blocks that failed in a write are retired; too few spares mark the flash FAILED (R577). -/
def State.retireBlocks (s : State) (bad : Nat) : State :=
  if bad = 0 then s
  else
    let s := s.satFld flWear 32 32 bad
    let left := s.fld flStatus 16 16 - bad
    let s := s.setFld flStatus 16 16 left
    if left < s.fld flStatus 32 16 then s.setFld flStatus 1 1 1 else s

/-- A write uses program and erase cycles: how many percent of the rated ones are then used is a free value that does not
go back and does not exceed 100 (R577; log 54). -/
def State.wearFlash (s : State) : State :=
  let (v, s) := s.freeVal 7
  s.setFld flWear 0 7 (max (s.fld flWear 0 7) (min v 100))

/-- A generation is complete in local flash (R523). The flash controller reads the snapshot in
its own world (R314). -/
def State.flashCommit (s : State) (j step : Nat) : State :=
  let sec := s.fld swWfl 0 1 = 1
  let a := s.fld (fwCksnap j) 0 40
  let r := s.devBytes sec a 64
  let n := msgField r 16 8
  let g : Generation := { step := step, secure := sec, data := s.devBytes sec (a + 4096) n, bad := s.devMarks sec (a + 4096) n,
                          print := BitVec.ofNat 64 (msgField r 24 8) }
  let s := s.countSnapshot sec a n
  let s := s.modJob j fun x => { x with gens := g :: x.gens }
  let s := s.setFld (fwCkstep j) 32 32 step
  s.post { s.jobHead 0x43 4 j with step := step } [(2, 1), (13, 0x1000)]

/-- After its flash write, or the write's failure, the snapshot is held for the shared store when SHARED is 1 (R524, R577). -/
def State.flashDone (s : State) (j step : Nat) : State :=
  let shared := s.fld (fwCkcfg j) 30 1 = 1
  let s := s.modJob j fun x => { x with flashWriting := none, snapshot := none, snapshotFilled := false, snapshotHeld := shared }
  if shared then s.post { s.jobHead 0x43 4 j with step := step } [(2, 2), (13, 0x1000)] else s

/-- A flash write ends; the scribe takes note of it (R523, R577). -/
def execFlashWriteComplete (j bad : Nat) (s : State) : Answer := s.whenScribe <|
  match (s.job j).flashWriting with
  | none => .next s
  | some step =>
    let s := s.wearFlash.retireBlocks bad
    let own := (s.job j).flashOwn
    let s := (if s.fld flStatus 1 1 = 1 then s.ckResult j 6 else s.flashCommit j step).flashDone j step
    match (s.job j).ck with
    | .flashFirst st => if own then done (s.ckLeave j true true) else done (s.flashFirst j st)
    | _ => done (s.ckShow j)

end Sys2Proof.Machine
end

