-- ==== Sys2Proof/Machine/Commit.lean ====
section
/-! DEFINITION. The commit of a step, the commit exchange, and the messages of collective channels (16_checkpoints_replay R508
to R510, R515, R519; 13 R433, R447, R448; 09 R322, R323). -/

namespace Sys2Proof.Machine

open Sys2Proof

/-! ## Commit (R509) -/

/-- What follows the commit once the record may be handed over: a checkpoint that is due, by a STEP entry or since the commit came after a
lapse (R519, R477), else the record and what follows a boundary. -/
def State.afterCommit (s : State) (j committed : Nat) (rec_ : List Byte) : State :=
  let x := s.job j
  if x.lapseCk || x.ckSteps.contains committed then
    (s.modJob j fun x => { x with ckRecord := some rec_, lastRecord := flagRecord rec_ 16 }).checkpoint j
  else (s.handRecord j rec_).leaveBoundary j

/-- The module commits a step with the combined vector (R509): each core's VX_STEP rises by 1 (R243). -/
def State.commitJob (s : State) (j : Nat) (v : CommitVec) : State :=
  let step := s.jobStep j
  let rec_ := s.buildRecord j v
  let cs := s.jobCores j
  let s := cs.foldl (fun s c =>
    ((List.range 16).foldl (fun s n => s.setReg (sxFp c n) 0) s).setReg (sxFpPoison c) 0) s
  let s := cs.foldl (fun s c => ((s.addFld (vxStep c) 0 48 1).takeShadow c).modCore c Core.outcome) s
  let s := s.saveObjs j
  let s := s.setFld (fbJobpol j) 16 16 0
  let s := s.modJob j fun x => { x with exchange := none, colls := [], abortDue := none, lapseCk := x.lapsing }
  let s := if s.recordHolds j then (s.modJob j fun x => { x with heldRecords := x.heldRecords ++ [rec_] }).addHold j .record
    else (s.handHeld j).afterCommit j step rec_
  s.enterStep j

/-- The record for which a job holds has its slot: what follows the commit follows, and the job goes on (R515). -/
def State.recordLeave (s : State) (j : Nat) (r : List Byte) : State :=
  let x := s.job j
  if x.lapseCk || x.ckSteps.contains (msgField r 6 6) then
    ((s.modJob j fun x => { x with ckRecord := some r, lastRecord := flagRecord r 16 }).checkpoint j).dropHold j .record
  else
    let s := s.handRecord j r
    (if s.fenceHolds j then s.addHold j .fence else s).dropHold j .record

/-- Hands over the first `n` of the records that wait, as slots are free; the last one is that of the step for which the job holds, if it
still does. -/
def State.recordsGo (s : State) (j : Nat) : Nat → State
  | 0 => s
  | n + 1 =>
    match (s.job j).heldRecords with
    | [] => s
    | r :: rest =>
      if s.srNoRoom j then s
      else
        let s := s.modJob j fun x => { x with heldRecords := rest }
        if rest.isEmpty && (s.job j).holds.contains .record then s.recordLeave j r else (s.handRecord j r).recordsGo j n

/-- A slot of the record ring has become free (R515). -/
def State.recordFreed (s : State) (j : Nat) : State := s.recordsGo j (s.job j).heldRecords.length

/-! ## Commit exchange (R508, R510) -/

/-- A span has arrived when every member has (R242). -/
def State.spanArrived (s : State) (a : ActiveSpan) : Bool := a.members.all fun c => (s.core c).arrived

/-- Whether the job's commit limit allows the step (R465). -/
def State.limitAllows (s : State) (j : Nat) : Bool := s.jobStep j ≤ (s.job j).limit

def State.exchangeHead (s : State) (j : Nat) (x : Exchange) : CollHead :=
  { phase := 1, op := 2, word := 2, pass := false, t := x.t, seq := x.seq % 2 ^ 32, step := s.jobStep j, attempt := s.jobAttempt j,
    anchor := 0, sum := Summary.none, parts := 0, e := 0 }

def State.sendVector (s : State) (j : Nat) (x : Exchange) (body : List Byte) : State :=
  s.sendMessage (ringTx x.base 0) ((s.exchangeHead j x).bytes ++ body)

/-- A module enters the exchange once every span has arrived and the limit allows the step (R508), unless an abort of the attempt waits
for the dispatcher (R510, R574). A job whose carried-poison
bit is set is killed instead (R322 kind 3). -/
def execCommitExchangeEnter (j : Nat) (s : State) : Answer :=
  let x := s.job j
  let ch := s.stepChan j
  let spans := s.jobSpans j
  if spans.isEmpty || !spans.all s.spanArrived || !x.holds.isEmpty || x.exchange.isSome || x.killLatch.isSome || x.abortDue.isSome ||
      !s.chanUsable ch j || !s.limitAllows j then .next s
  else if x.carried then .next (s.latchKill j 3 1024 0 0)
  else
    let v := s.ownVector j
    let seq := s.exchangeSeq ch
    let s := { s with collSeq := mput s.collSeq (ch * 2048 + 1024) (seq + 1) }
    let n := s.chanRanks ch
    if n = 1 then done (s.commitJob j v)
    else
      let e : Exchange := { chan := ch, base := s.chanFlow ch, seq := seq, n := n, rank := s.chanRank ch, t := 0, own := v, acc := v,
                            mismatch := false }
      done ((s.modJob j fun x => { x with exchange := some e }).sendVector j e v.bytes)

/-- A step commit; a job whose carried-poison bit is set is killed instead (R322 kind 3, R323). -/
def State.commitClean (s : State) (j : Nat) (v : CommitVec) : State :=
  if (s.job j).carried then s.latchKill j 3 1024 0 0 else s.commitJob j v

/-- A message of the exchange (R508): checked, combined and passed on. A park waits while the dispatcher is down (R574). -/
def State.exchangeMessage (s : State) (j : Nat) (x : Exchange) (f : Nat) (m : List Byte) : State :=
  if !s.msgCurrent j m then s
  else
    let bad := headDiffers m (s.exchangeHead j x)
    let s := match bad with
      | some field =>
        if x.mismatch then s
        else s.post (s.jobHead 0x31 7 j) [(10, x.chan), (27, x.seq), (13, s.peerRank f), (8, field)]
      | none => s
    let (body, s) := if bad.isSome then
        ((List.range 644).map fun k => Config.freeBits 8 (s.freeCtr + k), { s with freeCtr := s.freeCtr + 644 })
      else (m.drop 32, s)
    let v := CommitVec.ofBytes body
    let y := { x with t := x.t + 1, own := v, acc := x.acc.join v, mismatch := x.mismatch || bad.isSome }
    if y.t + 1 < x.n then (s.modJob j fun z => { z with exchange := some y }).sendVector j y body
    else if y.mismatch then (if s.roleUp 4 then s.parkExchange j 0x1000 else s.modJob j fun z => { z with exchange := some y })
    else s.commitClean j y.acc

/-- A collective message is taken by the COLL, or the exchange, that waits on its flow (R433), once it may be taken (R447). -/
def execCollMessage (f : Nat) (s : State) : Answer :=
  if !s.flowLive f || !s.mayTake f then .next s
  else
    match s.peekMessage f with
    | none => .next s
    | some (m, _) =>
      match s.colls.find? (fun x => (x.waitsOn f).isSome) with
      | some x => done ((s.dropMessage f).collMessage x f m)
      | none =>
        let j := s.flowJob f
        match (s.job j).exchange with
        | some x => if f = ringRx x.base 0 then done ((s.dropMessage f).exchangeMessage j x f m) else .next s
        | none => .next s

/-- The step barrier timer expires (R510): before the exchange the attempt aborts, within it the job parks. -/
def execStepBarrierTimeout (j : Nat) (s : State) : Answer :=
  let x := s.job j
  if !(s.jobSpans j).any s.spanArrived || !x.holds.isEmpty || x.killLatch.isSome || !s.limitAllows j then .next s
  else
    match x.exchange with
    | some e => if s.roleUp 4 then done (s.parkExchange j (s.peerRank (ringRx e.base 0))) else .next s
    | none => done (s.abortJob j 0x1000 none)

end Sys2Proof.Machine
end

