-- ==== Sys2Proof/Machine/HostQueue.lean ====
section
/-! DEFINITION. Host queues and the dispatcher: entries, programs, launches, kills (14_host_interface R462 to R469, R478, R480;
05 R146, R164; 07 R201, R246 to R250; 09 R322, R326). -/

namespace Sys2Proof.Machine

open Sys2Proof

/-! ## Kills (R322, R326, R497) -/

/-- Kills a job; the record of a step that it has committed is still handed over (R509, R512). -/
def State.kill (s : State) (j kind : Nat) (core : Option Nat) (flow addr : Nat) : State :=
  let s := match (s.job j).ckRecord with
    | some r =>
      let copied := match (s.job j).ck with | .flashFirst _ => true | _ => false
      (s.modJob j fun x => { x with ckRecord := none }).handRecord j (if copied then flagRecord r 48 else r)
    | none => s
  s.killJob j kind core flow addr

/-- A consumption reaches the steward (R325, R326); it waits in its latch while the steward is down (R574). -/
def execPoisonKill (j : Nat) (s : State) : Answer :=
  match (s.job j).killLatch with
  | none => .next s
  | some (kind, core, flow, addr) =>
    if s.roleUp 2 then done (s.kill j kind (if core < 1024 then some core else none) flow addr) else .next s

/-! ## Span entries (R145, R146) -/

def State.spanFld (s : State) (k lo w : Nat) : Nat := s.fld (nwSpan k) lo w

/-- Rectangle of a span entry: corner, width, height. -/
def State.spanRect (s : State) (k : Nat) : Nat × Nat × Nat × Nat :=
  (s.spanFld k 0 5, s.spanFld k 5 5, s.spanFld k 10 5 + 1, s.spanFld k 15 5 + 1)

def State.spanValid (s : State) (k : Nat) : Bool := s.spanFld k 29 1 = 1

/-- An active span as a launch makes it. -/
def State.newSpan (s : State) (k hq job : Nat) (tag : BitVec 32) (epoch : BitVec 16) : ActiveSpan :=
  let (x0, y0, w, h) := s.spanRect k
  { span := k, x0 := x0, y0 := y0, w := w, h := h, hq := hq, job := job, tag := tag, epoch := epoch, freeze := none, waves := [],
    drains := [], blockMax := [], scans := [], stretch := 16, fault := none }

def State.spanCores (s : State) (k : Nat) : List Nat := ((s.newSpan k 0 0 0 0).members).filter s.hasCore

/-- Whether entry `k` is `root` or one of its descendants; a chain has at most 256 entries. -/
def State.spanWithin (s : State) (root : Nat) : Nat → Nat → Bool
  | 0, _ => false
  | n + 1, k => k = root || (s.spanFld k 28 1 = 1 && s.spanWithin root n (s.spanFld k 20 8))

/-! ## Reading a queue (R463, R467, R469) -/

def hqEnabled (s : State) (q : Nat) : Bool := s.fld (hqCfg q) 59 1 = 1

/-- Entries of a queue's ring. -/
def State.hqSize (s : State) (q : Nat) : Nat := 2 ^ s.fld (hqCfg q) 40 5

def State.leaseHeld (s : State) : Bool := match s.lease with | .held _ => true | _ => false

/-- Whether the dispatcher takes an entry of a queue: start-up complete and a lease held (R463, R556), the dispatcher up
(R574), nothing of the queue held (R467), room for completions (R469), an entry waiting. -/
def State.takesEntry (s : State) (q : Nat) : Bool :=
  decide (q < 256) && s.fld fwStatus 8 1 = 1 && s.leaseHeld && s.roleUp 4 && hqEnabled s q &&
    (match (s.hq q).held with | .none => true | _ => false) && !s.cqFull q && (s.hq q).pendingCpl.isEmpty &&
    s.fld (hqPtr q) 16 16 != s.fld (hqPtr q) 0 16

def entryKind (m : List Byte) : Nat := min (msgField m 0 1) 4
def entryOp (m : List Byte) : Nat := min (msgField m 8 1) 5
def entrySpan (m : List Byte) : Nat := msgField m 2 1
def entryTag (m : List Byte) : List Byte := (m.drop 4).take 4
def entryFlow (m : List Byte) : Nat := min (msgField m 9 2 % 4096) 3071

/-- Completion of an entry other than a LAUNCH, when it asks for one. -/
def State.entryDone (s : State) (q : Nat) (m : List Byte) (status : Nat) : State :=
  if msgField m 1 1 % 2 = 1 then s.complete q (entryTag m) (entryKind m) status 0 else s

/-- R464: an entry that names a span outside the queue's, or work for no job, is refused. -/
def State.entryRefused (s : State) (q : Nat) (m : List Byte) : Bool :=
  !s.spanWithin (s.fld (hqCfg q) 51 8) 256 (entrySpan m) || (s.hqJob q = 0 && entryKind m != 4)

/-- Takes the entry at the head of a queue when it is of the sort that `isKind` tells; another entry is another command's. A
poisoned entry kills its job instead of acting (R322 kind 5). -/
def State.onEntry (s : State) (q : Nat) (isKind : List Byte → Bool) (eff : List Byte → State → State) : Answer :=
  if !s.takesEntry q then .next s
  else
    let head := s.fld (hqPtr q) 16 16
    let (m, bad, t) := s.devRead (s.hqSecure q) (s.fld (hqCfg q) 0 40 + 128 * head) 128
    if !isKind m then .next s
    else
      let t := t.setFld (hqPtr q) 16 16 ((head + 1) % s.hqSize q)
      if !bad.isEmpty && s.hqJob q != 0 then done (t.latchKill (s.hqJob q) 5 1024 0 (bad.headD 0 * 32))
      else if t.entryRefused q m then
        if entryKind m = 1 then done (t.complete q (entryTag m) 1 5 0) else done (t.entryDone q m 5)
      else done (eff m t)

/-! ## PROGRAM (R247, R248, R464) -/

def progFirst (m : List Byte) : Nat := msgField m 13 2 % 16384
def progCount (m : List Byte) : Nat := min (max 1 (min 16384 (msgField m 15 2))) (16384 - progFirst m)

/-- Whether a block of words overlaps words that the dispatcher has written under a core's current epoch (R248), whatever their
tags are now. -/
def Core.wroteUnder (k : Core) (first n : Nat) : Bool := k.imemBlocks.any fun b => decide (first < b.1 + b.2) && decide (b.1 < first + n)

/-- A core moves to an epoch: nothing has been written under it there (R464). -/
def Core.enterEpoch (k : Core) (e : BitVec 16) : Core :=
  if k.imemEpoch = e then k else { k with imemEpoch := e, imemBlocks := [] }

/-- Whether a block overlaps a block that is on its way to some of the same cores under an epoch. -/
def State.overlapsProgram (s : State) (members : List Nat) (first n : Nat) (e : BitVec 16) : Bool :=
  s.hqs.any fun h =>
    match h.2.held with
    | .program m ms e' _ =>
      e' = e && progFirst m < first + n && first < progFirst m + progCount m && ms.any (fun c => members.contains c)
    | _ => false

/-- Largest current epoch of some cores. -/
def State.topEpoch (s : State) (cs : List Nat) : BitVec 16 :=
  cs.foldl (fun e c => if e < (s.core c).imemEpoch then (s.core c).imemEpoch else e) 0

/-- The epoch of a block (R464), and whether the tags of the members must be cleared before a wrap (R247). -/
def State.chooseEpoch (s : State) (cs : List Nat) (first n : Nat) : BitVec 16 × Bool :=
  let e := s.topEpoch cs
  let same := cs.all fun c => (s.core c).imemEpoch = e && !(s.core c).wroteUnder first n
  if e ≠ 0 && same && !s.overlapsProgram cs first n e then (e, false)
  else if e = 0xFFFF then (1, true)
  else (e + 1, false)

/-- The members of a block enter its epoch; before a wrap every tag of theirs becomes 0 (R247). -/
def State.enterEpochs (s : State) (cs : List Nat) (e : BitVec 16) (wrap : Bool) : State :=
  cs.foldl (fun s c => s.modCore c fun k =>
    let k := k.enterEpoch e
    if wrap then { k with imem := k.imem.map fun x => (x.1, x.2.1, 0) } else k) s

/-- Takes a PROGRAM entry. A block whose epoch wraps is held as epoch 0 until its members are halted between launches (R247). -/
def execProgram (q : Nat) (s : State) : Answer :=
  s.onEntry q (fun m => entryKind m = 0) fun m s =>
    let first := progFirst m
    let n := progCount m
    let (bytes, bad, s) := s.devRead (s.hqSecure q) (msgField m 8 5 / 4 * 4) (4 * n)
    if !bad.isEmpty then s.latchKill (s.hqJob q) 5 1024 0 (bad.headD 0 * 32)
    else
      let words := (List.range n).map fun (i : Nat) => BitVec.ofNat 32 (msgField bytes (4 * i) 4)
      let cs := s.spanCores (entrySpan m)
      let (e, wrap) := s.chooseEpoch cs first n
      let s := if wrap then s else s.enterEpochs cs e false
      s.modHq q fun h => { h with held := .program m cs (if wrap then 0 else e) words }

/-- Writes a block into an instruction memory under an epoch. -/
def Core.loadWords (k : Core) (first : Nat) (ws : List Word) (e : BitVec 16) : Core :=
  { k with imem := ws.zipIdx.foldl (fun m w => mput m (first + w.2) (w.1, e)) k.imem,
           imemBlocks := if k.imemEpoch = e then (first, ws.length) :: k.imemBlocks else k.imemBlocks }

/-- Every member holds every word of the block (R464). -/
def State.programDone (s : State) (q : Nat) (m : List Byte) (cs : List Nat) (e : BitVec 16) (ws : List Word) : State :=
  let s := cs.foldl (fun s c => s.modCore c fun k => k.loadWords (progFirst m) ws e) s
  let s := { s with spanEpoch := mput s.spanEpoch (entrySpan m) e }
  (s.modHq q fun h => { h with held := .none }).entryDone q m 0

def execProgramComplete (q : Nat) (s : State) : Answer :=
  match (s.hq q).held with
  | .program m cs e ws =>
    if !s.roleUp 4 then .next s
    else if e ≠ 0 then .next (s.programDone q m cs e ws)
    else if cs.any fun c => (s.core c).launch.isSome then .next s
    else
      let (e, wrap) := s.chooseEpoch cs (progFirst m) ws.length
      .next ((s.enterEpochs cs e wrap).programDone q m cs e ws)
  | _ => .next s

/-! ## LAUNCH (R146, R201, R464) -/

def execLaunch (q : Nat) (s : State) : Answer :=
  s.onEntry q (fun m => entryKind m = 1) fun m s => s.modHq q fun h => { h with held := .launch m }

/-- A core as a launch starts it (R201): its queues are empty and its engines free, its flags clear (R367), its descriptor cache
invalid (R289). -/
def Core.launched (k : Core) (x : CoreLaunch) (epoch : BitVec 16) (pc : Nat) (args : List Reg) : Core :=
  { k with mode := .running, haltNext := false, stall := .none, stallTick := 0,
           g := Vector.ofFn fun (i : Fin 32) => if i.val = 0 then 0 else args.getD (i.val - 1) 0,
           p := 1, c := Vector.replicate 8 0, lc := Vector.replicate 4 0, loops := [], pc := BitVec.ofNat 14 pc, cyc := 0,
           epoch := epoch, dues := k.disarm.dues, dueSeen := [], launch := some x, stepFlag := false,
           flags := 0, setNow := 0, setStream := 0, acted := [], dcache := [],
           queues := Vector.replicate 4 EngQ.reset,
           array := { k.array with busyUntil := 0 }, path := { k.path with busyUntil := 0 },
           vec := { k.vec with busyUntil := 0 }, rsv := { k.rsv with busyUntil := 0 }, streamBusy := 0,
           nextXfer := 0, scanSeq := 0, mmaSeq := 0, pathSeq := 0, rsvOverflow := false }

/-- Whether a core can join a launch (R146): empty queues, not frozen, in no active span, kept by no row shift (R44, R494). -/
def State.coreFree (s : State) (c : Nat) : Bool :=
  s.hasCore c && (s.core c).queues.toList.all (fun q => q.cmds.isEmpty) && (s.core c).launch.isNone && (s.core c).quiet &&
    !s.shiftBars c

/-- The members of a launch take the next sequence number of every channel, whichever cores ran its COLLs before (R423). -/
def State.startSeqs (s : State) (ms : List Nat) : State :=
  let chans := s.collSeq.foldl (fun l e => insertNat l (e.1 / 2048)) []
  { s with collSeq := chans.foldl (fun q ch => ms.foldl (fun q c => mput q (ch * 2048 + c) (s.exchangeSeq ch)) q) s.collSeq }

/-- Starts a launch on its span. -/
def State.startLaunch (s : State) (q : Nat) (m : List Byte) : State :=
  let k := entrySpan m
  let job := s.hqJob q
  let epoch := mget s.spanEpoch (s.topEpoch (s.spanCores k)) k
  let a := s.newSpan k q job (BitVec.ofNat 32 (msgField m 4 4)) epoch
  let fresh := (s.jobSpans job).isEmpty
  let s := if fresh then s.modJob job fun x => { x with colls := [] } else s
  let args := (List.range 8).map fun (i : Nat) => BitVec.ofNat 64 (msgField m (64 + 8 * i) 8)
  let pc := msgField m 8 2 % 16384
  let s := (({ s with active := s.active ++ [a] } : State).wake a.corner).startSeqs a.members
  let s := a.members.foldl (fun s c =>
    let x : CoreLaunch := { span := k, hq := q, job := job, lx := c % 32 - a.x0, ly := c / 32 - a.y0 }
    ((s.modCore c fun k => k.launched x epoch pc args).setFld (vxStep c) 0 48 (msgField m 10 6)).takeShadow c) s
  let s := s.saveObjs job
  if fresh then s.enterStep job else s

/-- A held launch: refused with EV_SPAN_INVALID on an invalid span (R164), started once every core is free; launches wait
while the dispatcher is down, those of a job without an active span while keeper is (R574), and those of a killed job while the kill
holds it (R497). -/
def execSpanActivate (q : Nat) (s : State) : Answer :=
  match (s.hq q).held with
  | .launch m =>
    let k := entrySpan m
    let job := s.hqJob q
    let cs := (s.newSpan k 0 0 0 0).members
    if !s.roleUp 4 then .next s
    else if !s.spanValid k then
      let s := s.modHq q fun h => { h with held := .none }
      let h := { s.jobHead 3 1 job with hq := some q }
      .next ((s.post h [(8, k)]).complete q (entryTag m) 1 4 0)
    else if s.fld nwCapacity 24 1 = 1 || (!s.roleUp 0 && (s.jobSpans job).isEmpty) || s.killHeld job || !cs.all s.coreFree then .next s
    else done ((s.modHq q fun h => { h with held := .none }).startLaunch q m)
  | _ => .next s

/-- Whether a member's part of the launch has ended (R246). -/
def Core.ended (k : Core) : Bool :=
  (match k.mode with | .halted => true | _ => false) && k.queues.toList.all (fun q => q.cmds.isEmpty) && k.quiet

/-- What a member's last commands have still to write reaches the pond (R198, R216). -/
def State.flushCore (s : State) (c : Nat) : State :=
  let s := (s.core c).records.foldl (fun s x => s.pondRecord c x.2.1 x.2.2) (s.modCore c Core.flushStores)
  s.modCore c fun k => { k with records := [] }

/-- A launch ends (R246, R250); of several active spans of one entry number (an entry that was rewritten, R146) the first that has
ended. Records of span drains that are complete are written first (R157); a job that carries poison is
killed instead (R322 kind 2). -/
def execLaunchEnd (sp : Nat) (s : State) : Answer :=
  match s.active.find? (fun a => a.span == sp && a.members.all fun c => (s.core c).ended) with
  | none => .next s
  | some a =>
    if !s.roleUp 4 || (s.job a.job).killLatch.isSome then .next s
    else
      let s := a.members.foldl (fun s c => s.flushCore c) s
      let s := (a.drains.filter fun (x : DrainSum) => x.left = 0).foldl (fun s x => s.writeDrain x) s
      if (s.job a.job).carried then .next (s.latchKill a.job 2 1024 0 0)
      else
        let (status, val) := match a.fault with
          | some pc => (1, pc)
          | none => (0, s.fld (vxStep (a.y0 * 32 + a.x0)) 0 48)
        let s := s.endSpan a status val
        .next (if (s.jobSpans a.job).isEmpty then s.modJob a.job fun x => { x with lapsing := false, lapseCk := false } else s)

/-! ## STEP and CONTROL (R465, R478) -/

/-- A STEP entry: the newest limit applies (R465, R466); the request for a checkpoint is kept until its step commits (R519). -/
def execStepEntry (q : Nat) (s : State) : Answer :=
  s.onEntry q (fun m => entryKind m = 2) fun m s =>
    let n := msgField m 8 6
    let s := s.modJob (s.hqJob q) fun x =>
      { x with limit := n, ckSteps := if msgField m 14 1 % 2 = 1 then insertNat x.ckSteps n else x.ckSteps }
    s.entryDone q m 0

/-- A CONTROL entry with an operation. -/
def isControl (op : Nat) (m : List Byte) : Bool := entryKind m = 3 && entryOp m = op

/-- Keeps which flows to a rank have been reset while a change of the rank's map entry waits for them (R550); an opened flow
holds the change back again. -/
def State.noteReset (s : State) (f : Nat) (reset : Bool) : State :=
  match s.firm.keeper with
  | none => s
  | some w =>
    if w.waitRank = some (s.peerRank f) then
      let rs := if reset then insertNat w.resets f else w.resets.filter fun g => g != f
      { s with firm := { s.firm with keeper := some { w with resets := rs } } }
    else s

/-- FLOW_OPEN; the pilot opens flows (R409, R574); a flow above 3,071 is read as 3,071 (R480). An isolated flow stays isolated: only a reset ends that (R417). -/
def execFlowOpen (q : Nat) (s : State) : Answer :=
  if !s.roleUp 1 then .next s
  else s.onEntry q (isControl 0) fun m s =>
    let f := entryFlow m
    (if s.flowState f = 3 then s
     else (s.openFlow f (s.hqJob q) (msgField m 11 2 % 4096) (min (msgField m 13 2 % 4096) 3071)).noteReset f false).entryDone q m 0

/-- FLOW_CLOSE; an isolated flow stays isolated: only a reset ends that (R417). -/
def execFlowClose (q : Nat) (s : State) : Answer :=
  if !s.roleUp 1 then .next s
  else s.onEntry q (isControl 1) fun m s =>
    (if s.flowState (entryFlow m) = 3 then s else s.closeFlow (entryFlow m)).entryDone q m 0

/-- FLOW_RESET: counters at 0, buffers empty, the flow open with its peer (R415). -/
def execFlowReset (q : Nat) (s : State) : Answer :=
  if !s.roleUp 1 then .next s
  else s.onEntry q (isControl 2) fun m s =>
    let f := entryFlow m
    ((s.openFlow f (s.flowJob f) (s.peerRank f) (s.peerFlow f)).noteReset f true).entryDone q m 0

/-- KILL: as R326 does, with kind 8 (R465); the steward kills (R574). -/
def execKill (q : Nat) (s : State) : Answer :=
  if !s.roleUp 2 then .next s
  else s.onEntry q (isControl 3) fun m s => (s.kill (s.hqJob q) 8 none 0 0).entryDone q m 0

/-- RESUME: an orphaned job goes on at the step entry after the committed step (R478); one that was parked as well is released with
it, as RELEASE does: DEDUCED from R448 and R478 (log 18). -/
def execResume (q : Nat) (s : State) : Answer :=
  s.onEntry q (isControl 4) fun m s =>
    let j := s.hqJob q
    let s := if (s.job j).holds.contains .orphaned then
        let s := if (s.job j).holds.contains .parked then s.unpark j else s
        (s.dropHold j .orphaned).enterStep j
      else s
    s.entryDone q m 0

/-- Whether every earlier entry of a queue has completed: no launch of it runs (R465). -/
def State.queueIdle (s : State) (q : Nat) : Bool := !s.active.any fun a => a.hq == q

/-- FENCE: taken, and completed once every earlier entry has completed. -/
def execFence (q : Nat) (s : State) : Answer :=
  match (s.hq q).held with
  | .fence m =>
    if s.queueIdle q && s.roleUp 4 then .next ((s.modHq q fun h => { h with held := .none }).entryDone q m 0) else .next s
  | _ =>
    s.onEntry q (isControl 5) fun m s =>
      if s.queueIdle q then s.entryDone q m 0 else s.modHq q fun h => { h with held := .fence m }

def execNopEntry (q : Nat) (s : State) : Answer := s.onEntry q (fun m => entryKind m = 4) fun m s => s.entryDone q m 0

end Sys2Proof.Machine
end

