-- ==== Sys2Proof/Machine/Timeouts.lean ====
section
/-! DEFINITION. Timeouts of waits (11_synchronisation R382 to R384; 12_optical_fabric R412, R413; 13 R445; 16 R522). Waits of a core
count core clock ticks, which the model counts (log 2); other timers expire when their command comes. -/

namespace Sys2Proof.Machine

open Sys2Proof

def syTo (k : Nat) : Nat := 0x8100800008 + 8 * k

/-- Ticks of a class's timeout. -/
def State.syTicks (s : State) (k : Nat) : Nat := 2 ^ s.fld (syTo k) 0 6

/-- EV_SYNC_TIMEOUT (R384). -/
def State.postTimeout (s : State) (h : EventHead) (secret : Bool) (value cls object flow rank operand : Nat) : State :=
  let s := s.addFld syTimeouts 0 64 1
  let fs := [(64, value), (4, cls), (14, object), (12, flow), (13, rank), (21, operand)]
  if secret then s.postAs true h fs else s.post h fs

/-- The value of an object as the event shows it. -/
def State.timeoutValue (s : State) (n : Nat) : Nat :=
  if s.objKind n = 2 then (s.ovalRead n).toNat % 2 ^ 21 else (s.ovalRead n).toNat

/-- A flag-class wait times out: FWAIT goes on with g[rd] = 1, or 0 when its flag is set by now (R238); an engine's wait keeps
waiting (R383). -/
def execFlagTimeout (c : Nat) (eng : Option Nat) (s : State) : Answer :=
  let k := s.core c
  match eng with
  | none =>
    match k.stall with
    | .flag n rd =>
      if k.flag n then .next (s.modCore c fun k => (k.setG rd 0).resume)
      else if k.stallTick + s.syTicks 0 ≤ s.ticks then
        let s := s.postTimeout (s.coreHead 4 0 c) false 0 0 n 0 0 0
        .next (s.modCore c fun k => (k.setG rd 1).resume)
      else .next s
    | _ => .next s
  | some e =>
    let q := k.queue e
    match q.waitTick, q.head with
    | some t, some x =>
      match x.flagWait with
      | some n =>
        if t + s.syTicks 0 ≤ s.ticks && !q.timedOut && s.hasCore c then
          let s := s.modCore c fun k => k.setQueue e { q with timedOut := true }
          .next (s.postTimeout (s.coreHead 4 0 c) false (bitNat (k.flag n)) 0 n 0 0 0)
        else .next s
      | none => .next s
    | _, _ => .next s

/-- A wait at the sync block times out: the core goes on with g[rd] = 1 (R239) and the wait request ends. A wait that has been
met by then gives 0 instead, without an event. -/
def State.waitTimeout (s : State) (c cls n : Nat) (rd : BitVec 5) (operand : Nat) : State :=
  let s := s.postTimeout (s.coreHead 4 9 c) (s.objSecure n) (s.timeoutValue n) cls n 0 0 operand
  { (s.modCore c fun k => (k.setG rd 1).resume) with waiters := mdel s.waiters c }

/-- The low bits of the wait operand that the event carries. -/
def State.waitOperand (s : State) (c : Nat) : Nat :=
  match s.waiters.find? (fun e => e.1 == c) with
  | some e => e.2.operand.toNat
  | none => 0

def execCounterTimeout (c : Nat) (s : State) : Answer :=
  match (s.core c).stall with
  | .counter n rd v =>
    if s.waitMet c then .next (s.releaseWait c rd)
    else if (s.core c).stallTick + s.syTicks 1 ≤ s.ticks then .next (s.waitTimeout c 1 n rd v.toNat) else .next s
  | _ => .next s

def execSluiceTimeout (c : Nat) (s : State) : Answer :=
  match (s.core c).stall with
  | .sluice n rd _ =>
    if s.waitMet c then .next (s.releaseWait c rd)
    else if (s.core c).stallTick + s.syTicks 2 ≤ s.ticks then .next (s.waitTimeout c 2 n rd (s.waitOperand c)) else .next s
  | _ => .next s

/-- A round waits for its token: the event names the receive flow and the peer rank, and the round keeps waiting. -/
def execTokenTimeout (n : Nat) (s : State) : Answer :=
  let o := s.obj n
  if s.objKind n = 2 && o.remote && !o.timedOut then
    let ranks := s.objRanks n
    let rank := (s.objRank n + ranks - 2 ^ o.round % ranks) % ranks
    let s := s.modObj n fun o => { o with timedOut := true }
    .next (s.postTimeout (s.jobHead 4 9 (s.objJob n)) (s.objSecure n) (s.timeoutValue n) 3 n
      ((s.objFlow n + 2 * o.round + 1) % 4096) rank 0)
  else .next s

/-! ## Flows -/

/-- A stalled checkpoint flow fails the copy or the restore that uses it (R522, R530); the scribe acts on it, when it is back (R574). -/
def State.ckStalled (s : State) (f : Nat) : State :=
  let j := s.flowJob f
  match (s.job j).ck with
  | .partnerCopy _ => if s.roleUp 3 && (s.ckFlows j).contains f && (s.job j).killLatch.isNone then s.ckAbort j 1 else s
  | .restoring _ op => if op = 2 && s.roleUp 3 && (s.ckFlows j).contains f then s.restoreEnd j 1 else s
  | _ => s

/-- The oldest unacknowledged flit has waited RTX_EXP (R412): go-back-N; after RETRIES retransmissions without an advance the
flow is STALLED. The timer stands while the rank map entry is not valid (R416). -/
def execFlowRetransmitTimeout (f : Nat) (s : State) : Answer :=
  if !s.flowSends f || !s.rankValid (s.peerRank f) || s.txNext f = s.txAcked f then .next s
  else
    let tries := (s.flow f).tries + 1
    let s := (s.satFld (fcWord f 7) 0 32 1).modFlow f fun x => { x with tries := tries }
    let s := s.resend f
    if s.fld fbToFlow 8 4 ≤ tries && s.flowState f = 1 then
      let s := (s.setFld (fcWord f 0) 0 3 2).modFlow f fun x => { x with stalledPosted := true }
      let s := s.postFlow f (s.jobHead 0x27 7 (s.flowJob f)) [(12, f), (13, s.peerRank f), (12, s.txAcked f)]
      done (s.ckStalled f)
    else done s

/-- A transmitter held by CLIMIT sends a FACK with PROBE (R412). -/
def execFlowProbeTimeout (f : Nat) (s : State) : Answer :=
  let x := s.flow f
  let sent := mod12 (s.txNext f) (s.txAcked f)
  if s.flowSends f && s.rankValid (s.peerRank f) && decide (sent < x.rtx.length) && s.climit f = s.txNext f then done (s.sendFack f true)
  else .next s

/-- The COLL that waits on a flow. -/
def State.lateColl (s : State) (f : Nat) : Option Coll := s.colls.find? fun x => (x.waitsOn f).isSome

/-- The late timer of a flow (R413): EV_FLOW_LATE once; a late COLL aborts the step, and blames the peer when nothing of the
attempt has come from it (R445). A message that may not be taken yet ends no wait (R447). -/
def execFlowLateTimeout (f : Nat) (s : State) : Answer :=
  let x := s.flow f
  if !s.flowLive f || !s.rankValid (s.peerRank f) || (s.mayTake f && (s.peekMessage f).isSome) then .next s
  else
    let coll := s.lateColl f
    if (coll.isNone && (!s.recvWaits f || x.latePosted)) then .next s
    else
      let s' := if x.latePosted then s
        else
          let s := (s.satFld (fcWord f 7) 32 32 1).modFlow f fun x => { x with latePosted := true }
          s.postFlow f (s.jobHead 0x28 7 (s.flowJob f)) [(12, f), (13, s.peerRank f), (12, s.rxExpect f)]
      match coll with
      | some y => done (s'.abortJob y.job (if x.heard then 0x1000 else s'.peerRank f) none)
      | none => done s'

end Sys2Proof.Machine
end

