-- ==== Sys2Proof/Machine/Fabric.lean ====
section
/-! DEFINITION. Arriving fabric flits, link management, training, lanes and laser sources (12_optical_fabric R391 to R408, R417;
14 R455, R457). -/

namespace Sys2Proof.Machine

open Sys2Proof

/-! ## Frames (R406, R410, R417, R447) -/

/-- Whether a flit of a type arrives on an ACTIVE fabric port. -/
def State.arrives (s : State) (p : Nat) (f : Flit) (t : Nat) : Bool := decide (p < 8) && s.portActive p && f.type.toNat = t

/-- An arriving flit is counted and goes on without the decoder's count. -/
def State.takeFrame (s : State) (p : Nat) (f : Flit) : State := (s.counted p f.fixed).frameArrives p { f with fixed := 0 }

/-- A DATA flit; IDLE carries its ACKSEQ alone (R394), and the reserved types are violations of class 0. -/
def execFlitData (p : Nat) (f : Flit) (s : State) : Answer :=
  if s.arrives p f 1 then done (s.takeFrame p f)
  else if s.arrives p f 0 then done ((s.counted p f.fixed).takeAck p f.ackseq)
  else if s.arrives p f 6 || s.arrives p f 7 then done ((s.counted p f.fixed).linkViolation p 0)
  else .next s

def execFlitFack (p : Nat) (f : Flit) (s : State) : Answer :=
  if s.arrives p f 2 then done (s.takeFrame p f) else .next s

/-- A sluice token (R375 to R377). -/
def execFlitToken (p : Nat) (f : Flit) (s : State) : Answer :=
  if s.arrives p f 3 && flitByte f 3 != 0xFF then done (s.takeFrame p f) else .next s

/-- An attempt marker: a TOKEN flit whose round byte is 0xFF (R446, R447). -/
def execAttemptMarker (p : Nat) (f : Flit) (s : State) : Answer :=
  if s.arrives p f 3 && flitByte f 3 = 0xFF then done (s.takeFrame p f) else .next s

/-! ## Replay (R393 to R395) -/

def fbReplayLimit : Nat := 8

/-- A link retrains after REPLAY_LIMIT consecutive replays (R395). -/
def State.replayLimit (s : State) (p n : Nat) : State := if s.fld fbToLink fbReplayLimit 4 ≤ n then s.retrain p else s

/-- The host link sends its replay buffer again from the `k`-th flit; its replays count in FB_PERR of port 8. -/
def State.hostResend (s : State) (k : Nat) : State :=
  let s := s.satFld (fbPerr 8) 32 32 1
  let h := s.hostLink
  let again := (h.replay.drop k).map fun f => { f with ackseq := h.rxExpect - 1 }
  { s with hostLink := { h with wire := h.wire ++ again, replays := h.replays + 1 } }

/-- A replay of the host link, which retrains after REPLAY_LIMIT of them (R395). -/
def State.hostReplay (s : State) (k : Nat) : State := (s.hostResend k).replayLimit 8 (s.hostResend k).hostLink.replays

def execFlitLnak (p : Nat) (f : Flit) (s : State) : Answer :=
  if s.arrives p f 4 then
    let s := (s.counted p f.fixed).ackOnly p f.ackseq
    let x := s.port p
    let d := (f.lseq - (x.txNext - BitVec.ofNat 12 x.replay.length)).toNat
    if d < x.replay.length then
      let s := s.replayFrom p d
      done ((s.replayLimit p (s.port p).replays).portPump p)
    else done (s.portPump p)
  else .next s

/-- The receiver's LNAK on the host link (Table: Host flit types). -/
def State.hostLnakOut (s : State) : State :=
  let h := s.hostLink
  let f := { hflitBlank with type := 7, lseq := h.rxExpect, ackseq := h.rxExpect - 1 }
  { s with hostLink := { h with wire := h.wire ++ [f], lnakSent := true } }

/-- As `State.nakAgain`, on the host link. -/
def State.hostNakAgain (s : State) : State :=
  let (v, s) := s.freeVal 1
  if v = 1 then s.hostLnakOut else s

/-- The LNAK of port `p`. -/
def State.lnakOut (s : State) (p : Nat) : State := if p = 8 then s.hostLnakOut else s.sendLnak p

/-- A flit fails its CRC or lies in a failed codeword: counted, discarded, and one LNAK, which waits while a swap of the receive
direction is pending (R389, R393, R402). -/
def execFlitCrcFail (p : Nat) (s : State) : Answer :=
  if p < 9 && s.portActive p then
    let s := s.satFld (fbPerr p) 0 32 1
    let s := if p = 8 then { s with hostLink := { s.hostLink with failed := true } } else s.modPort p fun x => { x with failed := true }
    if (s.port p).rxSwaps then .next (s.modPort p fun x => { x with nakDue := true })
    else if p = 8 then .next (if s.hostLink.lnakSent then s.hostNakAgain else s.hostLnakOut)
    else .next (if (s.port p).lnakSent then s.nakAgain p else s.sendLnak p)
  else .next s

/-- The oldest unacknowledged flit has waited REPLAY_EXP (R394). -/
def execLinkReplayTimeout (p : Nat) (s : State) : Answer :=
  if p < 8 && s.portActive p && !(s.port p).replay.isEmpty then
    let s := s.replayFrom p 0
    .next (s.replayLimit p (s.port p).replays)
  else if p = 8 && s.portActive 8 && !s.hostLink.replay.isEmpty then .next (s.hostReplay 0)
  else .next s

/-! ## Credit (R396, R457) -/

/-- CREDIT toward the adapter, unless one waits to leave: totals of posted and request flits freed; flits are freed as they are
taken. -/
def State.sendHostCredit (s : State) : State :=
  let h := s.hostLink
  if h.waiting.any fun f => f.type = 6 then s
  else s.hostSend { hflitBlank with type := 6, len := 4, payload := leBytes 2 h.postedGot.toNat ++ leBytes 2 h.requestGot.toNat }

/-- The interval of 256 flit times since the last credit message ends. -/
def execLcreditInterval (p : Nat) (s : State) : Answer :=
  if p < 8 && s.portActive p then .next (s.sendLcredit p)
  else if p = 8 && s.portActive 8 then .next s.sendHostCredit
  else .next s

/-! ## Link management (Table: Link management kinds) -/

def lmgtKind (f : Flit) : Nat := flitByte f 0

/-- Whether a kind is valid in the state of a port: during alignment HELLO, WIDTH and NACK (R397, R398, R404). -/
def State.lmgtValid (s : State) (p k : Nat) : Bool := s.portActive p || k = 3 || k = 5 || k = 6

/-- Whether a link management flit whose number lies ahead acts before its turn: in alignment, which the port leaves with a replay
(R395, R397), and SWAP_ACK while a swap of the receive direction holds the LNAK back (R402). -/
def State.actsEarly (s : State) (p : Nat) (f : Flit) (k : Nat) : Bool :=
  decide (p < 8) && seqAhead f.lseq (s.port p).rxExpect &&
    (if s.portActive p then k = 2 && (s.port p).rxSwaps else s.lmgtValid p k)

/-- A link management flit that acts ahead of the flits missing before it: its acknowledgement is taken, and its number is noted so
that it does not act again when it comes in sequence (R395, R402). -/
def State.takeEarly (s : State) (p : Nat) (f : Flit) : State :=
  (s.takeAck p f.ackseq).modPort p fun x => { x with early := f.lseq :: x.early.erase f.lseq, failed := true }

/-- A link management flit of a kind arrives, is taken in sequence, and has its effect; one that is not valid in the port's
state is answered with NACK (R417 class 5). One that acts before its turn is discarded and comes again by replay, when it acts no
second time. On port 8 the messages of lane swaps come outside the host link's sequence. -/
def State.lmgt (s : State) (p : Nat) (f : Flit) (k : Nat) (eff : State → State) : Answer :=
  if f.type.toNat = 5 && lmgtKind f = k && s.portLinked p && decide (p < 9) then
    let s := s.counted p f.fixed
    let early := s.actsEarly p f k
    let again := (s.port p).early.contains f.lseq
    let (ok, t) := if p = 8 then (true, s)
      else if early then (true, s.takeEarly p f)
      else s.acceptSeq p f
    if !ok then done t
    else if again then done (if early then t else t.modPort p fun x => { x with early := x.early.erase f.lseq })
    else if t.lmgtValid p k then done (eff t)
    else done ((t.linkViolation p 5).sendLmgt p 6 (leBytes 1 k))
  else .next s

def execLcredit (p : Nat) (f : Flit) (s : State) : Answer :=
  if p = 8 then .next s
  else s.lmgt p f 0 fun s =>
    let r := BitVec.ofNat 16 (flitField f 1 2)
    let l := BitVec.ofNat 16 (flitField f 3 2)
    (((s.linkGood p).modPort p fun x => { x with relayIn := r, localIn := l })).portPump p

/-- NACK has no further effect; a reserved kind is a violation of class 5, answered with NACK. -/
def execNack (p : Nat) (f : Flit) (s : State) : Answer :=
  let k := lmgtKind f
  if p = 8 then .next s
  else if 7 ≤ k then s.lmgt p f k fun s => (s.linkViolation p 5).sendLmgt p 6 (leBytes 1 k)
  else s.lmgt p f 6 fun s => s.linkGood p

/-! ## Port states (R397, R404) -/

def halfLanes (p : Nat) : Nat := fullLanes p / 2

/-- Lanes that a map carries. -/
def State.mapLanes (s : State) (tx : Bool) (p : Nat) : Nat :=
  ((List.range (portWaves p)).filter fun w => s.wave tx p w < 16).length

/-- EV_PORT_DEGRADED for a direction (R404, R455). -/
def State.postDegraded (s : State) (tx : Bool) (p : Nat) : State :=
  s.postLink 0x25 2 [(4, p), (1, if tx then Config.txDirection else 1 - Config.txDirection % 2)]

/-- The lasers of a port go off: maps off, lanes 0, buffers and sequence state forgotten; relayed frames that waited are freed
(R395, R397; log 24). -/
def State.portDark (s : State) (p st : Nat) : State :=
  let x := s.port p
  let s := (x.waiting.filterMap Prod.snd).foldl State.freeRelay s
  let s := (List.range (portWaves p)).foldl (fun s w =>
    let s := if s.wave true p w = 17 then s else s.setWave true p w 18
    if s.wave false p w = 17 then s else s.setWave false p w 18) s
  let s := ((s.setFld (fbPstate p) 0 4 st).setFld (fbPstate p) 4 5 0).setFld (fbPstate p) 9 5 0
  let s := s.modPort p fun x =>
    { Port.reset with wire := x.wire, spareTuning := x.spareTuning, firstAttemptDone := x.firstAttemptDone, txLanes := x.txLanes,
                      rxLanes := x.rxLanes }
  let s := { s with firm := { s.firm with defer := s.firm.defer.filter fun q => q != p } }
  if p = 8 then { s with hostLink := { HostLink.reset with wire := s.hostLink.wire } } else s

def State.portEnabled (s : State) (p : Nat) : Bool := s.portPresent p && s.fld (fbPctl p) 0 1 = 1

/-- A new set of attempts begins at LASER (R397); `fast` from saved settings. -/
def State.portStart (s : State) (p : Nat) (fast : Bool) : State :=
  let s := s.portDark p psLaser
  let s := s.setFld (fbPstate p) 27 2 0
  s.modPort p fun x => { x with fast := fast, txLanes := fullLanes p, rxLanes := fullLanes p }

/-- In stage 6 the next port in order starts when one has reached ACTIVE or failed its first attempt (R554); in recovery
mode only the host port is up (R537). -/
def State.nextPort (s : State) : State :=
  if s.fld fwStatus 0 3 = 6 && s.fld fwStatus 8 1 = 0 then
    match [8, 0, 1, 2, 3, 4, 5, 6, 7].find? (fun p => s.portEnabled p && !(s.port p).firstAttemptDone) with
    | some p => if s.portState p = psOff then s.portStart p (s.fld fwStatus 3 1 = 1) else s
    | none => s
  else s

/-- A port's first attempt has ended. -/
def State.firstDone (s : State) (p : Nat) : State := (s.modPort p fun x => { x with firstAttemptDone := true }).nextPort

/-- A port goes DOWN: EV_LINK_DOWN (R397, R404). -/
def State.portDown (s : State) (p : Nat) : State :=
  let fields := s.linkFields p
  ((s.portDark p psDown).postLink 0x22 2 fields).firstDone p

/-- An attempt fails (R397): it starts again at LASER, after three the port is DOWN. In a fast start it is a fallback (R560). -/
def State.attemptFails (s : State) (p : Nat) : State :=
  let x := s.port p
  let n := s.fld (fbPstate p) 27 2 + 1
  let s := if x.fast && s.fld fwStatus 8 1 = 0 && s.fld fwStatus 3 1 = 1 then s.setFld fwStatus 4 1 1 else s
  let s := s.setFld (fbPstate p) 27 2 n
  if 3 ≤ n then s.portDown p
  else ((s.setFld (fbPstate p) 0 4 psLaser).modPort p fun x => { x with fast := false, hello := false, swaps := [], nakDue := false }).firstDone p

/-- The port reaches ACTIVE: lanes, EV_LINK_UP, the held flits replayed and sent (R395, R397). -/
def State.portUp (s : State) (p : Nat) : State :=
  let oldTx := s.fld (fbPstate p) 4 5
  let oldRx := s.fld (fbPstate p) 9 5
  let nt := s.mapLanes true p
  let nr := s.mapLanes false p
  let s := (((s.setFld (fbPstate p) 0 4 psActive).setFld (fbPstate p) 4 5 nt).setFld (fbPstate p) 9 5 nr).setFld (fbPstate p) 27 2 0
  let s := s.postLink 0x20 2 (s.linkFields p)
  let s := if nt < fullLanes p && (oldTx = 0 || nt < oldTx) then s.postDegraded true p else s
  let s := if nr < fullLanes p && (oldRx = 0 || nr < oldRx) then s.postDegraded false p else s
  let s := s.modPort p fun x => { x with fast := false, replays := 0, lnakSent := false, nakDue := false, rxLanes := nr }
  let s := if p = 8 then
      let s := { s with hostLink := { s.hostLink with replays := 0, lnakSent := false } }
      (if s.hostLink.replay.isEmpty then s else s.hostResend 0).hostPump
    else (if (s.port p).replay.isEmpty then s else s.replayFrom p 0).portPump p
  s.firstDone p

/-- WIDTH toward the partner, for the direction that narrows; on the host port a management message, which leaves during alignment
as LINKID does. -/
def State.sendWidth (s : State) (p n : Nat) : State :=
  if p ≠ 8 then s.sendLmgt p 3 (leBytes 1 n)
  else if s.portActive 8 then s.hostSend (mgmtFlit 2 (leBytes 1 n))
  else s.hostEmit (mgmtFlit 2 (leBytes 1 n))

/-- The sources of a port's bank and its spare source are usable (R399). -/
def State.bankUp (s : State) (p : Nat) : State := s.setFld (fbPlaser p) 0 19 (2 ^ portWaves p - 1 + 2 ^ 18)

/-- What a port sends in alignment: HELLO or LINKID, and WIDTH where its transmit direction runs narrow (R398, R404, R455). -/
def State.greet (s : State) (p : Nat) : State :=
  let s := s.sendHello p
  if (s.port p).txLanes < fullLanes p then s.sendWidth p (s.port p).txLanes else s

/-- The transmit direction of a port that trains fits its width to its wavelengths: too few take the port DOWN (R404, R455). -/
def State.fitTx (s : State) (p : Nat) : State :=
  let n := (s.txUsable p).length
  let m := s.portMode p
  if n < halfLanes p then s.portDown p
  else
    let s := if n < fullLanes p then s.modPort p fun x => { x with txLanes := halfLanes p } else s
    if m = psLaser || m = psTune then s
    else
      let s := s.assignTx p
      if m = psAlign || m = psRetrain then s.greet p else s

/-- The sources of a bank that start-up has not powered reach power in LASER: in recovery mode (R397, R537). -/
def State.bankReady (s : State) (p : Nat) : State := if s.firm.recovery && s.reg (fbPlaser p) = 0 then s.bankUp p else s

/-- A training state completes (R397): alignment, also in RETRAIN, with HELLO exchanged. The pilot trains (R574). -/
def execTrainingStateComplete (p : Nat) (s : State) : Answer :=
  if 8 < p || !s.roleUp 1 then .next s
  else
    let m := s.portMode p
    if m = psLaser then
      let t := (s.bankReady p).fitTx p
      done (if t.portMode p = psDown then t else t.setFld (fbPstate p) 0 4 psTune)
    else if m = psTune then .next (((s.assignTx p).assignRx p).setFld (fbPstate p) 0 4 psEq)
    else if m = psEq then
      let s := (s.setFld (fbPstate p) 0 4 psAlign).modPort p fun x => { x with hello := false }
      .next (s.greet p)
    else if (m = psAlign || m = psRetrain) && (s.port p).hello then done (s.portUp p)
    else .next s

/-- A training state exceeds its limit. -/
def execTrainingStateTimeout (p : Nat) (s : State) : Answer :=
  let m := s.portMode p
  if p < 9 && s.roleUp 1 && (m = psLaser || m = psTune || m = psEq || m = psAlign || m = psRetrain) then done (s.attemptFails p)
  else .next s

/-- A new set of attempts for a DOWN port that is enabled. -/
def execDownRetry (p : Nat) (s : State) : Answer :=
  if p < 9 && s.roleUp 1 && s.portMode p = psDown && s.portEnabled p then .next (s.portStart p false) else .next s

/-- A direction of an ACTIVE port retrains at another width; one that narrows posts EV_PORT_DEGRADED (R404, R455). -/
def State.setWidth (s : State) (tx : Bool) (p n : Nat) : State :=
  let at_ := if tx then 4 else 9
  let old := s.fld (fbPstate p) at_ 5
  let s := s.modPort p fun x => if tx then { x with txLanes := n } else { x with rxLanes := n }
  let s := if n < old then (s.setFld (fbPstate p) at_ 5 n).postDegraded tx p else s
  s.retrain p

/-- Wavelengths that a direction can use. -/
def State.usableWaves (s : State) (tx : Bool) (p : Nat) : List Nat := if tx then s.txUsable p else s.rxUsable p

/-- A direction has lost a wavelength: too few usable ones narrow that direction or take the port DOWN (R404). -/
def State.checkWidth (s : State) (tx : Bool) (p : Nat) : State :=
  let n := (s.usableWaves tx p).length
  if n < halfLanes p then s.portDown p
  else if n < fullLanes p && (s.port p).width tx = fullLanes p then (s.sendWidth p (halfLanes p)).setWidth tx p (halfLanes p)
  else s

/-- A WIDTH of the partner, sent by the direction that must narrow: the partner's transmit direction, which is the receive direction
here (Table: Management fragments; log 66). In alignment the receive map takes the width. -/
def State.takeWidth (s : State) (p n : Nat) : State :=
  if s.portActive p then s.setWidth false p n
  else
    let s := s.modPort p fun x => { x with rxLanes := n }
    let us := (List.range (portWaves p)).filter fun w => if p = 8 then s.wave false p w ≠ 17 else s.wave false p w ≤ 16
    if us.length < n || s.mapLanes false p = n then s else s.assign false p n us

def execLmgtWidth (p : Nat) (f : Flit) (s : State) : Answer :=
  if p = 8 then .next s
  else s.lmgt p f 3 fun s =>
    let n := flitByte f 1
    if n = 8 || n = 16 then (s.linkGood p).takeWidth p n else s.linkGood p

def execLmgtRetrain (p : Nat) (f : Flit) (s : State) : Answer :=
  if p = 8 then .next s
  else s.lmgt p f 4 fun s =>
    if s.roleUp 1 then (s.linkGood p).enterRetrain p
    else { s with firm := { s.firm with defer := insertNat s.firm.defer p } }

/-- The receive map that a HELLO carries. -/
def State.takeMap (s : State) (p : Nat) (f : Flit) : State :=
  (s.setReg (fbRxw p 0) (BitVec.ofNat 64 (flitField f 3 8 % 2 ^ 60))).setReg (fbRxw p 12) (BitVec.ofNat 64 (flitField f 11 4 % 2 ^ 30))

/-- HELLO (R398): while ACTIVE, another address makes the port retrain. -/
def execHello (p : Nat) (f : Flit) (s : State) : Answer :=
  if p = 8 then .next s
  else s.lmgt p f 5 fun s =>
    let a := flitField f 1 2 % 4096
    let s := s.linkGood p
    if s.portActive p then (if a = s.fld (fbPstate p) 14 12 then s else s.retrain p)
    else
      let s := (s.takeMap p f).setFld (fbPstate p) 14 12 a
      (s.setFld (fbPstate p) 26 1 1).modPort p fun x => { x with hello := true }

/-! ## Lane swaps (R400 to R404) -/

/-- The wavelength that carries a lane. -/
def State.laneWave (s : State) (tx : Bool) (p lane : Nat) : Option Nat :=
  (List.range (portWaves p)).find? fun w => s.wave tx p w = lane

/-- The lowest spare wavelength. -/
def State.spareWave (s : State) (tx : Bool) (p : Nat) : Option Nat := (List.range (portWaves p)).find? fun w => s.wave tx p w = 16

def Swap.body (x : Swap) (count : Nat) : List Byte :=
  leBytes 1 x.lane ++ leBytes 1 x.wavelength ++ leBytes 1 (bitNat x.planned) ++ (if x.planned then leBytes 4 count else [])

/-- SWAP_REQ; the codeword at which a planned swap switches is a free value (log 6). -/
def State.sendSwapReq (s : State) (p : Nat) (x : Swap) : State :=
  let (n, s) := s.freeVal 32
  s.sendLmgt p 1 (x.body n)

/-- Moves a lane and posts EV_LANE_SPARED; the wavelength that it leaves becomes a spare unless its source has failed. -/
def State.moveLane (s : State) (tx : Bool) (p lane w : Nat) : State :=
  let lost := if tx then (s.port p).lost.find? (fun e => e.1 == lane) else none
  match (match lost with | some e => some e.2 | none => s.laneWave tx p lane) with
  | none => s
  | some old =>
    let s := if lost.isSome then s else s.setWave tx p old (if tx && !s.sourceOk p old then 17 else 16)
    let s := s.setWave tx p w lane
    let s := s.modPort p fun q => { q with lost := if tx then q.lost.filter (fun e => e.1 != lane) else q.lost }
    s.postLink 0x23 2 [(4, p), (1, if tx then Config.txDirection else 1 - Config.txDirection % 2), (4, lane), (5, old), (5, w)]

/-- Forgets a swap; when none of the receive direction is left, the LNAK that waited for them leaves (R402). -/
def State.dropSwap (s : State) (p : Nat) (x : Swap) : State :=
  let s := s.modPort p fun q => { q with swaps := q.swaps.filter fun z => z != x }
  if (s.port p).nakDue && !(s.port p).rxSwaps then (s.modPort p fun q => { q with nakDue := false }).lnakOut p else s

/-- Puts a swap in the place of another. -/
def State.replaceSwap (s : State) (p : Nat) (x y : Swap) : State :=
  s.modPort p fun q => { q with swaps := q.swaps.map fun z => if z = x then y else z }

/-- Serves the partner's request: a planned one is locked and acknowledged and waits for its codeword, an abrupt one moves the
transmit lane at once. One that names no spare is dropped. Whether it has left the queue. -/
def State.serveAsked (s : State) (p : Nat) (x : Swap) : Bool × State :=
  let ack := leBytes 1 x.lane ++ leBytes 1 x.wavelength
  if portWaves p ≤ x.wavelength || s.wave x.transmit p x.wavelength ≠ 16 then (true, s.dropSwap p x)
  else if x.planned then (false, (s.replaceSwap p x { x with asked := false, acked := true }).sendLmgt p 2 ack)
  else (true, ((s.dropSwap p x).moveLane true p x.lane x.wavelength).sendLmgt p 2 ack)

/-- Begins the port's own swap: SWAP_REQ with the lowest spare. One without a spare is dropped, and a lost lane then narrows the
direction. Whether it has left the queue. -/
def State.serveOwn (s : State) (p : Nat) (x : Swap) : Bool × State :=
  match s.spareWave x.transmit p with
  | some w => (false, (s.replaceSwap p x { x with wavelength := w }).sendSwapReq p { x with wavelength := w })
  | none =>
    let s := s.dropSwap p x
    if x.planned then (true, s)
    else
      let s := match s.laneWave x.transmit p x.lane with | some w => s.setWave x.transmit p w 17 | none => s
      (true, s.checkWidth x.transmit p)

/-- Begins the first swap of a direction if it waits; swaps of a direction run one at a time (R404). -/
def State.beginSwap (s : State) (tx : Bool) (p : Nat) : Nat → State
  | 0 => s
  | n + 1 =>
    match (s.port p).swaps.find? (fun w => w.transmit == tx) with
    | none => s
    | some x =>
      if !x.asked && x.wavelength ≠ 31 then s
      else
        let (gone, s) := if x.asked then s.serveAsked p x else s.serveOwn p x
        if gone then s.beginSwap tx p n else s

/-- Begins what waits. -/
def State.nextSwap (s : State) (tx : Bool) (p : Nat) : State := s.beginSwap tx p ((s.port p).swaps.length + 1)

/-- Adds a swap behind those of its direction; one of the port's own is not asked for twice. -/
def State.addSwap (s : State) (p : Nat) (x : Swap) : State :=
  if !x.asked && (s.port p).swaps.any (fun z => z.lane = x.lane && z.transmit = x.transmit) then s
  else (s.modPort p fun q => { q with swaps := q.swaps ++ [x] }).nextSwap x.transmit p

/-- A swap ends; the next of its direction begins. -/
def State.endSwap (s : State) (p : Nat) (x : Swap) : State := (s.dropSwap p x).nextSwap x.transmit p

/-- A ring of a lane runs out of margin: a planned swap (R400, R401). -/
def execRingMarginLow (p lane : Nat) (s : State) : Answer :=
  if p < 9 && s.portActive p && (s.laneWave true p lane).isSome && (s.spareWave true p).isSome && lane < 16 then
    .next (s.addSwap p { lane := lane, wavelength := 31, planned := true, transmit := true, acked := false, asked := false })
  else .next s

/-- A lane is lost: the receiver asks for an abrupt swap (R402). -/
def execAbruptLoss (p lane : Nat) (s : State) : Answer :=
  if p < 9 && s.portActive p && (s.laneWave false p lane).isSome && lane < 16 then
    done (s.addSwap p { lane := lane, wavelength := 31, planned := false, transmit := false, acked := false, asked := false })
  else .next s

/-- SWAP_REQ (R401, R402, R404): behind the swaps of its direction that are pending. -/
def execSwapReq (p : Nat) (f : Flit) (s : State) : Answer :=
  s.lmgt p f 1 fun s =>
    let planned := decide (flitByte f 3 % 2 = 1)
    (s.linkGood p).addSwap p
      { lane := flitByte f 1, wavelength := flitByte f 2, planned := planned, transmit := !planned, acked := false, asked := true }

/-- SWAP_ACK (R401, R402): an abrupt swap completes and the LNAK is due; a planned one waits for its codeword. -/
def execSwapAck (p : Nat) (f : Flit) (s : State) : Answer :=
  s.lmgt p f 2 fun s =>
    let lane := flitByte f 1
    let w := flitByte f 2
    let s := s.linkGood p
    match (s.port p).swaps.find? (fun x => x.lane = lane && x.wavelength = w && !x.acked && !x.asked) with
    | none => s
    | some x =>
      if x.planned then s.replaceSwap p x { x with acked := true }
      else ((s.moveLane false p lane w).modPort p fun q => { q with nakDue := true }).endSwap p x

/-- Swaps that have begun. -/
def Swap.begun (x : Swap) : Bool := !x.asked && x.wavelength != 31

/-- The codeword of a planned swap: both sides switch; without an acknowledgement the swap is cancelled (R401). -/
def execSwapSwitch (p : Nat) (s : State) : Answer :=
  match (s.port p).swaps.find? (fun x => x.planned && x.begun) with
  | none => .next s
  | some x =>
    if p < 9 && s.portActive p then
      let s := if x.acked then s.moveLane x.transmit p x.lane x.wavelength else s
      done (s.endSwap p x)
    else .next s

/-- A swap not complete in time makes the link retrain (R402). -/
def execLaneSwapTimeout (p : Nat) (s : State) : Answer :=
  if p < 9 && s.portActive p && (s.port p).swaps.any Swap.begun then done (s.retrain p) else .next s

/-! ## Laser sources (R399, R403) -/

/-- A source of the bank fails: its wavelength is marked failed, a lane on it waits for its swap, and the spare source is tuned
once. A port in training fits its map. -/
def State.waveDark (s : State) (p w : Nat) : State :=
  let v := s.wave true p w
  let s := s.setWave true p w 17
  let s := if v < 16 && s.portActive p then s.modPort p fun q => { q with lost := q.lost ++ [(v, w)] } else s
  let free := s.fld (fbPlaser p) 18 1 = 1 && s.fld (fbPlaser p) 19 1 = 0 && (s.port p).spareTuning.isNone
  let s := if free then s.modPort p fun q => { q with spareTuning := some w } else s
  let m := s.portMode p
  if s.portActive p then s.checkWidth true p
  else if m = psTune || m = psEq || m = psAlign || m = psRetrain then s.fitTx p
  else s

/-- A source fails: source `w` of the bank, the spare source when it serves that wavelength, or by number `portWaves p` the spare
source itself, which is then out of use (R399, R403). -/
def execSourceFailure (p w : Nat) (s : State) : Answer :=
  if 9 ≤ p then .next s
  else if w = portWaves p && s.fld (fbPlaser p) 18 1 = 1 then
    let s := (s.setFld (fbPlaser p) 18 1 0).modPort p fun q => { q with spareTuning := none }
    let served := s.fld (fbPlaser p) 20 5
    done (if s.fld (fbPlaser p) 19 1 = 1 && s.fld (fbPlaser p) served 1 = 0 then s.waveDark p served else s)
  else if w < portWaves p && s.sourceOk p w then
    done ((if s.fld (fbPlaser p) w 1 = 0 then s.setFld (fbPlaser p) 18 1 0 else s.setFld (fbPlaser p) w 1 0).waveDark p w)
  else .next s

/-- The spare source is tuned: its wavelength returns as a spare, or as one to train while the rings still lock (R397, R403). -/
def execSpareTuningComplete (p : Nat) (s : State) : Answer :=
  match (s.port p).spareTuning with
  | none => .next s
  | some w =>
    if p < 9 && s.roleUp 1 then
      let s := (s.setFld (fbPlaser p) 19 1 1).setFld (fbPlaser p) 20 5 w
      let m := s.portMode p
      let lit := m = psActive || m = psEq || m = psAlign || m = psRetrain
      let s := (s.setWave true p w (if lit then 16 else 18)).modPort p fun q => { q with spareTuning := none }
      let s := if m = psAlign || m = psRetrain then s.sendHello p else s
      .next (s.postLink 0x24 2 [(4, p), (5, w)])
    else .next s

/-- Tuning not complete in 20 ms: the spare source is failed. -/
def execSpareTuningTimeout (p : Nat) (s : State) : Answer :=
  if p < 9 && s.roleUp 1 && (s.port p).spareTuning.isSome then
    .next ((s.setFld (fbPlaser p) 18 1 0).modPort p fun q => { q with spareTuning := none })
  else .next s

end Sys2Proof.Machine
end

