-- ==== Sys2Proof/Machine/Registers.lean ====
section
/-! DEFINITION. Reads and writes of registers: live fields, clamping, and what each block admits to the non-secure world
(18_register_space R578 to R588; 14 R462; 17 R537, R576; 15 R505; 09 R316, R317, R320; 11 R386; 05 R145). -/

namespace Sys2Proof.Machine

open Sys2Proof

/-! ## Live fields (R586) -/

/-- A number with the bits that a predicate tells, from bit `lo`. -/
def maskOf (n : Nat) (f : Nat → Bool) : Nat := (List.range n).foldl (fun v i => v + bitNat (f i) * 2 ^ i) 0

/-- Fields laid side by side: (lowest bit, width, value). -/
def packAt (fs : List (Nat × Nat × Nat)) : Nat := fs.foldl (fun v f => v + f.2.2 % 2 ^ f.2.1 * 2 ^ f.1) 0

def Core.unitBusy (k : Core) (u : EUnit) : Bool := k.cyc.toNat < u.busyUntil.toNat

/-- CC_STATUS. A core held at a step's entry, and one whose step outcome has come, show neither stall: no instruction of
STALL_SYNC stalls there, and STEP_WAIT ends with the outcome. -/
def State.ccStatus (s : State) (c : Nat) : Nat :=
  let k := s.core c
  let run := match k.mode with | .running => true | _ => false
  let (push, sync, step) := match k.stall with
    | .push .. => (true, false, false)
    | .stepPlace .. => (true, false, true)
    | .stepWait _ => (false, false, true)
    | .flag .. => (false, true, false)
    | .reply .. => (false, true, false)
    | .counter .. => (false, true, false)
    | .sluice .. => (false, true, false)
    | .stepOver => (false, false, false)
    | .held => (false, false, false)
    | .none => (false, false, false)
  packAt [(0, 1, bitNat run), (1, 1, bitNat (!run)), (2, 1, bitNat push), (3, 1, bitNat sync), (4, 1, bitNat step),
          (5, 1, bitNat (s.frozen c))]

def State.mxStatus (s : State) (c : Nat) : Nat :=
  let k := s.core c
  packAt [(0, 1, bitNat (k.unitBusy k.array)), (1, 1, bitNat (k.unitBusy k.path)), (2, 1, bitNat (s.frozen c))]

def Bank.reg (b : Bank) : Nat := packAt [(0, 11, toSigned 11 b.anchor), (11, 1, bitNat b.copybook), (12, 1, bitNat b.valid)]

def State.vxStatus (s : State) (c : Nat) : Nat :=
  let k := s.core c
  let n := (k.queue 1).cmds.length
  packAt [(0, 1, bitNat (k.unitBusy k.vec)), (1, 1, bitNat (s.frozen c)), (2, 6, min n 63), (8, 1, bitNat (64 ≤ n))]

/-- Transfers outstanding, and whether one that could start waits for them (R275). -/
def State.sxStatus (s : State) (c : Nat) : Nat :=
  let k := s.core c
  let n := k.outstanding
  packAt [(0, 6, min n 32), (6, 1, bitNat (32 < n)), (7, 1, bitNat (s.frozen c))]

def State.sxPfstat (s : State) (c : Nat) : Nat :=
  let ts := (s.core c).trackers
  maskOf 8 (fun t => match ts[t]? with | some x => x.trained | none => false) +
    (List.range 8).foldl (fun v t => v + (match ts[t]? with | some x => x.pattern % 4 | none => 0) * 2 ^ (8 + 2 * t)) 0

def State.rvStatus (s : State) (c : Nat) : Nat :=
  let k := s.core c
  let (limit, stage, chan) := match (k.queue 3).head with
    | none => (false, false, 0)
    | some x =>
      let ws := x.words
      if x.implicit || !s.cached c ws || !reached k.cyc (s.skewed c (ws.getD 1 0)) || s.rsvReady c ws then (false, false, 0)
      else if cmdCode ws = 0x30 then
        (!s.limitOk c ws, decide (s.stageFree c < (s.rsvTile c ws).padded + 64), rsvChan ws)
      else if cmdCode ws = 0x31 then (false, true, rsvChan ws)
      else (false, false, 0)
  let staged := (k.staged.map fun x => x.size).foldl (· + ·) 0
  packAt [(0, 1, bitNat (k.unitBusy k.rsv)), (1, 1, bitNat limit), (2, 1, bitNat stage), (3, 5, chan), (8, 1, bitNat (s.frozen c)),
          (16, 18, staged), (34, 3, min k.pathTransfers 4)]

def State.cwIdent (s : State) (c : Nat) : Nat :=
  packAt [(0, 10, c), (10, 5, c % 32), (15, 5, c / 32), (20, 6, s.coreJob c), (26, 1, bitNat (s.coreSecure c)), (27, 8, s.coreHq c),
          (35, 1, bitNat (s.core c).launch.isSome)]

/-- Stream slot registers (Table: VX_SKEYA0 to VX_SMB15): `k` is 0 to 3. -/
def Slot.reg (t : Slot) (k : Nat) : Nat :=
  if k = 0 then t.k0.toNat + t.k1.toNat * 2 ^ 32
  else if k = 1 then t.k2.toNat + bitNat t.free * 2 ^ 32
  else if k = 2 then t.cursor.toNat
  else t.mbatch.toNat

/-- The live fields of a core-window register at offset `o`. -/
def State.liveCore (s : State) (c o : Nat) : Nat :=
  let k := s.core c
  if o = 0x80000 then s.ccStatus c
  else if o = 0x80008 then k.pc.toNat
  else if o = 0x80010 then k.epoch.toNat
  else if o = 0x80018 then k.cyc.toNat
  else if o = 0x80020 then packAt ((List.range 4).map fun e => (8 * e, 7, (k.queue e).cmds.length))
  else if o = 0x80028 then k.shadow.pc.toNat
  else if 0x80040 ≤ o ∧ o < 0x80060 then
    let (d, armed) := k.dueShown ((o - 0x80040) / 8)
    d.toNat + bitNat armed * 2 ^ 32
  else if 0x80100 ≤ o ∧ o < 0x80200 then (k.rg (BitVec.ofNat 5 ((o - 0x80100) / 8))).toNat
  else if o = 0x81000 then s.mxStatus c
  else if o = 0x81008 then k.bank0.reg
  else if o = 0x81010 then k.bank1.reg
  else if o = 0x810A0 then (s.silReg (s.physOf c) 2).toNat
  else if o = 0x81400 then s.vxStatus c
  else if 0x81500 ≤ o ∧ o < 0x81700 then (k.slot ((o - 0x81500) / 32)).reg (o % 32 / 8)
  else if o = 0x81800 then s.sxStatus c
  else if o = 0x81828 then s.sxPfstat c
  else if o = 0x82000 then (s.coreSpanReg c).toNat
  else if o = 0x82400 then s.rvStatus c
  else if o = 0x82800 then (s.silReg (s.physOf c) 1).toNat
  else if o = 0x82C00 then k.flags.toNat
  else if o = 0x83000 then (s.silReg (s.physOf c) 0).toNat
  else if o = 0x83800 then s.cwIdent c
  else 0

/-- Logical width and ports of the part number (R2). -/
def State.partWidth (s : State) : Nat := if s.fuses.part = 0 then 32 else if s.fuses.part = 1 then 28 else 24
def State.partPorts (s : State) : Nat := if s.fuses.part = 2 then 0x0F else 0xFF
def State.partTdp (s : State) : Nat := if s.fuses.part = 0 then 1200 else if s.fuses.part = 1 then 1080 else 900

def State.fencedCount (s : State) : Nat := ((List.range 1152).filter s.fencedPhys).length

/-- Usable cores of a row less the logical width. -/
def State.rowSpares (s : State) (y : Nat) : Nat := (s.usable y).length - s.width

def State.minSpare (s : State) : Nat := (List.range 32).foldl (fun m y => min m (s.rowSpares y)) 36

/-- Tmax: the largest valid reading (R590); without a valid sensor the spec states none: a free value (log 6). -/
def State.tmax (s : State) : Nat :=
  match (s.power.temps.filter Prod.snd).map Prod.fst with
  | [] => Config.free s.freeCtr % 256
  | t :: ts => (ts.foldl max t).toNat

/-- The ID block (R589). -/
def State.liveId (s : State) (n : Nat) : Nat :=
  if n = 0 then packAt [(0, 16, 0x5A45), (16, 16, 0x0ADA), (32, 8, s.fuses.stepping.toNat), (40, 8, s.fuses.romver.toNat)]
  else if n = 1 then
    packAt [(0, 2, s.fuses.part), (2, 6, s.partWidth), (8, 8, s.partPorts), (16, 1, 1), (17, 3, s.cap64), (20, 12, s.partTdp)]
  else if n = 2 then s.fuses.serial.toNat
  else if n = 3 then
    let usable := 1152 - s.fencedCount
    packAt [(0, 11, 1152), (11, 11, 32 * s.partWidth), (22, 11, usable), (33, 6, s.width), (39, 6, 32), (45, 6, s.minSpare),
            (51, 11, usable - 32 * s.width)]
  else if n = 4 then packAt [(0, 9, 64 * s.cap64), (9, 9, 288), (18, 4, 8), (22, 7, 32)]
  else if n = 5 then packAt [(0, 12, 3072), (12, 9, 256), (21, 6, 63), (27, 15, 16384), (42, 9, 256), (51, 11, 1024)]
  else if n = 6 then packAt [(0, 16, 0xFFFF), (16, 1, 1), (17, 1, 1)]
  else packAt [(0, 4, s.power.feedId.toNat), (4, 6, s.power.slotId.toNat)]

def State.orphans (s : State) : Nat := (s.jobs.filter fun e => e.2.holds.contains .orphaned).length

def State.hiStatus (s : State) : Nat :=
  let lease := match s.lease with | .none => 0 | .held _ => 1 | .lapsed _ => 2
  packAt [(0, 2, lease), (2, 6, s.orphans), (8, 13, s.pendRecs.length)]

/-- Whether a direction of a port runs below its full width (Table: FB_STATUS). -/
def State.degraded (s : State) (p : Nat) : Bool :=
  let t := s.fld (fbPstate p) 4 5
  let r := s.fld (fbPstate p) 9 5
  (t != 0 && decide (t < fullLanes p)) || (r != 0 && decide (r < fullLanes p))

def State.fbStatus (s : State) : Nat :=
  maskOf 9 (fun p => s.portMode p = psActive) + 2 ^ 16 * maskOf 9 (fun p => !s.portPresent p) + 2 ^ 32 * maskOf 9 s.degraded

/-- Bytes of a SHA-384 digest that the model holds as a number, first byte first (log 7). -/
def digestBytes (h : Nat) : List Byte := (leBytes 48 h).reverse

def State.nwCapacityLive (s : State) : Nat :=
  packAt [(0, 6, s.width), (6, 6, s.minSpare), (12, 11, s.fencedCount), (23, 1, bitNat (!s.fences.isEmpty))]

/-- NW_SPAN_STATUS of an entry (R145, R165). DESIGN CHOICE (log 12): an entry rewritten while a span of it is active can have two active
spans; the spec names neither, and the model shows the one activated first. -/
def State.spanStatus (s : State) (k : Nat) : Nat :=
  let (_, _, w, h) := s.spanRect k
  let d := (w - 1) + (h - 1)
  let a := s.active.find? fun a => a.span == k
  let frozen := match a with
    | some a => (match a.freeze with | some z => z.active | none => false)
    | none => false
  packAt [(0, 6, d), (6, 9, 5 * d), (15, 1, bitNat a.isSome), (16, 1, bitNat frozen),
          (17, 5, match a with | some a => a.stretch | none => 16)]

def State.rowMap (s : State) (y : Nat) : Nat :=
  packAt [(0, 36, maskOf 36 fun x => s.fencedPhys (y * 36 + x)), (36, 6, (s.usable y).length), (42, 6, s.rowSpares y),
          (48, 1, bitNat (s.rowPending y)), (49, 1, bitNat (s.fences.any fun f => f.row == y && f.shifting))]

/-- PM_RAILr: admitted current and demand in units of 0.1 A, and the smallest setting that the governor asks for. -/
def State.railShows (s : State) (r : Nat) : Nat :=
  let tested := s.testedOn r
  let cores := (s.active.map fun a => if a.running then a.railCores r else 0).foldl (· + ·) 0 + tested.length
  let n := (s.active.map fun a => if 0 < a.railCores r then s.govN a else 16).foldl min 16
  packAt [(0, 16, s.railLoad r / 1600), (16, 16, cores * s.fld pmGovCfg 8 12 / 100),
          (32, 5, (tested.map s.bistN).foldl min n)]

/-- The live fields of a chip register. -/
def State.liveChip (s : State) (a : Nat) : Nat :=
  if a < 0x8100100000 then s.liveId ((a - 0x8100000000) / 8)
  else if a = pmStatus then s.tmax % 256 * 2 ^ 13
  else if a = 0x8100100008 then bitNat s.power.lock + 2 * bitNat s.power.refOk
  else if a = 0x8100100018 then packAt [(0, 16, s.power.vinMv.toNat), (16, 16, s.power.iin.toNat), (32, 16, s.power.pin.toNat)]
  else if a = 0x8100100030 then packAt ((List.range 8).map fun n => (8 * n, 8, s.power.hbmTemps.getD n 0))
  else if 0x8100100080 ≤ a ∧ a < 0x8100100100 then
    let (t, ok) := s.power.temps.getD ((a - 0x8100100080) / 8) (0, false)
    toSigned 8 t + bitNat ok * 2 ^ 8
  else if 0x8100100140 ≤ a ∧ a < 0x8100100180 then s.railShows ((a - 0x8100100140) / 8)
  else if a = 0x8100200000 then s.hiStatus
  else if 0x8100210000 ≤ a ∧ a < 0x8100212000 then
    (if a % 32 = 0 then bitNat ((s.job (s.hqJob ((a - 0x8100210000) / 32))).holds.contains .orphaned) * 2 ^ 61 else 0)
  else if a = 0x8100300008 then s.fbStatus
  else if 0x8100310000 ≤ a ∧ a < 0x8100314000 then
    (if a % 16 = 8 then bitNat (s.colls.any fun x => x.chan == (a - 0x8100310000) / 16) * 2 ^ 36 else 0)
  else if a = 0x8100700000 then packAt [(0, 2, s.fuses.part), (2, 6, s.partWidth), (8, 8, s.partPorts), (16, 3, s.cap64)]
  else if 0x8100700100 ≤ a ∧ a < 0x8100700200 then
    let n := (a - 0x8100700100) / 8
    maskOf 64 fun b => s.fuses.marks (64 * n + b)
  else if a = 0x8100700200 then (s.fuses.infield.filter Prod.snd).length
  else if a = 0x8100700208 then s.fuses.rollback
  else if a = 0x8100700210 then maskOf 6 fun p => s.fuses.fpbad.contains p
  else if 0x8100700300 ≤ a ∧ a < 0x8100700330 then
    leNat (((digestBytes s.fuses.keyhash).drop (8 * ((a - 0x8100700300) / 8))).take 8)
  else if a = fwStatus then bitNat (s.roleUp 0 && !s.firm.inRom) * 2 ^ 7
  else if a = nwCapacity then s.nwCapacityLive
  else if 0x8100B01800 ≤ a ∧ a < 0x8100B02000 then s.spanStatus ((a - 0x8100B01800) / 8)
  else if 0x8100B02000 ≤ a ∧ a < 0x8100B02100 then s.rowMap ((a - 0x8100B02000) / 8)
  else if 0x8300000000 ≤ a ∧ a < 0x8300100000 then (if a % 64 = 8 then (s.ovalRead ((a - 0x8300000000) / 64)).toNat else 0)
  else if 0x8400000000 ≤ a then (if a % 256 = 0 then bitNat (s.flowSecure ((a - 0x8400000000) / 256)) * 2 ^ 3 else 0)
  else 0

/-- A register as it reads in the secure world: its stored fields with its live ones. A port that the part number lacks shows
ABSENT, not enabled (R5, Table: FB_PCTL). -/
def State.regValue (s : State) (a : Nat) : Reg :=
  let live := if isWindow a then s.liveCore (winCore a) (winOff a) else s.liveChip a
  let v := s.reg a ||| BitVec.ofNat 64 live
  let p := (a - 0x8100301000) / 0x100
  if 0x8100301000 ≤ a ∧ p < 9 ∧ !s.portPresent p then
    (if (a - 0x8100301000) % 0x100 = 0 then v &&& ~~~1#64
     else if (a - 0x8100301000) % 0x100 = 8 then BitVec.ofNat 64 (setBitsOf v.toNat 0 4 psAbsent)
     else v)
  else v

/-! ## What a block admits (R587, R317; R462, R505, R537, R576, R585) -/

/-- How an access to a register fares. -/
inductive Admit where
  | ok
  /-- refused for its world: counted and logged -/
  | blocked
  /-- ignored, without a count -/
  | ignored
  /-- no register there -/
  | reserved
deriving DecidableEq, Repr

/-- Whether a register has a field that software can write. -/
def RegDesc.writable (d : RegDesc) : Bool := d.fields.any fun f => f.acc == .rw || f.acc == .wo || f.acc == .slot

/-- Job of a job register: FB_JOBPOL, FW_STEPCFG to FW_CKSTEP. -/
def jobOfReg (a : Nat) : Option Nat :=
  if 0x8100314000 ≤ a ∧ a < 0x8100314200 then some ((a - 0x8100314000) / 8)
  else if 0x8100908080 ≤ a ∧ a < 0x810090A000 then some ((a - 0x8100908000) / 0x80)
  else none

/-- Whether a block refuses a non-secure access for its world. -/
def State.worldRefuses (s : State) (write : Bool) (a : Nat) : Bool :=
  if isWindow a then s.coreSecure (winCore a)
  else if a < 0x8100100000 then false
  else if a < 0x8100200000 then write && a != 0x8100100020
  else if a < 0x8100300000 then
    write && decide (0x8100210000 ≤ a) && decide (a < 0x8100212000) && s.hqSecure ((a - 0x8100210000) / 32)
  else if a < 0x8100400000 then (match jobOfReg a with | some j => s.jobSecure j | none => false)
  else if a < 0x8100500000 then write && a % 0x10000 != 0x20
  else if a < 0x8100600000 then write
  else if a < 0x8100800000 then true
  else if a < 0x8100900000 then false
  else if a < 0x8100A00000 then
    a = 0x8100900010 || a = slogPtr || (match jobOfReg a with | some j => s.jobSecure j | none => false)
  else if a < 0x8100B00000 then decide (a < 0x8100A00100) && s.fld swWfl 0 1 = 1
  else if a < 0x8300000000 then
    a = 0x8100B00008 || a = 0x8100B00010 || (decide (0x8100B02000 ≤ a) && decide (a < 0x8100B02100)) ||
      (write && decide (a < 0x8100B01000))
  else if a < 0x8400000000 then s.objSecure ((a - 0x8300000000) / 64)
  else s.flowSecure ((a - 0x8400000000) / 256)

/-- Whether the address lies in the recovery registers, which only recovery mode opens (R537). -/
def isRecov (a : Nat) : Bool := decide (0x8100A00100 ≤ a) && decide (a < 0x8100A20000)

def State.flrRuns (s : State) : Bool := s.fld fwStatus 5 1 = 1

/-- How an access to a register fares. A write to fields that are RO for every world is ignored and not counted (R13). -/
def State.admits (s : State) (sec write : Bool) (a : Nat) : Admit :=
  match regDesc a with
  | none => .reserved
  | some d =>
    if isWindow a && !s.hasCore (winCore a) then .reserved
    else if isRecov a && !s.firm.recovery then .ignored
    else if write && !d.writable then .ignored
    else if sec then .ok
    else if write && s.flrRuns then .ignored
    else if s.worldRefuses write a then .blocked
    else .ok

/-- A read of a register: its value, and the state after the count of a blocked access. A non-secure reader sees neither the
address of a secure granule (Table: MC_LASTERR) nor a retransmit buffer's (Table: Flow context). -/
def State.regRead (s : State) (sec : Bool) (a : Nat) : Reg × State :=
  match s.admits sec false a with
  | .ok =>
    let v := s.regValue a
    let hidden := !sec && ((0x8100400000 ≤ a && a < 0x8100480000 && a % 0x10000 = 0x28 && (s.reach false v.toNat != .ok)) ||
      (0x8400000000 ≤ a && a % 256 = 24))
    (if hidden then 0 else v, s)
  | .blocked => (0, s.blockAccess)
  | _ => (0, s)

/-! ## Clamping (R588) -/

/-- Lengths of the axes below axis `k` in a value of FB_PROFILE; 0 stands for 4,096. -/
def axisLen (v k : Nat) : Nat := if bitsOf v (8 + 12 * k) 12 = 0 then 4096 else bitsOf v (8 + 12 * k) 12

def clampRange (lo hi x : Nat) : Nat := if x < lo then lo else if hi < x then hi else x

/-- Whether a span entry's value lies inside its parent and clear of its valid siblings (R145). -/
def State.spanFits (s : State) (k v : Nat) : Bool :=
  let x0 := bitsOf v 0 5
  let y0 := bitsOf v 5 5
  let x1 := x0 + bitsOf v 10 5
  let y1 := y0 + bitsOf v 15 5
  let parent := bitsOf v 20 8
  if bitsOf v 28 1 = 0 then true
  else
    let (px, py, pw, ph) := s.spanRect parent
    px ≤ x0 && x1 < px + pw && py ≤ y0 && y1 < py + ph &&
      (List.range 256).all fun i =>
        i == k || !(s.spanFld i 28 1 = 1 && s.spanFld i 20 8 = parent && s.spanFld i 29 1 = 1) ||
          (let (qx, qy, qw, qh) := s.spanRect i
           x1 < qx || qx + qw ≤ x0 || y1 < qy || qy + qh ≤ y0)

/-- A field whose range depends on another field or on the part number; `v` holds the fields below, clamped. -/
def State.clampSpecial (s : State) (a : Nat) (d : RegDesc) (lo v x : Nat) : Nat :=
  if d.name = "PM_PCAP" then clampRange 300 s.partTdp x
  else if d.name = "PM_THERM_CFG" then clampRange (bitsOf v 0 8) 110 x
  else if d.name = "HI_WIN" ∨ d.name = "HI_WIN0" then max x (bitsOf v 0 19)
  else if d.name = "FB_PROFILE" then
    let k := (lo - 8) / 12
    if s.fuses.part = 2 ∧ 2 ≤ k then 1
    else
      let below := (List.range k).foldl (fun p i => p * axisLen v i) 1
      (min (if x = 0 then 4096 else x) (4096 / below)) % 4096
  else if d.name = "FB_PCTL" then (if s.portPresent ((a - 0x8100301000) / 0x100) then x else 0)
  else if d.name = "FB_CCFG" then min x ((if bitsOf v 0 12 = 0 then 4096 else bitsOf v 0 12) - 1)
  else if d.name = "SW_REGION" then (if 512 * s.cap64 ≤ (a - 0x8100600000) / 8 then 0 else x)
  else if d.name = "FL_RECOVCTL" then min (x / 65536 * 65536) 0x2FF0000
  else if d.name = "NW_SPAN" then
    (if lo = 0 then min x (s.width - 1)
     else if lo = 10 then min x (s.width - 1 - bitsOf v 0 5)
     else if lo = 15 then min x (31 - bitsOf v 5 5)
     else if lo = 28 then (if bitsOf v 20 8 = (a - 0x8100B01000) / 8 then 0 else x)
     else if s.spanFits ((a - 0x8100B01000) / 8) v then x else 0)
  else if d.name = "SY_OCFG" then
    let n := bitsOf v 25 13
    (if lo = 38 then min x (n - 1) else min x (3072 - 2 * clog2 n))
  else if d.name = "FC_W4" then (if x = 0 then 0 else clampRange 10 40 x)
  else if d.name = "RV_STAGE" then min (x / 64 * 64) (196608 - bitsOf v 0 18)
  else if d.name = "RV_CHAN" then min (x / 64 * 64) (bitsOf v 0 32)
  else x

/-- The value that a field is stored as. -/
def State.clampField (s : State) (a : Nat) (d : RegDesc) (f : Field) (v x : Nat) : Nat :=
  match f.clamp with
  | .any => x
  | .range lo hi => clampRange lo hi x
  | .align b => x / 2 ^ b * 2 ^ b
  | .code largest stored => if largest < x then stored else x
  | .special => s.clampSpecial a d f.lo v x

/-- The stored value of a register after a write: each writable field in ascending order, the others as they were. -/
def State.clamped (s : State) (sec : Bool) (a : Nat) (d : RegDesc) (w : Nat) : Nat :=
  d.fields.foldl (fun v f =>
    if f.acc == .rw && (sec || !f.secure) then setBitsOf v f.lo f.w (s.clampField a d f v (bitsOf w f.lo f.w)) else v)
    (s.reg a).toNat

/-- A write of a stream slot's register. -/
def Slot.setReg (t : Slot) (k v : Nat) : Slot :=
  if k = 0 then { t with k0 := BitVec.ofNat 32 v, k1 := BitVec.ofNat 32 (v / 2 ^ 32) }
  else if k = 1 then { t with k2 := BitVec.ofNat 32 v, free := bitOf v 32 }
  else if k = 2 then { t with cursor := BitVec.ofNat 64 v }
  else { t with mbatch := BitVec.ofNat 24 v }

/-- Stores an admitted write: the fields of the register alone. -/
def State.storeReg (s : State) (sec : Bool) (a : Nat) (w : Reg) : State :=
  match regDesc a with
  | none => s
  | some d =>
    if d.fields.any (fun f => f.acc == .slot) then
      let n := (winOff a - 0x81500) / 32
      s.modCore (winCore a) fun k => k.setSlot n ((k.slot n).setReg (a % 32 / 8) w.toNat)
    else s.setReg a (BitVec.ofNat 64 (s.clamped sec a d w.toNat))

/-- An admitted write has its effect; a blocked one is counted, another has none. -/
def State.onWrite (s : State) (sec : Bool) (a : Nat) (eff : State → State) : State :=
  match s.admits sec true a with
  | .ok => eff s
  | .blocked => s.blockAccess
  | _ => s

end Sys2Proof.Machine
end

