-- ==== Sys2Proof/Machine/Writes.lean ====
section
/-! DEFINITION. Writes of registers that act: host queues and rings, the lease, sync objects, spans, reservoir channels, routes,
ports, job policies and checkpoints (14 R463 to R479, R483; 11 R370, R372, R379; 05 R145; 10 R331, R335, R345; 12 R397, R408,
R416; 13 R448, R453, R454; 16 R515, R519 to R526; 17 R559, R575). -/

namespace Sys2Proof.Machine

open Sys2Proof

/-! ## Violations of the host link (R479) -/

def hiViol (c : Nat) : Nat := 0x8100200080 + 8 * c
def hiVpolicy : Nat := 0x8100200040

/-- Counts a violation, EV_HOST_VIOLATION at powers of two. -/
def State.countViolation (s : State) (c : Nat) : State :=
  let s := s.satFld (hiViol c) 0 32 1
  let n := s.fld (hiViol c) 0 32
  if isPow2 n then s.post (devHead 0x53 8) [(4, c), (32, n)] else s

/-- A violation of a class; a run of classes 1 to 3 retrains the port. -/
def State.hostViolation (s : State) (c : Nat) : State :=
  let s := s.countViolation c
  let h := s.hostLink
  let run := if h.violRun.1 = c then h.violRun.2 + 1 else 1
  let escal := (c = 1 || c = 2 || c = 3) && decide (s.fld hiVpolicy 8 8 ≤ run)
  let s := { s with hostLink := { h with violRun := (c, if escal then 0 else run), tainted := true } }
  if escal then s.retrain 8 else s

/-- A flit without a violation ends a run (log 14). -/
def State.hostGood (s : State) : State :=
  if s.hostLink.tainted then s else { s with hostLink := { s.hostLink with violRun := (s.hostLink.violRun.1, 0) } }

/-- Class 8: a run on one queue isolates it. -/
def State.queueViolation (s : State) (q : Nat) : State :=
  let s := s.hostViolation 8
  let run := (s.hq q).violRun + 1
  let s := s.modHq q fun h => { h with violRun := run }
  if s.fld hiVpolicy 0 8 ≤ run ∧ s.fld (hqCfg q) 60 1 = 0 then
    let s := (s.setFld (hqCfg q) 60 1 1).modHq q fun h => { h with violRun := 0 }
    s.post { type := 0x54, job := s.hqJob q, core := none, hq := some q, source := 8, step := s.jobStep (s.hqJob q) } []
  else s

/-! ## Host queues (R463, R468, R479; Tables: HI_HQCFG, HI_HQCQ, HI_HQPTR) -/

/-- A doorbell: the tail of an enabled queue that is not isolated (R463, R480). -/
def State.doorbell (s : State) (q t : Nat) : State :=
  if !hqEnabled s q || s.fld (hqCfg q) 60 1 = 1 then s.queueViolation q
  else (s.setFld (hqPtr q) 0 16 (min t (s.hqSize q - 1))).modHq q fun h => { h with violRun := 0 }

/-- A write of CQHEAD: it frees records, and completions that wait are written (R468, R469, R471). -/
def State.cqHeadWrite (s : State) (q w : Nat) : State :=
  let size := 2 ^ s.fld (hqCq q) 40 5
  let tail := s.fld (hqPtr q) 48 16
  let full := (s.hq q).cqFull
  let (d, head) := freeTo size (s.fld (hqPtr q) 32 16) tail full w
  let s := (s.setFld (hqPtr q) 32 16 head).modHq q fun h => { h with cqFull := full && d == 0 }
  let unread := head ≠ tail ∨ (s.hq q).cqFull = true
  let s := if s.fld (hqCq q) 56 1 = 1 ∧ unread then s.sendMsg (s.fld (hqCq q) 45 11) else s
  s.cqFlush q (s.hq q).pendingCpl.length

def State.hqptrWrite (s : State) (q : Nat) (v : Reg) : State :=
  (s.doorbell q (bitsOf v.toNat 0 16)).cqHeadWrite q (bitsOf v.toNat 32 16)

def execHqptrWrite (sec : Bool) (q : Nat) (v : BitVec 64) (s : State) : Answer :=
  .next (s.onWrite sec (hqPtr q) fun s => s.hqptrWrite q v)

/-- Whether an enabled host queue names a job (R466). -/
def State.jobQueued (s : State) (j : Nat) : Bool := (List.range 256).any fun q => hqEnabled s q && s.hqJob q == j

def State.hqcfgWrite (s : State) (sec : Bool) (q : Nat) (v : Reg) : State :=
  let j := s.hqJob q
  let named := s.jobQueued j
  let s := s.storeReg sec (hqCfg q) v
  let s := (s.setFld (hqPtr q) 0 16 0).setFld (hqPtr q) 16 16 0
  let s := if hqEnabled s q then (s.setFld (hqCfg q) 60 1 0).modHq q fun h => { h with violRun := 0 } else s
  if j ≠ 0 ∧ named ∧ !s.jobQueued j then s.modJob j fun x => { x with limit := 2 ^ 48 - 1 } else s

def execHqcfgWrite (sec : Bool) (q : Nat) (v : BitVec 64) (s : State) : Answer :=
  .next (s.onWrite sec (hqCfg q) fun s => s.hqcfgWrite sec q v)

/-! ## Rings (R468, R470, R471, R575) -/

/-- A write of the event or log ring's HEAD. -/
def State.ringHeadWrite (s : State) (log : Bool) (w : Nat) : State :=
  let cfg := if log then logRingReg else evRingReg
  let ptr := if log then logPtr else evPtr
  let st := if log then s.logRing else s.eventRing
  let tail := s.fld ptr 24 24
  let (d, head) := freeTo (2 ^ s.fld cfg 40 5) (s.fld ptr 0 24) tail st.full w
  let st := { st with full := st.full && d == 0 }
  let s := s.setFld ptr 0 24 head
  let s := if log then { s with logRing := st } else { s with eventRing := st }
  let s := if s.fld cfg 56 1 = 1 ∧ (head ≠ tail ∨ st.full = true) then s.sendMsg (s.fld cfg 45 11) else s
  s.drainPending

def execEvptrWrite (sec : Bool) (v : BitVec 64) (s : State) : Answer :=
  .next (s.onWrite sec evPtr fun s => s.ringHeadWrite false (bitsOf v.toNat 0 24))

def execLogptrWrite (sec : Bool) (v : BitVec 64) (s : State) : Answer :=
  .next (s.onWrite sec logPtr fun s => s.ringHeadWrite true (bitsOf v.toNat 0 24))

/-- A write of a record ring's HEAD; a job that holds for a slot goes on (R515). -/
def State.srptrWrite (s : State) (j : Nat) (v : Reg) : State :=
  let p := fwSrptr j
  let full := (s.job j).srFull
  let (d, head) := freeTo (s.srSlots j) (s.fld p 0 16) (s.fld p 16 16) full (bitsOf v.toNat 0 16)
  ((s.setFld p 0 16 head).modJob j fun x => { x with srFull := full && d == 0 }).recordFreed j

def execSrptrWrite (sec : Bool) (j : Nat) (v : BitVec 64) (s : State) : Answer :=
  done (s.onWrite sec (fwSrptr j) fun s => s.srptrWrite j v)

def State.slogptrWrite (s : State) (v : Reg) : State :=
  let st := s.secureLog
  let (d, head) := freeTo 65536 (s.fld slogPtr 0 16) (s.fld slogPtr 16 16) st.full (bitsOf v.toNat 0 16)
  { s.setFld slogPtr 0 16 head with secureLog := { st with full := st.full && d == 0 } }

def execSlogptrWrite (sec : Bool) (v : BitVec 64) (s : State) : Answer :=
  .next (s.onWrite sec slogPtr fun s => s.slogptrWrite v)

/-- A write of a ring's configuration writes BASE and the sizes with its other fields, and starts the ring again: HEAD and TAIL 0, the
next record with PHASE 1 (log 32). -/
def State.ringConfigWrite (s : State) (sec : Bool) (a : Nat) (v : Reg) : State :=
  let s := s.storeReg sec a v
  if a = evRingReg then
    ({ (s.setFld evPtr 0 24 0).setFld evPtr 24 24 0 with eventRing := { s.eventRing with phase := true, full := false } } : State).drainPending
  else if a = logRingReg then
    ({ (s.setFld logPtr 0 24 0).setFld logPtr 24 24 0 with logRing := { s.logRing with phase := true, full := false } } : State).drainPending
  else if 0x8100210000 ≤ a ∧ a < 0x8100212000 then
    let q := (a - 0x8100210000) / 32
    let s := ((s.setFld (hqPtr q) 32 16 0).setFld (hqPtr q) 48 16 0).modHq q fun h => { h with cqPhase := true, cqFull := false }
    s.cqFlush q (s.hq q).pendingCpl.length
  else
    let j := (a - 0x8100908000) / 0x80
    (((s.setFld (fwSrptr j) 0 16 0).setFld (fwSrptr j) 16 16 0).modJob j fun x => { x with srPhase := true, srFull := false }).recordFreed j

/-- Whether an address is that of a ring's configuration. -/
def isRingConfig (a : Nat) : Bool :=
  a = evRingReg || a = logRingReg || (decide (0x8100210000 ≤ a) && decide (a < 0x8100212000) && a % 32 = 16) ||
    (decide (0x8100908080 ≤ a) && decide (a < 0x810090A000) && a % 0x80 = 8)

def execRingConfigWrite (sec : Bool) (addr : Nat) (v : BitVec 64) (s : State) : Answer :=
  if isRingConfig addr then done (s.onWrite sec addr fun s => s.ringConfigWrite sec addr v) else .next s

/-! ## The lease (R475 to R478) -/

/-- EV_JOB_REATTACHED for each orphaned job. -/
def State.reattach (s : State) : State :=
  (s.jobs.filter fun e => e.2.holds.contains .orphaned).foldl (fun s e => s.post (s.jobHead 0x52 8 e.1) []) s

/-- Table: Lease writes. A token of 0 is read as 1. -/
def State.leaseWrite (s : State) (renew : Bool) (v : Reg) : State :=
  let t := if v = 0 then 1 else v
  match s.lease with
  | .none => if renew then s.hostViolation 9 else { s with lease := .held t }
  | .held u => if t = u then s else s.hostViolation 9
  | .lapsed u =>
    if renew then s.hostViolation 9
    else if 0 < s.orphans then (if t = u then ({ s with lease := .held t } : State).reattach else s.hostViolation 9)
    else { s with lease := .held t }

def execAttach (sec : Bool) (v : BitVec 64) (s : State) : Answer :=
  .next (s.onWrite sec 0x8100200010 fun s => s.leaseWrite false v)

def execRenew (sec : Bool) (v : BitVec 64) (s : State) : Answer :=
  .next (s.onWrite sec 0x8100200018 fun s => s.leaseWrite true v)

/-- Jobs that have an active span, ascending. -/
def State.activeJobs (s : State) : List Nat := s.active.foldl (fun l a => insertNat l a.job) []

/-- The lease count expires: waiting MSG flits are discarded, EV_LEASE_LAPSED, and each job with an active span goes on to its
next commit; one that is parked is orphaned at once (R476, R477). -/
def execLeaseExpiry (s : State) : Answer :=
  match s.lease with
  | .held t =>
    let js := s.activeJobs
    let h := s.hostLink
    let s := { s with lease := .lapsed t, hostLink := { h with waiting := h.waiting.filter fun f => f.type != 5 } }
    let s := s.post (devHead 0x50 8) [(32, js.length)]
    done (js.foldl (fun s j =>
      let s := s.modJob j fun x => { x with lapsing := true }
      if (s.job j).holds.contains .parked then s.orphan j else s) s)
  | _ => .next s

/-! ## Sync objects (R370, R372, R379) -/

def State.syOcfgWrite (s : State) (sec : Bool) (n : Nat) (v : Reg) : State :=
  ((s.storeReg sec (syOcfg n) v).setObj n Obj.reset).evalObj n

def execSyOcfgWrite (sec : Bool) (n : Nat) (v : BitVec 64) (s : State) : Answer :=
  .next (s.onWrite sec (syOcfg n) fun s => s.syOcfgWrite sec n v)

/-- Only a counter's SY_OVAL can be written (Table: SY_OVAL). -/
def State.syOvalWrite (s : State) (n : Nat) (v : Reg) : State :=
  if s.objKind n = 1 then (s.modObj n fun o => { o with value := v }).evalObj n else s

/-- A write of SY_OVAL: admitted with its object where the object is a counter, else ignored and counted nowhere (R386). -/
def State.onOval (s : State) (sec : Bool) (n : Nat) (v : Reg) : State :=
  if s.objKind n = 1 then s.onWrite sec (syOcfg n) fun s => s.syOvalWrite n v else s

def execSyOvalWrite (sec : Bool) (n : Nat) (v : BitVec 64) (s : State) : Answer := .next (s.onOval sec n v)

/-- SY_OADD: a counter adds, a sluice takes one arrival, an object of no kind refuses (R378). -/
def State.syOaddWrite (s : State) (n : Nat) (v : Reg) : State :=
  if s.objKind n = 1 then (s.counterAdd n v).2
  else if s.objKind n = 2 then (s.arrive n).2
  else s.addFld syReject 0 32 1

def execSyOaddWrite (sec : Bool) (n : Nat) (v : BitVec 64) (s : State) : Answer :=
  done (s.onWrite sec (syOcfg n + 16) fun s => s.syOaddWrite n v)

/-! ## Spans and reservoir channels -/

def execNwSpanWrite (sec : Bool) (k : Nat) (v : BitVec 64) (s : State) : Answer :=
  .next (s.onWrite sec (nwSpan k) fun s => s.storeReg sec (nwSpan k) v)

/-- The base moves: the channel is empty (R345). -/
def State.rvChanbaseWrite (s : State) (sec : Bool) (c ch : Nat) (v : Reg) : State :=
  let s := (s.storeReg sec (rvChanBase c ch) v).setFld (rvChan c ch) 32 32 0
  s.modCore c fun k => { k with staged := k.staged.filter fun x => x.chan != ch }

def execRvChanbaseWrite (sec : Bool) (c ch : Nat) (v : BitVec 64) (s : State) : Answer :=
  .next (s.onWrite sec (rvChanBase c ch) fun s => s.rvChanbaseWrite sec c ch v)

def execRvChanWrite (sec : Bool) (c ch : Nat) (v : BitVec 64) (s : State) : Answer :=
  .next (s.onWrite sec (rvChan c ch) fun s => s.storeReg sec (rvChan c ch) v)

def State.rvStageWrite (s : State) (sec : Bool) (c : Nat) (v : Reg) : State :=
  (s.storeReg sec (rvStage c) v).modCore c fun k => { k with staged := [] }

def execRvStageWrite (sec : Bool) (c : Nat) (v : BitVec 64) (s : State) : Answer :=
  .next (s.onWrite sec (rvStage c) fun s => s.rvStageWrite sec c v)

/-! ## Fabric profile, routes and ranks (R408, R416, R452, R453) -/

def fbProfile : Nat := 0x8100300028

/-- Coordinates of a rank (R452). -/
def State.coords (s : State) (n : Nat) : List Nat :=
  let v := (s.reg fbProfile).toNat
  let l := (List.range 4).map (axisLen v)
  [n % l.getD 0 1, n / l.getD 0 1 % l.getD 1 1, n / (l.getD 0 1 * l.getD 1 1) % l.getD 2 1,
   n / (l.getD 0 1 * l.getD 1 1 * l.getD 2 1)]

/-- The port on which a rank is reached: the first axis on which it differs, by the shorter way where the ring closes (R453). -/
def State.profilePort (s : State) (own n : Nat) : Option Nat :=
  let v := (s.reg fbProfile).toNat
  let a := s.coords own
  let b := s.coords n
  match (List.range 4).find? (fun k => a.getD k 0 != b.getD k 0) with
  | none => none
  | some k =>
    let x := a.getD k 0
    let y := b.getD k 0
    let l := axisLen v k
    let up := (y + l - x % l) % l
    let positive := if bitsOf v (2 * k) 2 = 2 then decide (x < y) else decide (2 * up ≤ l)
    some (if positive then 2 * k else 2 * k + 1)

/-- The pilot rebuilds the route of every rank (R453). -/
def State.rebuildRoutes (s : State) : State :=
  let own := s.ownRank
  if own = 0x1000 then s
  else
    (List.range 4096).foldl (fun s n =>
      if s.rankValid n then
        match s.profilePort own n with
        | some p => s.setFld (fbRoute (s.rankAddr n / 16)) (4 * (s.rankAddr n % 16)) 4 p
        | none => s
      else s) s

/-- Every field of FB_PROFILE takes secure writes only (Table: FB_PROFILE). The pilot rebuilds the routes, after its restart where it is
down (R52, R453). -/
def State.profileWrite (s : State) (sec : Bool) (v : Reg) : State :=
  if !sec then s
  else if s.roleUp 1 then (s.storeReg sec fbProfile v).rebuildRoutes
  else { s.storeReg sec fbProfile v with firm := { (s.storeReg sec fbProfile v).firm with reroute := true } }

def execFbProfileWrite (sec : Bool) (v : BitVec 64) (s : State) : Answer :=
  .next (s.onWrite sec fbProfile fun s => s.profileWrite sec v)

def execFbRouteWrite (sec : Bool) (n : Nat) (v : BitVec 64) (s : State) : Answer :=
  .next (s.onWrite sec (fbRoute n) fun s => s.storeReg sec (fbRoute n) v)

/-- A rank map entry changes, which its secure-write fields let a secure write do: EV_RANK_REMAP, and frames that waited for the
entry may be sent (R416). -/
def State.rankmapWrite (s : State) (sec : Bool) (n : Nat) (v : Reg) : State :=
  if !sec then s
  else
    let old := s.rankAddr n
    let s := s.storeReg sec (fbRankmap n) v
    let s := s.post (devHead 0x2A 2) [(13, n), (12, old), (12, s.rankAddr n)]
    ((s.flows.map Prod.fst).filter fun f => s.flowSends f && s.peerRank f = n).foldl State.flowPump s

def execFbRankmapWrite (sec : Bool) (n : Nat) (v : BitVec 64) (s : State) : Answer :=
  done (s.onWrite sec (fbRankmap n) fun s => s.rankmapWrite sec n v)

/-! ## Ports (R397) -/

/-- Whether a port that is enabled now may train: start-up has completed, or its stage has passed the port. -/
def State.mayTrain (s : State) (p : Nat) : Bool :=
  s.roleUp 1 && (s.fld fwStatus 8 1 = 1 || (s.fld fwStatus 0 3 = 6 && (s.port p).firstAttemptDone))

/-- FB_PCTL, whose fields all take secure writes only. -/
def State.pctlWrite (s : State) (sec : Bool) (p : Nat) (v : Reg) : State :=
  if !sec || !s.portPresent p then s
  else
    let s := s.storeReg sec (fbPctl p) v
    if s.fld (fbPctl p) 0 1 = 0 then (if s.portState p = psOff then s else (s.portDark p psOff).nextPort)
    else
      let s := if s.portState p = psOff && s.mayTrain p then s.portStart p false else s
      if bitOf v.toNat 1 then s.retrain p else s

def execPortEnable (sec : Bool) (p : Nat) (v : BitVec 64) (s : State) : Answer :=
  done (s.onWrite sec (fbPctl p) fun s => s.pctlWrite sec p v)

def execPortRetrain (sec : Bool) (p : Nat) (v : BitVec 64) (s : State) : Answer :=
  done (s.onWrite sec (fbPctl p) fun s => s.pctlWrite sec p v)

/-! ## Collective channels and job policy (R448, R454) -/

def execFbCcfgWrite (sec : Bool) (ch : Nat) (v : BitVec 64) (s : State) : Answer :=
  .next (s.onWrite sec (fbCcfg ch) fun s => s.storeReg sec (fbCcfg ch) v)

/-- RELEASE: a parked job goes on at step entry with ATTEMPT 0, every marker record of its flows cleared (R448). A killed job
has no span to resume; it is free for its replay once the fence of its suspect cores has taken place (R497, R498). -/
def State.release (s : State) (j : Nat) : State :=
  if s.fld (fbJobpol j) 45 1 = 0 then s
  else
    let s := s.endPark j
    let s := if (s.job j).holds.contains .killed then
        s.modJob j fun x => { x with holds := x.holds.filter fun h => h != .killed && h != .parked }
      else s.dropHold j .parked
    s.enterStep j

def State.jobpolWrite (s : State) (sec : Bool) (j : Nat) (v : Reg) : State :=
  let s := s.storeReg sec (fbJobpol j) v
  if bitOf v.toNat 4 then s.release j else s

def execRelease (sec : Bool) (j : Nat) (v : BitVec 64) (s : State) : Answer :=
  done (s.onWrite sec (fbJobpol j) fun s => s.jobpolWrite sec j v)

/-! ## Checkpoints and restores on request (R519, R524, R526) -/

/-- A restore begins: from the partner, from local flash, or from the snapshot region. -/
def State.restoreBegin (s : State) (j op step : Nat) : State :=
  let start := fun (s : State) =>
    (s.modJob j fun x => { x with ck := .restoring step op, restoreIn := [], restoreSize := none, restorePrint := none }).ckShow j
  if op = 2 then
    let f := s.fld (fwCkcfg j) 12 12
    if !s.flowUsable f j then s.restoreEnd j 1
    else (start s).sendMessage f (s.ckHeader 3 s.ownRank step 0 0 false)
  else if op = 3 then (if (s.job j).gens.any (fun g => g.step == step) then start s else s.restoreEnd j 3)
  else
    let r := s.devBytes (s.jobSecure j) (s.fld (fwCksnap j) 0 40) 64
    let s := s.countReads (s.jobSecure j) [(s.fld (fwCksnap j) 0 40, 64)]
    if recordValid r && msgField r 0 6 = step then start s else s.restoreEnd j 3

/-- A restore is asked for; it waits while the scribe is down (R574). -/
def State.restoreAsk (s : State) (j op step : Nat) : State :=
  if s.roleUp 3 then s.restoreBegin j op step
  else (s.modJob j fun x => { x with ck := .restoreAsked step op }).ckShow j

/-- A write of FW_CKCTL. A checkpoint is refused unless the job is parked, a restore while a span of the job is active, and
either while an operation runs. -/
def State.ckctl (s : State) (j : Nat) (v : Reg) : State :=
  let op := bitsOf v.toNat 0 4
  let step := bitsOf v.toNat 4 48
  let x := s.job j
  let idle := match x.ck with | .idle => true | _ => false
  let waits := x.holds.contains .checkpoint
  if op = 1 then
    (if idle && !waits && (x.holds.contains .parked || x.holds.contains .orphaned) && !(s.jobSpans j).isEmpty then s.checkpoint j
     else s.ckResult j 5)
  else if op = 2 ∨ op = 3 ∨ op = 4 then
    (if idle && (s.jobSpans j).isEmpty then s.restoreAsk j op step else s.ckResult j 5)
  else if op = 5 ∧ x.snapshotHeld then (s.modJob j fun x => { x with snapshotHeld := false }).ckShow j
  else s

def execCheckpointNow (sec : Bool) (j : Nat) (v : BitVec 64) (s : State) : Answer :=
  done (s.onWrite sec (fwCkctl j) fun s => s.ckctl j v)
def execRestoreFromPartner (sec : Bool) (j : Nat) (v : BitVec 64) (s : State) : Answer :=
  done (s.onWrite sec (fwCkctl j) fun s => s.ckctl j v)
def execRestoreFromFlash (sec : Bool) (j : Nat) (v : BitVec 64) (s : State) : Answer :=
  done (s.onWrite sec (fwCkctl j) fun s => s.ckctl j v)
def execRestoreFromSnapshot (sec : Bool) (j : Nat) (v : BitVec 64) (s : State) : Answer :=
  done (s.onWrite sec (fwCkctl j) fun s => s.ckctl j v)
def execReleaseSnapshot (sec : Bool) (j : Nat) (v : BitVec 64) (s : State) : Answer :=
  done (s.onWrite sec (fwCkctl j) fun s => s.ckctl j v)

/-! ## Saved settings (R559) -/

/-- The saved settings are erased at once, and none that keeper has in line is written. -/
def State.invalidate (s : State) : State :=
  let body := fun (w : KeeperWrite) => match w with | .savedBody _ => true | .savedCrc => true | _ => false
  { s.setFld fwStatus 6 1 0 with firm := { s.firm with saved := none, writes := s.firm.writes.filter fun w => !body w } }

def execInvalidate (sec : Bool) (v : BitVec 64) (s : State) : Answer :=
  .next (s.onWrite sec 0x8100900008 fun s => if bitOf v.toNat 0 then s.invalidate else s)

end Sys2Proof.Machine
end

