-- ==== Sys2Proof/Machine/Resets.lean ====
section
/-! DEFINITION. Per-core and function-level resets, and what a device-wide reset keeps (17_bringup_firmware R566 to R570; 05 R163;
04 R134; 06 R173; 07 R200; 08 R615; 10 R344; 11 R367, R381). -/

namespace Sys2Proof.Machine

open Sys2Proof

/-! ## Per-core reset -/

/-- The dynamic state of a core after a per-core reset: R134 (banks), R173 (stream slots), R200 (control core), R344 (staging
area), R367 (flags), R615 (prefetch trackers). Pond, instruction memory and descriptor cache stay. -/
def Core.afterReset (k : Core) : Core :=
  { Core.reset with pond := k.pond, imem := k.imem, imemEpoch := k.imemEpoch, imemBlocks := k.imemBlocks, dcache := k.dcache.map fun e => { e with pins := 0 } }

/-- A SEND whose bytes have not all entered the flow's retransmit buffer is dropped (R615). -/
def State.dropSends (s : State) (c : Nat) : State :=
  { s with flows := s.flows.map fun e =>
      (e.1, { e.2 with txq := e.2.txq.filter fun y => match y.2 with | some o => o.1 != c | none => true }) }

/-- The reset of one logical core. The cumulative counters, VX_STEP, RV_CHANBASE, LIMIT, RV_STAGE, SX_RXTRUNC, SX_DCACHE and
SX_PFCTL keep their values (R134, R173, R344, R615). -/
def State.resetCore (s : State) (c : Nat) : State :=
  let s := (s.stopUnits c).dropSends c
  let s := s.modCore c Core.afterReset
  let s := (List.range 8).foldl (fun s n => s.setReg (cw c (0x81020 + 8 * n)) 0) s
  let s := (List.range 32).foldl (fun s ch => s.setFld (rvChan c ch) 32 32 0) s
  let s := (List.range 16).foldl (fun s n => s.setReg (sxFp c n) 0) s
  { s.setReg (sxFpPoison c) 0 with waiters := mdel s.waiters c }

/-- The cores that a per-core reset of a core acts on: every member of its active span (R163). -/
def State.resetCores (s : State) (c : Nat) : List Nat :=
  match s.spanOf c with
  | some a => a.members
  | none => [c]

/-- Whether a per-core reset must wait: a row of its cores shifts (R568), or the steward, which kills, is down (R574). -/
def State.resetWaits (s : State) (c : Nat) : Bool :=
  !s.roleUp 2 || (s.resetCores c).any fun m => s.fences.any fun f => f.shifting && f.row == m / 32

/-- A per-core reset: the job of the span is killed as a CONTROL KILL does, the cores are reset and the span is deactivated
(R163, R568). -/
def State.coreReset (s : State) (c : Nat) : State :=
  let cs := s.resetCores c
  let s := match s.spanOf c with
    | some a => s.kill a.job 8 none 0 0
    | none => s
  cs.foldl State.resetCore s

/-- Carries out the resets that waited and need not wait any more. -/
def State.runResets (s : State) : State :=
  let due := s.firm.resetsDue.filter fun c => !s.resetWaits c
  let s := { s with firm := { s.firm with resetsDue := s.firm.resetsDue.filter fun c => s.resetWaits c } }
  due.foldl State.coreReset s

def fwCorerst : Nat := 0x8100900020

/-- FW_CORERST: an ID that names no core, or a non-secure write that names a secure core, is ignored (R568, R588). A function-level reset
prevails over the reset of a core that it resets (R569). -/
def State.corerstWrite (s : State) (sec : Bool) (v : Reg) : State :=
  let c := bitsOf v.toNat 0 10
  if !bitOf v.toNat 10 || !s.hasCore c || (!sec && s.coreSecure c) || (s.flrRuns && !s.coreSecure c) then s
  else if s.resetWaits c then { s with firm := { s.firm with resetsDue := insertNat s.firm.resetsDue c } }
  else s.coreReset c

def execPerCoreReset (sec : Bool) (v : BitVec 64) (s : State) : Answer :=
  done (s.onWrite sec fwCorerst fun s => s.corerstWrite sec v)

/-! ## Function-level reset (R567) -/

/-- A job is discarded, without events; its generations in the checkpoint flash stay (R566). -/
def State.discardJob (s : State) (j : Nat) : State :=
  let spans := s.jobSpans j
  let s := (s.stopJob j).cancelWaits j
  let s := { s with active := s.active.filter (fun a => a.job != j), governor := spans.foldl (fun g (a : ActiveSpan) => mdel g a.corner) s.governor }
  let s := (((s.flows.map Prod.fst).filter fun f => s.flowJob f == j)).foldl State.closeFlow s
  let s := (List.range 1024).foldl (fun s ch => if s.chanJob ch = j then s.setFld (fbCcfg ch) 45 1 0 else s) s
  let s := (List.range 256).foldl (fun s k => if s.fld (nwSpan k) 32 6 = j then s.setFld (nwSpan k) 29 1 0 else s) s
  let s := s.setReg (fbJobpol j) (regReset (fbJobpol j))
  (s.setJob j { Job.reset with gens := (s.job j).gens }).ckShow j

/-- A non-secure host queue goes back to its reset values, disabled. -/
def State.clearQueue (s : State) (q : Nat) : State :=
  let s := [hqCfg q, hqDt q, hqCq q, hqPtr q].foldl (fun s a => s.setReg a (regReset a)) s
  { s with hqs := mdel s.hqs q }

/-- Non-secure registers of the HI block outside its queues. -/
def hiNonSecure : List Nat :=
  [evRingReg, evPtr, logRingReg, logPtr] ++ (List.range 16).map hiViol ++ (List.range 4).map fun (n : Nat) => 0x8100200200 + 8 * n

/-- What a function-level reset does at its start: it discards the non-secure jobs and every orphaned one (R478), disables the non-secure
queues and rings, record rings among them, and so on; the zeroing of memory ends with FLR_COMPLETE. -/
def State.flrStart (s : State) : State :=
  let open_ := (List.range 64).filter fun j => j != 0 && !s.jobSecure j
  let jobs := (List.range 64).filter fun j => j != 0 && (!s.jobSecure j || (s.job j).holds.contains .orphaned)
  let queues := (List.range 256).filter fun q => !s.hqSecure q
  let s := jobs.foldl State.discardJob s
  let s := queues.foldl State.clearQueue s
  let s := open_.foldl (fun s j => s.setFld (fwSrring j) 50 1 0) s
  let s := hiNonSecure.foldl (fun s a => s.setReg a (regReset a)) s
  let s := { s with lease := .none, eventRing := RingState.reset, logRing := RingState.reset, pendRecs := [] }
  let s := ((List.range 1024).filter fun c => s.hasCore c && !s.coreSecure c).foldl State.resetCore s
  { s.setFld fwStatus 5 1 1 with
      firm := { s.firm with flrPending := false, resetsDue := s.firm.resetsDue.filter s.coreSecure } }

/-- FW_FLR.GO; it waits while keeper restarts (R569). -/
def State.flrWrite (s : State) (v : Reg) : State :=
  if !bitOf v.toNat 0 || s.flrRuns then s
  else if s.roleUp 0 then s.flrStart
  else { s with firm := { s.firm with flrPending := true } }

def execFunctionLevelReset (sec : Bool) (v : BitVec 64) (s : State) : Answer :=
  done (s.onWrite sec 0x8100900018 fun s => s.flrWrite v)

/-- Memory with every non-secure region of device memory zeroed. -/
def State.zeroNonSecure (s : State) : State :=
  let keep := fun (a : Nat) => decide (fwBase ≤ a) || s.regionSecure a
  { s with mem := { bytes := s.mem.bytes.filter fun e => keep e.1, poison := s.mem.poison.filter fun g => keep (g * 32) },
           hidden := s.hidden.filter fun g => keep (g * 32) }

def execFlrComplete (s : State) : Answer :=
  if s.flrRuns then .next (s.zeroNonSecure.setFld fwStatus 5 1 0) else .next s

/-! ## Warm and power-on resets (R566, R569, R570) -/

def pmResetcause : Nat := 0x8100100010

/-- A warm or power-on reset: everything goes to its reset state but fuses, boot flash and checkpoint flash. The commands that
wait are not the device's, and neither are its inputs. PM_PCAP starts at the part number's TDP. -/
def State.deviceReset (s : State) : State :=
  let gens := (s.jobs.filter fun e => !e.2.gens.isEmpty).map fun e => (e.1, { Job.reset with gens := e.2.gens })
  let f := s.firm
  let t : State :=
    { State.reset with
        pending := s.pending, ticks := s.ticks, freeCtr := s.freeCtr, jobs := gens, fuses := s.fuses,
        power := { s.power with rails := false, temps := s.power.temps.map fun t => (t.1, true) },
        firm := { Firm.reset with flash := f.flash, history := f.history, saved := f.saved },
        width := s.partWidth }
  t.setFld 0x8100100020 0 16 s.partTdp

/-- Whether the inputs that the device senses let it start (R7), and RST_N is high. -/
def Power.good (p : Power) : Bool := p.rstN && p.refOk && p.lock && (p.vin == .ok) && !p.tripped && !p.rstIgnored

/-- Release from reset: the die rails come up and start-up stage 0 begins (R551, R610). -/
def State.releaseReset (s : State) : State := { s with power := { s.power with rails := s.power.good } }

/-- A reset with its cause; one whose cause has passed already is released at once. -/
def State.resetWith (s : State) (cause : Nat) : State := (s.deviceReset.setFld pmResetcause 0 2 cause).releaseReset

/-- What the dies hold is lost with their supply: as a warm reset, the recorded cause standing (R598, R602; log 19). -/
def State.powerLost (s : State) : State := s.resetWith (s.fld pmResetcause 0 2)

/-- Start-up begins again from stage 0 without a reset (R538, R557): as a warm reset, the recorded cause standing; FW_PROCp.RESTARTS
counts on, since the last power-on (Table: FW_PROC), and with it what WINDOW measures from (R572). -/
def State.startAgain (s : State) : State :=
  let t := (List.range 6).foldl (fun t p => t.setFld (fwProc p) 5 16 (s.fld (fwProc p) 5 16)) s.powerLost
  { t with firm := { t.firm with crashTick := s.firm.crashTick, restartTick := s.firm.restartTick } }

end Sys2Proof.Machine
end

