-- ==== Sys2Proof/Machine/Worlds.lean ====
section
/-! DEFINITION. Worlds of blocks and regions, and fence requests (09_memory R314 to R320; 15 R485; 17 R573). -/

namespace Sys2Proof.Machine

open Sys2Proof

/-- Whether start-up has completed (R556). -/
def State.complete? (s : State) : Bool := s.fld fwStatus 8 1 = 1

/-- SW_REGION0 to SW_WFL. -/
def isWorldReg (a : Nat) : Bool := decide (0x8100600000 ≤ a) && decide (a < 0x8100604408)

/-- SW_SCRUB: whether a zeroing runs, and its region or the last one's. -/
def State.showScrub (s : State) : State :=
  match s.zeroing with
  | r :: _ => s.setReg swScrub (BitVec.ofNat 64 (1 + 2 * r))
  | [] => s.setFld swScrub 0 1 0

/-- A write of SW_REGIONn. A region made secure is so at once; one made non-secure keeps its entry until it is zeroed (R319). -/
def State.regionWrite (s : State) (n : Nat) (v : Reg) : State :=
  let old := s.reg (swRegion n)
  let new := (s.storeReg true (swRegion n) v).reg (swRegion n)
  let regions := fun (x : Reg) => ((List.range 64).filter fun b => x.getLsbD b).map fun b => 64 * n + b
  let leaving := (regions (old &&& ~~~new)).filter fun r => !s.zeroing.contains r
  let kept := s.zeroing.filter fun r => !(regions new).contains r
  ({ s.setReg (swRegion n) (old ||| new) with zeroing := kept ++ leaving } : State).showScrub

/-- A secure write of a world or region register; ignored while keeper restarts (R573). -/
def State.worldWrite (s : State) (a : Nat) (v : Reg) : State :=
  if !s.roleUp 0 then s
  else if a < 0x8100604000 then s.regionWrite ((a - 0x8100600000) / 8) v
  else s.storeReg true a v

def execSwRegionWrite (sec : Bool) (addr : Nat) (v : BitVec 64) (s : State) : Answer :=
  if isWorldReg addr then .next (s.onWrite sec addr fun s => s.worldWrite addr v) else .next s

/-- The zeroing of the first region in line ends and its change takes effect (R319). -/
def execRegionZeroingComplete (s : State) : Answer :=
  match s.zeroing with
  | [] => .next s
  | r :: rest =>
    let outside := fun (a : Nat) => a / 0x200000 != r
    let mem : Mem := { bytes := s.mem.bytes.filter fun e => outside e.1, poison := s.mem.poison.filter fun g => outside (g * 32) }
    let s := s.setFld (swRegion (r / 64)) (r % 64) 1 0
    .next ({ s with mem := mem, hidden := s.hidden.filter fun g => outside (g * 32), zeroing := rest } : State).showScrub

def nwFencereq : Nat := 0x8100B00010

/-- NW_FENCEREQ.GO: the core behind a logical ID becomes suspect with reason 7 (R485). -/
def State.fencereqWrite (s : State) (v : Reg) : State :=
  let c := bitsOf v.toNat 0 10
  if bitOf v.toNat 10 && s.hasCore c then s.makeSuspect (s.physOf c) 7 else s

def execNwFencereq (sec : Bool) (v : BitVec 64) (s : State) : Answer :=
  .next (s.onWrite sec nwFencereq fun s => s.fencereqWrite v)

end Sys2Proof.Machine
end

