-- ==== Sys2Proof/Machine/Image.lean ====
section
/-! DEFINITION. The firmware image: its checks, recovery mode, and the update in service (17_bringup_firmware R531 to R542). The
cryptographic functions are free (log 7). -/

namespace Sys2Proof.Machine

open Sys2Proof

/-! ## How ROM reads the boot flash (R532; the layout of the tables is JEDEC's: PRESUMED, log 69) -/

/-- Clock of the boot flash in MHz. -/
def flashClock : Nat := 50

/-- Little-endian number of `n` bytes of the flash's SFDP space. -/
def sfdpField (b : Nat → Byte) (a n : Nat) : Nat := leNat ((List.range n).map fun (i : Nat) => b (a + i))

/-- Address and length in words of the Basic Flash Parameter Table that the SFDP header lists: the last of its kind. -/
def sfdpBasic (b : Nat → Byte) : Option (Nat × Nat) :=
  if sfdpField b 0 4 ≠ 0x50444653 then none
  else
    (((List.range (sfdpField b 6 1 + 1)).map fun (i : Nat) => 8 + 8 * i).filter fun h =>
        sfdpField b h 1 = 0 && (sfdpField b (h + 7) 1 = 0xFF || sfdpField b (h + 7) 1 = 0)).getLast?.map fun h =>
      (sfdpField b (h + 4) 3, sfdpField b (h + 3) 1)

/-- The mode that the table gives: 4-byte addresses, the fastest read that it declares with its dummy cycles, the erase sizes. -/
def flashModeOf (b : Nat → Byte) (base words : Nat) : FlashMode :=
  let w := fun (k : Nat) => if k ≤ words then sfdpField b (base + 4 * (k - 1)) 4 else 0
  let bits := fun (k i n : Nat) => w k / 2 ^ i % 2 ^ n
  let erases := [(8, 0), (8, 16), (9, 0), (9, 16)].filterMap fun x =>
    if bits x.1 x.2 8 = 0 then none else some (2 ^ bits x.1 x.2 8, bits x.1 (x.2 + 8) 8)
  let (read, opcode, dummy) :=
    if bits 1 21 1 = 1 then (.quadIo, bits 3 8 8, bits 3 0 5 + bits 3 5 3)
    else if bits 1 22 1 = 1 then (.quadOutput, bits 3 24 8, bits 3 16 5 + bits 3 21 3)
    else (.single, 0x0B, 8)
  { fourByte := decide (bits 1 17 2 = 1) || decide (bits 1 17 2 = 2), enter := bits 16 24 8, read := read, opcode := opcode,
    dummy := dummy, erases := erases }

/-- ROM reads the SFDP header and the Basic Flash Parameter Table, and no other table. -/
def State.readTables (s : State) : State :=
  let mode := (sfdpBasic Config.sfdp).map fun t => flashModeOf Config.sfdp t.1 t.2
  { s with firm := { s.firm with flashMode := mode } }

/-! ## The image check (R533, R534) -/

def imageHeader : Nat := 4096

/-- A byte of the boot flash; an unlisted one is erased (log 4). -/
def flashByte (m : Map Byte) (a : Nat) : Byte := mget m 0xFF a

/-- Boot flash with bytes programmed from an address; erased bytes are not listed. -/
def flashPut (m : Map Byte) (a : Nat) (d : List Byte) : Map Byte :=
  let cells := (d.zipIdx a).filterMap fun x => if x.1 = 0xFF then none else some (x.2, x.1)
  m.takeWhile (fun e => e.1 < a) ++ (cells ++ m.dropWhile fun e => e.1 < a + d.length)

/-- Boot flash with a range erased. -/
def flashErase (m : Map Byte) (a n : Nat) : Map Byte := m.filter fun e => !(a ≤ e.1 && e.1 < a + n)

/-- Bytes of an image. -/
def imageBytes (b : Nat → Byte) (o n : Nat) : List Byte := (List.range n).map fun (i : Nat) => b (o + i)

def imageField (b : Nat → Byte) (o n : Nat) : Nat := leNat (imageBytes b o n)

def imageSvn (b : Nat → Byte) : Nat := imageField b 8 4
def imageBody (b : Nat → Byte) : Nat := imageField b 12 4

/-- Offset and length of the first component of a kind. -/
def imageComponent (b : Nat → Byte) (kind : Nat) : Option (Nat × Nat) :=
  match (List.range 8).find? (fun i => imageField b (256 + 16 * i) 1 = kind) with
  | some i => some (imageField b (256 + 16 * i + 4) 4, imageField b (256 + 16 * i + 8) 4)
  | none => none

/-- Whether the component table has each kind 0 to 5, and every component of these kinds lies inside the body; kinds 6 to 255 are
ignored. -/
def imageTableGood (b : Nat → Byte) : Bool :=
  ((List.range 6).all fun k => (imageComponent b k).isSome) &&
    (List.range 8).all fun i => decide (6 ≤ imageField b (256 + 16 * i) 1) ||
      decide (imageField b (256 + 16 * i + 4) 4 + imageField b (256 + 16 * i + 8) 4 ≤ imageBody b)

/-- Table: Image check reasons. An erased header has its own reason and is told first (R541). -/
def imageReason (b : Nat → Byte) (keyhash rollback : Nat) : Nat :=
  if (List.range imageHeader).all fun i => b i == 0xFF then 6
  else if imageField b 0 4 ≠ 0x5A4D5449 ∨ imageField b 4 4 ≠ 1 ∨ imageBody b = 0 ∨ 50327552 < imageBody b ∨ 64 < imageSvn b then 1
  else if Config.sha384 (imageBytes b 64 96) ≠ keyhash then 2
  else if !Config.imageSignatureGood (imageBytes b 64 96) (imageBytes b 160 48) (imageBytes b 208 48)
      (Config.sha384 (imageBytes b 0 160)) then 3
  else if digestBytes (Config.sha384 (imageBytes b imageHeader (imageBody b))) ≠ imageBytes b 16 48 then 4
  else if imageSvn b < rollback then 5
  else if !imageTableGood b then 7
  else 0

/-- The reason that the image in the boot flash gives. -/
def State.flashReason (s : State) : Nat := imageReason (flashByte s.firm.flash) s.fuses.keyhash s.fuses.rollback

/-! ## Recovery mode (R537, R538) -/

def flRecovctl : Nat := 0x8100A00100
def flRecovstat : Nat := 0x8100A00108
def flRecovbuf : Nat := 0x8100A10000

/-- ROM enters recovery mode: only the host port is brought up, with cold limits. -/
def State.enterRecovery (s : State) (reason : Nat) : State :=
  let s := (s.setFld flRecovstat 0 2 1).setFld flRecovstat 2 4 reason
  let s := { s with firm := { s.firm with recovery := true, inRom := true } }
  if s.portMode 8 = psOff && s.portEnabled 8 then s.portStart 8 false else s

/-- WRITE: the range is erased, and with it the header, which ROM writes last; its bytes are held back. -/
def State.recovWrite (s : State) : State :=
  let f := s.firm
  let header := f.recov.getD (imageBytes (flashByte f.flash) 0 imageHeader)
  let flash := flashErase (flashErase f.flash 0 imageHeader) (s.fld flRecovctl 0 26) (s.fld flRecovctl 26 17)
  { s.setFld flRecovstat 0 2 2 with firm := { f with recov := some header, flash := flash } }

/-- FINISH: the header is written and the image checked; start-up begins again, or recovery goes on with the new reason. -/
def State.recovFinish (s : State) : State :=
  let f := s.firm
  let s := match f.recov with
    | some h => { s with firm := { f with recov := none, flash := flashPut f.flash 0 h } }
    | none => s
  if s.flashReason = 0 then s.startAgain else s.setFld flRecovstat 2 4 s.flashReason

/-- A write of FL_RECOVCTL; its triggers act while ROM waits (Table: FL_RECOVCTL). -/
def State.recovctlWrite (s : State) (sec : Bool) (v : Reg) : State :=
  let s := s.storeReg sec flRecovctl v
  let s := if bitOf v.toNat 43 && s.fld flRecovstat 0 2 = 1 then s.recovWrite else s
  if bitOf v.toNat 44 && s.fld flRecovstat 0 2 = 1 then s.recovFinish else s

def execRecoveryWrite (sec : Bool) (v : BitVec 64) (s : State) : Answer :=
  .next (s.onWrite sec flRecovctl fun s => s.recovctlWrite sec v)

def execRecoveryFinish (sec : Bool) (v : BitVec 64) (s : State) : Answer :=
  .next (s.onWrite sec flRecovctl fun s => s.recovctlWrite sec v)

/-- Bytes of FL_RECOVBUF. -/
def State.recovBytes (s : State) (n : Nat) : List Byte :=
  (List.range n).map fun (i : Nat) => BitVec.ofNat 8 ((s.reg (flRecovbuf + 8 * (i / 8))).toNat / 2 ^ (8 * (i % 8)))

/-- A range has been programmed; the part of it in the header is still held back. -/
def execRecoveryWriteDone (s : State) : Answer :=
  if s.fld flRecovstat 0 2 = 2 then
    let o := s.fld flRecovctl 0 26
    let d := s.recovBytes (s.fld flRecovctl 26 17)
    let f := s.firm
    let h := f.recov.getD []
    let head := if o < imageHeader then h.take o ++ (d.take (imageHeader - o) ++ h.drop (o + d.length)) else h
    let rest := imageHeader - o
    let flash := flashPut f.flash (o + rest) (d.drop rest)
    .next { s.setFld flRecovstat 0 2 1 with firm := { f with recov := some head, flash := flash } }
  else .next s

/-! ## Update in service (R540 to R542) -/

def fwUpdate : Nat := 0x8100900028
def fwUpdlen : Nat := 0x8100900030
def fwUpdstat : Nat := 0x8100900038

/-- Keeper copies the image into firmware data. -/
def State.copyImage (s : State) : State :=
  let (d, _, s) := s.devRead true (s.fld fwUpdate 0 40) (s.fld fwUpdlen 0 26)
  { s with firm := { s.firm with updating := d } }

/-- FW_UPDLEN: GO starts an update, unless one runs (R541); it waits while keeper restarts (R574). -/
def State.updlenWrite (s : State) (sec : Bool) (v : Reg) : State :=
  let s := s.storeReg sec fwUpdlen v
  let st := s.fld fwUpdstat 0 3
  if bitOf v.toNat 26 && st != 1 && st != 2 then
    let s := (s.setFld fwUpdstat 0 3 1).setFld fwUpdstat 3 4 0
    if s.keeperUp then s.copyImage else { s with firm := { s.firm with updating := [] } }
  else s

def execImageUpdateGo (sec : Bool) (v : BitVec 64) (s : State) : Answer :=
  .next (s.onWrite sec fwUpdlen fun s => s.updlenWrite sec v)

/-- The reason that the copy gives. -/
def State.copyReason (s : State) : Nat := imageReason (fun a => s.firm.updating.getD a 0) s.fuses.keyhash s.fuses.rollback

/-- Keeper has checked the copy: it refuses it, the boot flash untouched, or erases the header and begins to write. -/
def execImageUpdateChecked (s : State) : Answer :=
  if s.keeperUp && s.fld fwUpdstat 0 3 = 1 then
    let s := if s.firm.updating.isEmpty then s.copyImage else s
    if s.copyReason = 0 then
      .next { s.setFld fwUpdstat 0 3 2 with firm := { s.firm with flash := flashErase s.firm.flash 0 imageHeader } }
    else .next ((s.setFld fwUpdstat 0 3 4).setFld fwUpdstat 3 4 s.copyReason)
  else .next s

/-- Keeper has written body and header. -/
def execImageUpdateWritten (s : State) : Answer :=
  if s.keeperUp && s.fld fwUpdstat 0 3 = 2 then
    .next { s.setFld fwUpdstat 0 3 3 with firm := { s.firm with flash := flashPut s.firm.flash 0 s.firm.updating, updating := [] } }
  else .next s

end Sys2Proof.Machine
end

