-- ==== Sys2Proof/Machine/Keeper.lean ====
section
/-! DEFINITION. Settings that the host requests through keeper (17_bringup_firmware R547 to R550; 12 R416). -/

namespace Sys2Proof.Machine

open Sys2Proof

def fwKaddr : Nat := 0x8100900048
def fwKdata : Nat := 0x8100900050
def fwKtoken : Nat := 0x8100900058
def fwKctl : Nat := 0x8100900060

/-- Flows whose STATE is not closed: open, stalled and isolated ones (R548). -/
def State.openFlows (s : State) : List Nat := (s.flows.map Prod.fst).filter fun f => s.flowState f != 0

/-- The bits that keeper admits of a register (Table: Settings made through keeper). -/
def keeperMask (a : Nat) : Option Nat :=
  if regDesc a = none then none
  else if 0x8100200100 ≤ a ∧ a < 0x8100200140 then some (2 ^ 40 - 1)
  else if a = hiVpolicy ∨ a = 0x8100200008 then some (2 ^ 16 - 1)
  else if a = fbCfg then some (2 ^ 12 - 1)
  else if a = fbProfile then some (2 ^ 64 - 1)
  else if 0x8100302000 ≤ a ∧ a < 0x8100302800 then some (2 ^ 64 - 1)
  else if 0x8100304000 ≤ a ∧ a < 0x810030C000 then some (2 ^ 13 - 1)
  else if 0x8100301000 ≤ a ∧ a < 0x8100301900 ∧ a % 0x100 = 0 then some (2 ^ 9 - 1)
  else if a = 0x8100100028 then some (2 ^ 20 - 1)
  else if a = 0x8100B00008 then some (2 ^ 48 - 1)
  else if a = nwFencereq then some (2 ^ 11 - 1)
  else if isWorldReg a then some (2 ^ 64 - 1)
  else none

/-- The value that keeper writes: the admitted bits of the request, the others as they are. -/
def State.keeperValue (s : State) (a : Nat) (v : Reg) : Reg :=
  let m := BitVec.ofNat 64 ((keeperMask a).getD 0)
  (s.reg a &&& ~~~m) ||| (v &&& m)

/-- Whether the secure world is in use: a job of it has an active span, an open flow or an enabled host queue (R549). -/
def State.secureBusy (s : State) : Bool :=
  s.active.any (fun a => s.jobSecure a.job || s.hqSecure a.hq) ||
    s.openFlows.any (fun f => s.flowSecure f || s.jobSecure (s.flowJob f)) ||
    (List.range 256).any fun q => s.hqSecure q && hqEnabled s q

/-- The fabric port on which a flow's frames leave: none when they stay on the module or have no route; the host port carries no flows
(R390, R406). -/
def State.firstHop (s : State) (f : Nat) : Option Nat :=
  let dst := s.rankAddr (s.peerRank f)
  let p := (s.flowPort2 f).getD (s.route dst)
  if dst = s.selfAddr ∨ 8 ≤ p then none else some p

/-- World bits that a request clears. -/
def State.worldCleared (s : State) (a : Nat) (v : Reg) : Reg := s.reg a &&& ~~~v

/-- The REASON that refuses a request, 0 for none (R548, R549). -/
def State.keeperRefusal (s : State) (a : Nat) (v : Reg) : Nat :=
  let token := if s.firm.token = 0 then 1 else s.firm.token
  let held := match s.lease with | .held t => t == token | _ => false
  let secureOpen := s.openFlows.filter s.flowSecure
  let port := (a - 0x8100301000) / 0x100
  if !held then 1
  else if keeperMask a = none then 2
  else if a = fbCfg then (if s.openFlows.isEmpty then 0 else 3)
  else if a = fbProfile ∨ (0x8100302000 ≤ a ∧ a < 0x8100302800) then (if secureOpen.isEmpty then 0 else 3)
  else if 0x8100304000 ≤ a ∧ a < 0x810030C000 then
    (if secureOpen.any (fun f => s.peerRank f = (a - 0x8100304000) / 8) then 3 else 0)
  else if 0x8100301000 ≤ a ∧ a < 0x8100301900 then
    (if secureOpen.any (fun f => s.firstHop f = some port) then 3 else 0)
  else if a = nwFencereq then (if s.coreSecure (bitsOf v.toNat 0 10) then 3 else 0)
  else if isWorldReg a then (if s.worldCleared a v ≠ 0 ∧ s.secureBusy then 4 else 0)
  else 0

def State.keeperState (s : State) (st reason : Nat) : State := (s.setFld fwKctl 1 2 st).setFld fwKctl 3 4 reason

def isRankmapReg (a : Nat) : Bool := decide (0x8100304000 ≤ a) && decide (a < 0x810030C000)
def isRegionReg (a : Nat) : Bool := decide (0x8100600000 ≤ a) && decide (a < 0x8100604000)

/-- Keeper checks the request that waits for it. A region's zeroing begins with the admission; a rank map entry goes to the
pilot (R550). -/
def State.keeperCheck (s : State) : State :=
  match s.firm.keeper with
  | none => s
  | some w =>
    if w.admitted || !s.keeperUp then s
    else
      let r := s.keeperRefusal w.addr w.value
      if r ≠ 0 then { s.keeperState 3 r with firm := { s.firm with keeper := none } }
      else
        let rank := if isRankmapReg w.addr then some ((w.addr - 0x8100304000) / 8) else none
        let s := { s with firm := { s.firm with keeper := some { w with admitted := true, waitRank := rank } } }
        if isRegionReg w.addr then s.worldWrite w.addr w.value else s

/-- FW_KCTL.GO submits a request, unless one is busy (R547). -/
def State.kctlWrite (s : State) (v : Reg) : State :=
  if !bitOf v.toNat 0 || s.fld fwKctl 1 2 = 1 then s
  else
    let w : KeeperWork := { addr := s.fld fwKaddr 0 40, value := s.reg fwKdata, admitted := false, waitRank := none, resets := [] }
    ({ s.keeperState 1 0 with firm := { s.firm with keeper := some w } } : State).keeperCheck

def execKeeperRequest (sec : Bool) (v : BitVec 64) (s : State) : Answer :=
  .next (s.onWrite sec fwKctl fun s => s.kctlWrite v)

/-- Numbers of the blocks whose bits a word of world bits clears; `n` is the word's index. -/
def clearedBlocks (n : Nat) (v : Reg) : List Nat := ((List.range 64).filter fun b => v.getLsbD b).map fun b => 64 * n + b

/-- A core that leaves the secure world is reset, and its pond and instruction memory are zeroed (R549). -/
def State.scrubCore (s : State) (c : Nat) : State :=
  if s.hasCore c then (s.coreReset c).modCore c fun k => { k with pond := Mem.reset, imem := [] } else s

/-- The secure contents that keeper removes before cleared world bits take effect (R549). -/
def State.worldScrub (s : State) (a : Nat) (v : Reg) : State :=
  let gone := s.worldCleared a v
  if a < 0x8100604000 then s
  else if a < 0x8100604080 then (clearedBlocks ((a - 0x8100604000) / 8) gone).foldl State.scrubCore s
  else if a < 0x8100604100 then s
  else if a < 0x8100604200 then (clearedBlocks ((a - 0x8100604100) / 8) gone).foldl (fun s q => s.setFld (hqCfg q) 59 1 0) s
  else if a < 0x8100604400 then (clearedBlocks ((a - 0x8100604200) / 8) gone).foldl State.closeFlow s
  else if gone = 0 then s
  else { s with jobs := s.jobs.map fun e => (e.1, { e.2 with gens := e.2.gens.filter fun g => !g.secure }) }

/-- Keeper's secure write of an admitted request. -/
def State.keeperApply (s : State) (w : KeeperWork) : State :=
  let v := s.keeperValue w.addr w.value
  if isRegionReg w.addr then s
  else if isWorldReg w.addr then (s.worldScrub w.addr v).worldWrite w.addr v
  else if w.addr = fbProfile then s.profileWrite true v
  else if 0x8100301000 ≤ w.addr ∧ w.addr < 0x8100301900 then s.pctlWrite true ((w.addr - 0x8100301000) / 0x100) v
  else if w.addr = nwFencereq then s.fencereqWrite v
  else s.storeReg true w.addr v

/-- Whether the zeroing that a request began still runs. -/
def State.regionBusy (s : State) (a : Nat) : Bool := isRegionReg a && s.zeroing.any fun r => r / 64 == (a - 0x8100600000) / 8

/-- Keeper finishes an admitted request: STATE 2. A rank map entry is finished by RANK_REMAP_APPLY. -/
def execKeeperRequestDone (s : State) : Answer :=
  match s.firm.keeper with
  | none => .next s
  | some w =>
    if w.admitted && w.waitRank.isNone && s.keeperUp && !s.regionBusy w.addr then
      let s := s.keeperApply w
      done (({ s with firm := { s.firm with keeper := none } } : State).keeperState 2 0)
    else .next s

/-- The pilot changes a rank map entry once every flow to the rank is closed, or has been reset since the request (R416, R550); keeper,
which answers the request, is up (R548). -/
def execRankRemapApply (rank : Nat) (s : State) : Answer :=
  match s.firm.keeper with
  | none => .next s
  | some w =>
    if w.waitRank = some rank && s.roleUp 1 && s.keeperUp &&
        (s.openFlows.all fun f => s.peerRank f != rank || (s.flowState f = 1 && w.resets.contains f)) then
      let s := { s with firm := { s.firm with keeper := none } }
      done ((s.rankmapWrite true rank (s.keeperValue w.addr w.value)).keeperState 2 0)
    else .next s

end Sys2Proof.Machine
end

