-- ==== Sys2Proof/Machine/Spdm.lean ====
section
/-! DEFINITION. The SPDM responder's answers (14_host_interface R481, R482; 17 R539, R543 to R546). The formats of SPDM stand in
another document: a reply is held as its kind and what the spec says of its content; codes and request layouts are those of DMTF
DSP0274 1.3 (PRESUMED, log 70); signatures are free (log 7). -/

namespace Sys2Proof.Machine

open Sys2Proof

/-- The certificate chain that the boot flash holds (Table: Boot flash layout). -/
def State.certChain (s : State) : List Byte := imageBytes (flashByte s.firm.flash) 0x3210000 0x10000

/-- The measurements that an index asks for: one of 1 to 4, 0 for their number alone, 255 for all. -/
def State.measured (s : State) (index : Nat) : Option (List Nat) :=
  if index = 0 then some []
  else if index = 255 then some s.firm.measurements
  else if index ≤ 4 then some ((s.firm.measurements.drop (index - 1)).take 1)
  else none

/-- The reply to a request. ROM in recovery mode answers Busy (R539); measurements are Busy before start-up completes, and the
signature covers nonce and values (R546); slot 0 is the one slot. -/
def State.spdmReply (s : State) (r : SpdmRequest) : SpdmReply :=
  if s.firm.recovery then .errorBusy
  else
    match r with
    | .version => .version
    | .capabilities => .capabilities
    | .algorithms => .algorithms
    | .digests => .digests (digestBytes (Config.sha384 s.certChain))
    | .certificate slot off len => if slot = 0 ∧ off < 0x10000 then .certificate ((s.certChain.drop off).take len) else .errorInvalid
    | .challenge slot nonce => if slot = 0 then .challengeAuth nonce (Config.identitySignature nonce) else .errorInvalid
    | .measurements index signed nonce =>
      if !s.complete? then .errorBusy
      else
        match s.measured index with
        | none => .errorInvalid
        | some vs =>
          .measurements index vs nonce (if signed then some (Config.identitySignature (nonce ++ vs.flatMap digestBytes)) else none)
    | .other _ => .errorUnsupported

/-- The capability flags of the responder: CERT_CAP (bit 1), CHAL_CAP (bit 2) and measurements with signature (bits 4 and 3); every
other one, of key exchange, secured sessions, pre-shared keys and mutual authentication, is 0 (R482). Bit places are those of DSP0274
(PRESUMED, log 70). -/
def spdmFlags : Nat := 0x16

/-- Code of a reply's message and what it carries: for GET_VERSION version 1.3, for GET_CAPABILITIES the flags, for
NEGOTIATE_ALGORITHMS the one signature algorithm, ECDSA P-384, and the one hash, SHA-384 (R482). -/
def SpdmReply.content : SpdmReply → Nat × List Byte
  | .version => (0x04, leBytes 2 0x1300)
  | .capabilities => (0x61, leBytes 4 spdmFlags)
  | .algorithms => (0x63, leBytes 4 0x80 ++ leBytes 4 0x02)
  | .digests d => (0x01, d)
  | .certificate d => (0x02, d)
  | .challengeAuth n sig => (0x03, n ++ leBytes 96 sig)
  | .measurements i vs n sig => (0x60, leBytes 1 i ++ (vs.flatMap digestBytes ++ (n ++ match sig with | some x => leBytes 96 x | none => [])))
  | .errorInvalid => (0x7F, [1])
  | .errorBusy => (0x7F, [3])
  | .errorUnsupported => (0x7F, [7])

/-- The message of a reply: version of SPDM, code, and the rest as the other document has it; at most 4,096 bytes. -/
def SpdmReply.message (r : SpdmReply) : List Byte :=
  let (code, d) := r.content
  leBytes 1 (if code = 0x04 then 0x10 else 0x13) ++ (leBytes 1 code ++ (Config.spdmBody code d).take 4094)

/-- The fragments of a message: up to 236 bytes each, the first and the last marked (Table: Management fragments). -/
def fragments (kind : Nat) (first : Bool) : Nat → List Byte → List HFlit
  | 0, _ => []
  | n + 1, m =>
    let d := m.take 236
    let rest := m.drop 236
    let flags := bitNat first + 2 * bitNat rest.isEmpty
    { hflitBlank with type := 8, len := BitVec.ofNat 13 (4 + d.length),
                      payload := leBytes 1 kind ++ (leBytes 1 flags ++ (leBytes 2 d.length ++ d)) } ::
      (if rest.isEmpty then [] else fragments kind false n rest)

/-- A request is answered: the reply leaves in management flits (R481). -/
def State.spdmAnswer (s : State) (r : SpdmRequest) : State :=
  let y := s.spdmReply r
  let s := { s with firm := { s.firm with replies := s.firm.replies ++ [y] } }
  (fragments 1 true 18 y.message).foldl State.hostSend s

/-- Keeper, or ROM in recovery mode, answers the requests in line; they wait while keeper restarts (R481, R539). -/
def State.spdmServe (s : State) : State :=
  if s.firm.recovery || s.keeperUp then
    s.firm.asked.foldl State.spdmAnswer { s with firm := { s.firm with asked := [] } }
  else s

/-- A request arrives. -/
def State.spdmAsk (s : State) (r : SpdmRequest) : State :=
  ({ s with firm := { s.firm with asked := s.firm.asked ++ [r] } } : State).spdmServe

/-- The request that the bytes of a message spell. -/
def spdmRequest (m : List Byte) : SpdmRequest :=
  let b := fun (i n : Nat) => leNat ((m.drop i).take n)
  let code := b 1 1
  if code = 0x84 then .version
  else if code = 0xE1 then .capabilities
  else if code = 0xE3 then .algorithms
  else if code = 0x81 then .digests
  else if code = 0x82 then .certificate (b 2 1 % 16) (b 4 2) (b 6 2)
  else if code = 0x83 then .challenge (b 2 1 % 16) ((m.drop 4).take 32)
  else if code = 0xE0 then .measurements (b 3 1) (b 2 1 % 2 = 1) ((m.drop 4).take 32)
  else .other code

end Sys2Proof.Machine
end

