-- ==== Sys2Proof/Machine/Crash.lean ====
section
/-! DEFINITION. Firmware processors that crash and restart, and what waits for their roles (17_bringup_firmware R557, R571 to R574;
02 R50 to R52). -/

namespace Sys2Proof.Machine

open Sys2Proof

def State.procRole (s : State) (p : Nat) : Nat := s.fld (fwProc p) 0 3
def State.procState (s : State) (p : Nat) : Nat := s.fld (fwProc p) 3 2

/-- A running processor crashes (R571). A crash of keeper during start-up starts it again from stage 0 (R557); in service ROM
restarts keeper (R573). -/
def State.crash (s : State) (p : Nat) : State :=
  if 6 ≤ p || !s.power.rails || s.procState p ≠ 0 || s.procRole p = 6 then s
  else
    let s := { s with firm := { s.firm with crashLosses := mput s.firm.crashLosses p s.firm.losses,
                                            crashTick := mput s.firm.crashTick p s.ticks } }
    if s.procRole p ≠ 0 then s.setFld (fwProc p) 3 2 1
    else if s.complete? then { s.setFld (fwProc p) 3 2 1 with firm := { s.firm with inRom := true } }
    else
      let n := s.fld (fwProc p) 5 16
      s.startAgain.setFld (fwProc p) 5 16 (satAdd 16 n 1)

def execWatchdogExpiry (fp : Nat) (s : State) : Answer := .next (s.crash fp)
def execProcessorCrash (fp : Nat) (s : State) : Answer := .next (s.crash fp)

/-! ## The duties that waited (Table: Effects of a role restart) -/

def State.allJobs (s : State) : List Nat := s.jobs.map Prod.fst

/-- Keeper: seals, the function-level reset, the setting request, an update's copy. -/
def State.keeperBack (s : State) : State :=
  let s := s.allJobs.foldl (fun s j => s.flushRecords j (s.job j).records.length) s
  let s := if s.firm.flrPending then s.flrStart else s
  let s := s.keeperCheck.spdmServe
  if s.fld fwUpdstat 0 3 = 1 && s.firm.updating.isEmpty then s.copyImage else s

/-- Pilot: routes to rebuild, ports that wait to train, ports that hold their traffic. -/
def State.pilotBack (s : State) : State :=
  let s := if s.firm.reroute then { s.rebuildRoutes with firm := { s.rebuildRoutes.firm with reroute := false } } else s
  let ports := s.firm.defer
  let s := { s with firm := { s.firm with defer := [] } }
  let s := ports.foldl State.retrain s
  if s.complete? then
    (List.range 9).foldl (fun s p => if s.portMode p = psOff && s.portEnabled p then s.portStart p false else s) s
  else s.nextPort

/-- Scribe: events, step records, checkpoints. -/
def State.scribeBack (s : State) : State :=
  let s := s.drainPending
  s.allJobs.foldl (fun s j =>
    let s := s.flushRecords j (s.job j).records.length
    match (s.job j).ck with
    | .idle => if (s.job j).holds.contains .checkpoint then s.ckBegin j else s
    | .partnerCopy _ => ((s.ckFlows j).filter fun f => s.flowState f = 2).foldl (fun s f => s.ckStalled f) s
    | .restoring .. => ((s.ckFlows j).filter fun f => s.flowState f = 2).foldl (fun s f => s.ckStalled f) s
    | .restoreAsked step op => s.restoreBegin j op step
    | _ => s) s

/-- EV_CORE_FENCED, naming the logical position before the shift (R492). -/
def State.postFenced (s : State) (p reason : Nat) : State :=
  s.post { (devHead 0x40 3) with core := s.logicalOf p } [(4, reason)]

/-- The jobs on the module: those with an active span or a live flow, ascending. -/
def State.moduleJobs (s : State) : List Nat :=
  ((s.flows.map Prod.fst).filter s.flowLive).foldl (fun l f => insertNat l (s.flowJob f)) s.activeJobs

/-- A router failure: every job on the module is killed, NW_CAPACITY.FAILED, EV_CORE_FENCED with reason 5 (R488). The kind that the
kills carry is not stated: a free value among those that R322 uses (log 6). -/
def State.routerFailure (s : State) (p : Nat) : State :=
  let (v, s) := s.freeVal 4
  let kind := v % 9
  let s := s.setFld nwCapacity 24 1 1
  let s := s.postFenced p 5
  s.moduleJobs.foldl (fun s j => s.kill j kind none 0 0) s

/-- The steward takes a router failure, when it is back (R574). -/
def State.routerFails (s : State) (p : Nat) : State :=
  if s.roleUp 2 then s.routerFailure p
  else { s with firm := { s.firm with routersDue := insertNat s.firm.routersDue p } }

/-- Steward: router failures, resets. -/
def State.stewardBack (s : State) : State :=
  let ps := s.firm.routersDue
  let s := { s with firm := { s.firm with routersDue := [] } }
  (ps.foldl State.routerFailure s).runResets

/-- Dispatcher: step aborts and completions. -/
def State.dispatcherBack (s : State) : State :=
  let s := s.allJobs.foldl (fun s j =>
    match (s.job j).abortDue with
    | some (blame, marker) => (s.modJob j fun x => { x with abortDue := none }).abortJob j blame marker
    | none =>
      match (s.job j).exchange with
      | some e => if e.mismatch && e.t + 1 = e.n then s.parkExchange j 0x1000 else s
      | none => s) s
  (s.hqs.map Prod.fst).foldl (fun s q => s.cqFlush q (s.hq q).pendingCpl.length) s

/-- The duties of a role that returns. Fences and kills wait in their own commands. -/
def State.roleBack (s : State) (r : Nat) : State :=
  if r = 0 then s.keeperBack
  else if r = 1 then s.pilotBack
  else if r = 2 then s.stewardBack
  else if r = 3 then s.scribeBack
  else if r = 4 then s.dispatcherBack
  else s

/-- EV_FW_RESTART (R572); its gap field tells whether an event was dropped since the processor crashed (R473). -/
def State.postRestart (s : State) (p r : Nat) (moved : Bool) : State :=
  let gap := decide (mget s.firm.crashLosses s.firm.losses p ≠ s.firm.losses)
  s.post (devHead 0x42 5) [(3, p), (3, r), (1, bitNat moved), (1, bitNat gap)]

/-- The stage in progress starts again from its beginning (R557). -/
def State.restartStage (s : State) : State :=
  let st := s.fld fwStatus 0 3
  if st = 2 then { s with firm := { s.firm with wave := 0, poweredStacks := 0, banks := 0 } }
  else if st = 3 then { s with firm := { s.firm with bistTicks := 0 }, governor := [] }
  else if st = 5 then { s with firm := { s.firm with tested := [] } }
  else if st = 6 then
    ((List.range 9).foldl (fun s p => (s.portDark p psOff).modPort p fun x => { x with firstAttemptDone := false }) s).nextPort
  else s

/-- Whether a processor's last crash came within FW_WDCFG.WINDOW seconds of its last restart (R572); the core clock ticks at 1 GHz
(R58). -/
def State.crashedAgain (s : State) (fp : Nat) : Bool :=
  match s.firm.restartTick.find? (fun e => e.1 == fp) with
  | some e => decide (mget s.firm.crashTick 0 fp ≤ e.2 + s.fld 0x8100900010 8 8 * 10 ^ 9)
  | none => false

/-- Whether the copy of a role's component has the digest of the loaded image (R572). -/
def State.copyGood (s : State) (r : Nat) : Bool := (s.firm.copies[r]?).map Config.sha384 == s.firm.loaded[r]?

/-- A processor runs again from its component's copy. -/
def State.restarted (s : State) (p : Nat) : State :=
  { s.setFld (fwProc p) 3 2 0 with firm := { s.firm with restartTick := mput s.firm.restartTick p s.ticks } }

/-- Keeper, or ROM before it has started keeper, has restarted a crashed processor (R572), unless its role moves to FP5: when the
restart's self-test failed, which a copy that fails its digest counts as (log 37), or when the processor crashed again within WINDOW
seconds of its last restart. -/
def execFwRestartComplete (fp : Nat) (ok : Bool) (s : State) : Answer :=
  let r := s.procRole fp
  if 6 ≤ fp || s.procState fp ≠ 1 || r = 0 || (s.complete? && !s.keeperUp) then .next s
  else
    let ok := ok && s.copyGood r
    let spare := decide (fp < 5) && s.procRole 5 = 5 && s.procState 5 = 0
    if spare && (!ok || s.crashedAgain fp) then
      let s := (s.setFld (fwProc fp) 0 3 6).setFld (fwProc fp) 3 2 2
      let s := s.setFld (fwProc 5) 0 3 r
      let s := (s.postRestart fp r true).roleBack r
      done (if s.complete? then s else s.restartStage)
    else
      let s := s.satFld (fwProc fp) 5 16 1
      if !ok then .next s
      else
        let s := ((s.restarted fp).postRestart fp r false).roleBack r
        done (if s.complete? then s else s.restartStage)

/-- ROM has restarted keeper (R573): the image is checked as at boot, or during an update the checked copy (R542). -/
def execKeeperRomRestartComplete (s : State) : Answer :=
  match (List.range 6).find? (fun p => s.procRole p = 0 && s.procState p = 1) with
  | none => .next s
  | some p =>
    let reason := if s.fld fwUpdstat 0 3 = 2 then s.copyReason else s.flashReason
    if s.firm.recovery then .next s
    else if reason ≠ 0 then .next (s.enterRecovery reason).spdmServe
    else
      let s := (s.restarted p).satFld (fwProc p) 5 16 1
      let s := { s with firm := { s.firm with inRom := false } }
      done ((s.postRestart p 0 false).roleBack 0)

end Sys2Proof.Machine
end

