-- ==== Sys2Proof/Machine/Startup.lean ====
section
/-! DEFINITION. Resets from the inputs and the stages of start-up (17_bringup_firmware R535, R536, R545, R551 to R566; 18 R594; 19 R598,
R600 to R602, R610, R611). -/

namespace Sys2Proof.Machine

open Sys2Proof

/-! ## Inputs -/

/-- A change of the inputs. -/
def State.modPower (s : State) (f : Power → Power) : State := { s with power := f s.power }

/-- Current and power of the input change with the rails and the voltage; what the blades measure until the next evaluation only a free
value tells (R596; log 6). -/
def State.drawReads (s : State) : State :=
  let (i, s) := s.freeVal 16
  let (w, s) := s.freeVal 16
  s.modPower fun p => { p with iin := BitVec.ofNat 16 i, pin := BitVec.ofNat 16 w }

/-- The input voltage reads from `lo` on, below `lo + n`, in units of 10 mV (R596, R598). -/
def State.inputReads (s : State) (lo n : Nat) : State :=
  let (v, s) := s.freeVal 16
  (s.modPower fun p => { p with vinMv := BitVec.ofNat 16 (lo + v % n) }).drawReads

/-- VIN rises through 39.0 V: a power-on reset. THERMTRIP_N is released with it (R600). The device holds in reset until VIN is at 40.0 V
(R7, R598), and after a trip until VIN has been below 36.0 V (R602). -/
def execPowerOnReset (s : State) : Answer :=
  .next (((s.modPower fun p => { p with vin := .low, tripped := false }).inputReads 3900 100).resetWith 0)

/-- RST_N falls: a warm reset, held while it is low. After a thermal trip the device ignores RST_N, whose level stands, until VIN has
been below 36.0 V (R602). -/
def execRstNAssert (s : State) : Answer :=
  if !s.power.rstN then .next s
  else
    let s := s.modPower fun p => { p with rstN := false }
    if s.power.rstIgnored then .next s else .next (s.drawReads.resetWith 1)

/-- RST_N rises: the straps are sampled, and start-up begins when the inputs allow it (R586, R601, R7). -/
def execRstNDeassert (feed slot : Nat) (s : State) : Answer :=
  if s.power.rstN then .next s
  else if s.power.rstIgnored then .next (s.modPower fun p => { p with rstN := true })
  else
    .next ((s.modPower fun p =>
      { p with rstN := true, feedId := BitVec.ofNat 4 feed, slotId := BitVec.ofNat 6 slot }).drawReads.releaseReset)

/-- VIN stays below 40.0 V for more than 100 µs: a warm reset with cause 3, held (R594, R598). -/
def execVinLowTimeout (s : State) : Answer :=
  if s.power.vin = .ok ∨ s.power.vin = .low then 
    .next (((s.modPower fun p => { p with vin := .low }).inputReads 3600 400).resetWith 3)
  else .next s

def execVinRestored (s : State) : Answer :=
  if s.power.vin = .low then .next (((s.modPower fun p => { p with vin := .ok }).inputReads 4000 1001).releaseReset) else .next s

/-- VIN falls below 36.0 V: every die rail goes off, and what the dies hold is lost (R598, R611). RST_N acts again after a trip (R602). -/
def execVinBelow36 (s : State) : Answer :=
  if s.power.vin = .ok ∨ s.power.vin = .low then
    .next (((s.modPower fun p => { p with vin := .below36, rstIgnored := false }).inputReads 0 3600).powerLost)
  else .next s

/-- REFCLK is lost, or the PLL has lost lock for more than 10 µs: a warm reset with cause 2, held; which of the two it is, a
free value tells (R594, log 6). -/
def execRefclkLoss (s : State) : Answer :=
  if s.power.lock then
    let (v, s) := s.freeVal 1
    .next ((s.modPower fun p => { p with lock := false, refOk := v = 1 }).drawReads.resetWith 2)
  else .next s

def execRefclkRestored (s : State) : Answer :=
  if s.power.lock then .next s
  else .next ((s.modPower fun p => { p with lock := true, refOk := true }).drawReads.releaseReset)

/-- The junction reaches 115 °C: every die rail goes off, THERMTRIP_N is low from now on (R62, R602). -/
def execThermalTrip (s : State) : Answer :=
  if s.power.tripped || !s.power.rails then .next s
  else .next ((s.modPower fun p => { p with tripped := true, rstIgnored := true }).drawReads.powerLost)

/-! ## Stages -/

def State.stage (s : State) : Nat := s.fld fwStatus 0 3

/-- Whether a stage is in progress: it stands while a processor restarts, and then begins anew (R557). -/
def State.inStage (s : State) (k : Nat) : Bool :=
  s.power.rails && !s.complete? && s.stage = k && !s.firm.recovery && (List.range 6).all fun p => s.procState p != 1

def State.toStage (s : State) (k : Nat) : State := s.setFld fwStatus 0 3 k

/-- Whether the device is held in ROM, two processors having failed (R536). -/
def State.heldInRom (s : State) : Bool := decide (2 ≤ s.firm.fpFailed.length)

def State.fastStart (s : State) : Bool := s.fld fwStatus 3 1 = 1

/-- Stage 0: processors that failed their self-test or that FU_FPBAD marks are failed; FP5 takes the role of one (R536). The
start is fast when the saved settings are good and the temperature lies within 15 °C of theirs (R559). -/
def execFirmwareSelfTestDone (failed : List Bool) (temp : Nat) (s : State) : Answer :=
  if !s.inStage 0 || s.heldInRom then .next s
  else
    let bad := (List.range 6).filter fun p => failed.getD p false || s.fuses.fpbad.contains p
    let s := { s with firm := { s.firm with fpFailed := bad, startTemp := temp } }
    let s := bad.foldl (fun s p => (s.setFld (fwProc p) 0 3 6).setFld (fwProc p) 3 2 2) s
    if s.heldInRom then .next s
    else
      let s := bad.foldl (fun s p => if p < 5 then s.setFld (fwProc 5) 0 3 p else s) s
      let fast := match s.savedNow with
        | some a => decide (a.temp - 15 ≤ temp) && decide ((temp : Int) ≤ a.temp + 15)
        | none => false
      .next (((s.setFld fwStatus 6 1 (bitNat s.savedNow.isSome)).setFld fwStatus 3 1 (bitNat fast)).toStage 1)

/-- Bytes of a component. -/
def componentBytes (b : Nat → Byte) (kind : Nat) : List Byte :=
  match imageComponent b kind with
  | some (o, n) => imageBytes b (imageHeader + o) n
  | none => []

/-- The image passes its check: what was measured and copied is kept, and start-up goes on to stage 2 (R534, R545, R572). -/
def State.imageLoaded (s : State) : State :=
  let b := flashByte s.firm.flash
  let ms := [Config.sha384 (s.fuses.romver :: Config.romPatch), Config.sha384 ((List.range 5).flatMap (componentBytes b)),
             Config.sha384 (componentBytes b 5)]
  let parts := (List.range 6).map (componentBytes b)
  let s := { s with firm := { s.firm with inRom := false, measurements := ms, copies := parts, loaded := parts.map Config.sha384 } }
  (s.setFld fwStatus 16 7 (imageSvn b)).toStage 2

/-- Stage 1: ROM reads the flash's parameter tables (R532), the image is checked and loaded, measurements 1 to 3 are taken (R534, R545), or ROM enters recovery mode (R537). -/
def execImageCheckDone (s : State) : Answer :=
  if !s.inStage 1 then .next s
  else
    let s := s.readTables
    if s.flashReason ≠ 0 then .next (s.enterRecovery s.flashReason).spdmServe
    else .next s.imageLoaded.spdmServe

/-- Stage 2: wave `k` powers two physical rows (R552). -/
def execPowerWave (k : Nat) (s : State) : Answer :=
  if s.inStage 2 && k = s.firm.wave && k < 16 then .next { s with firm := { s.firm with wave := k + 1 } } else .next s

/-- Stacks follow the waves, in ascending order (R553). -/
def execStackPowerUp (k : Nat) (s : State) : Answer :=
  if s.inStage 2 && s.firm.wave = 16 && k = s.firm.poweredStacks && k < 8 then .next { s with firm := { s.firm with poweredStacks := k + 1 } }
  else .next s

/-- The banks in the order of R553: host port, then fabric ports; those of ABSENT ports are not powered (R5). -/
def State.bankOrder (s : State) : List Nat := 8 :: (List.range 8).filter s.portPresent

def execLaserBankPowerUp (p : Nat) (s : State) : Answer :=
  if s.inStage 2 && s.firm.poweredStacks = 8 && s.bankOrder[s.firm.banks]? = some p then
    let s := { s.bankUp p with firm := { s.firm with banks := s.firm.banks + 1 } }
    .next (if s.firm.banks = s.bankOrder.length then s.toStage 3 else s)
  else .next s

/-- Stage 3: the cores that failed BIST are fenced for this start; one that failed at the previous start too is to be written to the
in-field bank, while it has room, and then this start's failures to the start history (R562 to R564). -/
def execBistDone (failures : List Nat) (s : State) : Answer :=
  if !s.inStage 3 then .next s
  else
    let now := (failures.filter fun p => p < 1152 && !s.fuses.marks p).foldl insertNat []
    let before := s.firm.lastFailures
    let twice := (now.filter fun p => before.contains p).take (64 - s.fuses.infield.length)
    let s := now.foldl (fun s p => s.setSil p 0 (BitVec.ofNat 64 (6 * 2 ^ 40 + 2 ^ 44))) s
    let s := { s with firm := { s.firm with bist := now, bistTicks := 0 }, governor := [] }
    let s := s.addWrites ((twice.flatMap fun p => [.infieldId p, .infieldValid p]) ++ [.historyBody now, .historyCrc])
    .next (s.toStage 4)

/-- Stage 4: every stack is trained; in a fast start one that failed from its saved values has been trained cold (R560). -/
def execHbmTrainingDone (failedSaved : List Nat) (s : State) : Answer :=
  if !s.inStage 4 then .next s
  else .next ((if s.fastStart && !failedSaved.isEmpty then s.setFld fwStatus 4 1 1 else s).toStage 5)

/-- Stage 5: a controller has tested its stack; pages and pseudo-channels that it could not repair are retired and spared before
any job starts (R304, R555). The stack is trained and tested. When all have ended, the pilot begins with the host port (R554). -/
def execMemoryTestDone (mc : Nat) (pages : List Nat) (pchs : List Nat) (uncorr : Nat) (s : State) : Answer :=
  if !s.inStage 5 || 8 ≤ mc || s.firm.tested.contains mc then .next s
  else
    let s := if s.fastStart && 16 < uncorr then s.setFld fwStatus 4 1 1 else s
    let s := (pages.filter fun k => k / 65536 < 32).foldl (fun s k => s.retirePage mc (k / 65536) (k % 65536)) s
    let s := (pchs.filter fun k => k < 32).foldl (fun s k => s.sparePch mc k) s
    let s := s.setFld (mcReg mc 0) 0 1 1
    let s : State := { s with firm := { s.firm with tested := insertNat s.firm.tested mc } }
    .next (if s.firm.tested.length = 8 then (s.toStage 6).nextPort else s)

/-- Stage 6 ends when every enabled port has reached ACTIVE or failed its first attempt. -/
def execOpticalTuningDone (s : State) : Answer :=
  if s.inStage 6 && (List.range 9).all (fun p => !s.portEnabled p || (s.port p).firstAttemptDone) then .next (s.toStage 7)
  else .next s

/-- The block of measurement 4 (Table: Measurements). -/
def State.configBlock (s : State) : List Byte :=
  leBytes 8 (s.regValue 0x8100700000).toNat ++ leBytes 1 s.fuses.rollback ++ leBytes 4 (s.fld fwStatus 16 7) ++
    leBytes 1 (s.fld fwStatus 3 1) ++ leBytes 1 s.power.feedId.toNat ++ leBytes 1 s.power.slotId.toNat ++ leBytes 16 0

/-- Whether every enabled port is ACTIVE at full width (R561). -/
def State.allPortsFull (s : State) : Bool :=
  (List.range 9).all fun p => !s.portEnabled p || (s.portState p = psActive && s.fld (fbPstate p) 4 5 = fullLanes p &&
    s.fld (fbPstate p) 9 5 = fullLanes p)

/-- The logical width: the part number's, or the smallest number of usable cores of a row (R494). -/
def State.startWidth (s : State) : Nat := (List.range 32).foldl (fun m y => min m (s.usable y).length) s.partWidth

/-- The settings that keeper is to save: a value for each of 128 HBM channels, and for each direction of the 136 lanes; what training
found is free (R558; log 36). -/
def State.saveSettings (s : State) : State :=
  let (hbm, s) := s.freeVals 64 128
  let (heaters, s) := s.freeVals 64 272
  let (bias, s) := s.freeVals 64 272
  let (taps, s) := s.freeVals 64 272
  s.addWrites [.savedBody { hbm := hbm, heaters := heaters, bias := bias, taps := taps, crc := none, temp := s.tmax, serial := s.fuses.serial },
    .savedCrc]

/-- Stage 7 ends: row maps, the sync block, measurement 4 and EV_START_COMPLETE; keeper goes on to write the saved settings of a full
cold start and the anti-rollback counter (R535, R545, R551, R556, R561). The flash is initialised; its spare blocks are a free value (log 6). -/
def execStartupComplete (s : State) : Answer :=
  if !s.inStage 7 then .next s
  else
    let s := { s with width := s.startWidth }
    let s := s.setFld 0x8100800000 0 1 1
    let (n, s) := s.freeVal 16
    let s := ((s.setFld flStatus 0 1 1).setFld flStatus 16 16 n).checkSpare
    let s := { s with firm := { s.firm with measurements := s.firm.measurements ++ [Config.sha384 s.configBlock] } }
    let s := if !s.fastStart && s.allPortsFull then s.saveSettings else s
    let s := s.setFld fwStatus 8 1 1
    let s := if s.fuses.rollback < s.fld fwStatus 16 7 then s.addWrites [.rollback (s.fld fwStatus 16 7)] else s
    .next (s.post (devHead 0x60 2) [(1, s.fld fwStatus 3 1), (11, 1152 - s.fencedCount)])

end Sys2Proof.Machine
end

