-- ==== Sys2Proof/Machine/Supply.lean ====
section
/-! DEFINITION. The governor, the thermal throttle, the power cap and the SMBus target (15_faults_sparing R501 to R504; 18 R590 to R593;
19 R604, R605). -/

namespace Sys2Proof.Machine

open Sys2Proof

/-! ## The current-step governor -/

/-- Serves a span that ramps. -/
def govServe (allow : List Nat) (x : State × List Nat) (a : ActiveSpan) : State × List Nat :=
  govUnit a.corner a.railCores false allow x

/-- Serves a core under self-test in interval `t` of stage 3 (R552). -/
def govTest (t : Nat) (allow : List Nat) (x : State × List Nat) (p : Nat) : State × List Nat :=
  govUnit (2048 + p) (fun r => if r = p / 144 then 1 else 0) (bistStart p = t) allow x

/-- Units in ascending order of their corner's ID. -/
def insertUnit (a : ActiveSpan) : List ActiveSpan → List ActiveSpan
  | [] => [a]
  | b :: l => if a.y0 * 32 + a.x0 < b.y0 * 32 + b.x0 then a :: b :: l else b :: insertUnit a l

/-- Cores under self-test that wake or ramp in the interval. -/
def State.testUnits (s : State) : List Nat :=
  let t := s.firm.bistTicks
  (List.range 1152).filter fun p => (s.underTest p && decide (s.bistN p < 16)) ||
    (decide (bistStart p = t) && !s.fuses.marks p)

/-- An interval of stage 3: the cores under self-test are the units (R552). -/
def State.testInterval (s : State) (loads allow : List Nat) : State :=
  let (u, _) := s.testUnits.foldl (govTest s.firm.bistTicks allow) (s, loads)
  { u with firm := { u.firm with bistTicks := s.firm.bistTicks + 1 } }

/-- One interval of the governor (R502 to R504): the current at the end of the one before gives its allowance. -/
def execGovernorInterval (s : State) : Answer :=
  let loads := s.railLoads
  let s := { s with power := { s.power with railEnd := loads } }
  let allow := s.allowance
  if s.testing then .next (s.testInterval loads allow)
  else
    let units := (s.active.filter fun a => a.running && decide (s.govN a < 16)).foldr insertUnit []
    .next ((units.foldl (govServe allow) (s, loads)).1.applyStretch)

/-! ## Thermal throttle and power cap -/

/-- PM_THERM_CFG. -/
def pmThermCfg : Nat := 0x8100100028

/-- EV_THERMAL_THROTTLE when the setting has changed (R593). -/
def State.postThrottle (s : State) (mode old : Nat) : State :=
  let n := s.fld pmStatus (5 * mode) 5
  if n = old then s else s.post (devHead 0x46 2) [(1, mode), (8, s.tmax), (5, n)]

/-- The thermal request (R590, R591): engaged flag and n, from the sensors and the last request. -/
def State.thermRequest (s : State) : Bool × Nat :=
  let thr := s.fld pmThermCfg 0 8
  let hyst := s.fld pmThermCfg 8 4
  let t := s.tmax
  if !s.power.temps.any Prod.snd then (true, 2)
  else if thr ≤ t then (true, max 2 (16 - 2 * (t - thr + 1)))
  else if t ≤ thr - hyst then (false, 16)
  else (s.fld pmStatus 10 1 = 1, s.fld pmStatus 0 5)

/-- Sensor readings; one outside 0 to 150 °C is invalid and takes no further part. The stacks' temperatures, which are reported only,
are free values (R590; log 6). -/
def State.sense (s : State) (temps : List Int) : State :=
  let new := (List.range 16).map fun i =>
    let (old, ok) := s.power.temps.getD i (0, true)
    let t := temps.getD i old
    (t, ok && decide (0 ≤ t) && decide (t ≤ 150))
  let (hbm, s) := s.freeVals 8 8
  { s with power := { s.power with temps := new, hbmTemps := hbm } }

/-- The evaluation of each millisecond (R591): request, alert, event. Without a valid sensor the alert keeps its state. -/
def execThermalEvaluation (temps : List Int) (s : State) : Answer :=
  if !s.power.rails then .next s
  else
    let s := s.sense temps
    let old := s.fld pmStatus 0 5
    let (on, n) := s.thermRequest
    let s := (s.setFld pmStatus 0 5 n).setFld pmStatus 10 1 (bitNat on)
    let s := if s.power.temps.any Prod.snd then s.setFld pmStatus 12 1 (bitNat (s.fld pmThermCfg 12 8 ≤ s.tmax)) else s
    .next ((s.postThrottle 0 old).applyStretch)

/-- The power cap's n after an evaluation (R592): ENABLE 0 releases it. -/
def State.capRequest (s : State) (pin : Nat) : Nat :=
  let watts := s.fld 0x8100100020 0 16
  let n := s.fld pmStatus 5 5
  if s.fld 0x8100100020 16 1 = 0 then 16
  else if watts < pin then max 2 (n - 1)
  else if pin * 100 < watts * 95 then min 16 (n + 1)
  else n

/-- An evaluation: the blades measure whether or not the die rails are up (R596); the cap acts while they are. -/
def execPowerCapEvaluation (vin iin pin : Nat) (s : State) : Answer :=
  let s := { s with power := { s.power with vinMv := BitVec.ofNat 16 vin, iin := BitVec.ofNat 16 iin, pin := BitVec.ofNat 16 pin } }
  if !s.power.rails then .next s
  else
    let old := s.fld pmStatus 5 5
    let n := s.capRequest (pin % 65536)
    let s := (s.setFld pmStatus 5 5 n).setFld pmStatus 11 1 (bitNat (n < 16))
    .next ((s.postThrottle 1 old).applyStretch)

/-! ## SMBus (R604, R605) -/

/-- The target answers while the standby rail runs. -/
def State.smbusUp (s : State) : Bool := s.power.vin == .ok || s.power.vin == .low

/-- The CRC-8 of SMBus 3.2 over a message, polynomial x^8 + x^2 + x + 1 (PRESUMED from the standard, log 40). -/
def crc8 (m : List Byte) : Byte :=
  m.foldl (fun v b => (List.range 8).foldl (fun v _ => if v.getLsbD 7 then (v <<< 1) ^^^ 0x07#8 else v <<< 1) (v ^^^ b)) 0

/-- An answer on the bus, with the packet error code over the bytes before it and its own; nothing while the target has no supply. -/
def State.smbusAnswer (s : State) (before d : List Byte) : Answer :=
  if s.smbusUp then .next { s with firm := { s.firm with smbus := some d, smbusPec := some (crc8 (before ++ d)) } } else .next s

/-- The answer to a Read Byte or Read Word of a code: address 0x4A for writing, the code, the address for reading (R604, R605). -/
def State.smbusRead (s : State) (code : Byte) (d : List Byte) : Answer := s.smbusAnswer [0x94, code, 0x95] d

/-- Code 0x00, a Block Read: a byte count goes before the 16 bytes. -/
def execSmbusReadIdentity (s : State) : Answer :=
  s.smbusAnswer [0x94, 0x00, 0x95, 16] (leBytes 8 (s.liveId 0) ++ leBytes 8 (s.liveId 2))

/-! ## Output contacts (R600) -/

/-- PWRGD is released while every die rail is up. -/
def State.pwrgd (s : State) : Bool := s.power.rails

/-- THERMTRIP_N is low from a thermal trip until the next power-on reset. -/
def State.thermtripLow (s : State) : Bool := s.power.tripped

/-- An SMBus alert is pending while ALERT_TEMP is 1 (R605). -/
def State.smbusAlert (s : State) : Bool := s.fld pmStatus 12 1 = 1

/-- ALERT_N is low while ALERT_TEMP is 1, while the device is held in ROM (R536), or while an SMBus alert is pending. -/
def State.alertLow (s : State) : Bool := s.smbusAlert || s.heldInRom

/-- Whether the device is in reset. -/
def State.inReset (s : State) : Bool := !s.power.good

/-- Code 0x01. -/
def State.smbusStatus (s : State) : Nat :=
  packAt [(0, 1, bitNat s.pwrgd), (1, 1, bitNat s.inReset), (2, 1, s.fld pmStatus 12 1), (3, 1, bitNat s.thermtripLow),
          (4, 3, s.stage), (7, 1, bitNat s.complete?)]

def execSmbusReadStatus (s : State) : Answer := s.smbusRead 1 (leBytes 2 s.smbusStatus)
def execSmbusReadTmax (s : State) : Answer := s.smbusRead 2 (leBytes 2 (if s.power.rails then s.tmax % 256 else 0xFFFF))
def execSmbusReadVin (s : State) : Answer := s.smbusRead 3 (leBytes 2 s.power.vinMv.toNat)
def execSmbusReadIin (s : State) : Answer := s.smbusRead 4 (leBytes 2 s.power.iin.toNat)
def execSmbusReadPin (s : State) : Answer := s.smbusRead 5 (leBytes 2 s.power.pin.toNat)
def execSmbusReadResetcause (s : State) : Answer := s.smbusRead 6 (leBytes 1 (s.fld pmResetcause 0 2))
def execSmbusReadFeedId (s : State) : Answer := s.smbusRead 7 (leBytes 1 s.power.feedId.toNat)

/-- The Alert Response Address: the address 0x4A while the alert is pending. -/
def execSmbusAlertResponse (s : State) : Answer :=
  if s.smbusAlert then s.smbusAnswer [0x19] [0x4A] else .next s

/-- Another code, or a write: the command byte is NACKed, and nothing answers. -/
def execSmbusNack (code : Nat) (write : Bool) (s : State) : Answer :=
  if s.smbusUp && (write || decide (7 < code)) then
    .next { s with firm := { s.firm with smbus := none, smbusPec := none, smbusNacks := s.firm.smbusNacks + 1 } }
  else .next s

end Sys2Proof.Machine
end

