-- ==== Sys2Proof/Machine/Faults.lean ====
section
/-! DEFINITION. Row fences, mesh link errors, error decay, and the copies and scrub of the memory controllers (15_faults_sparing R484 to
R496; 09_memory R303 to R308). -/

namespace Sys2Proof.Machine

open Sys2Proof

/-! ## Row fences (R489 to R496) -/

/-- Whether a job counts as held for a row fence (R489). -/
def State.fenceHeld (s : State) (j : Nat) : Bool :=
  (s.job j).holds.any fun h => h == .fence || h == .killed || h == .orphaned || h == .parked

/-- The suspects of a row that one fence takes: the width falls by at most one column at each fence (R496). -/
def State.fenceTakes (s : State) (f : RowFence) : List Nat := f.fenced.take ((s.usable f.row).length + 1 - s.width)

/-- Jobs that a row fence waits for: those with a core in the row, or in the last column when the width falls. -/
def State.fenceJobs (s : State) (y : Nat) (narrow : Bool) : List Nat :=
  s.activeJobs.filter fun j => s.jobInRow j y || (narrow && s.jobInLast j)

/-- The steward begins to shift a row once every job that it concerns is held (R489, R491, R494). -/
def execRowFence (y : Nat) (s : State) : Answer :=
  match s.fences.find? (fun f => f.row == y && !f.shifting) with
  | none => .next s
  | some f =>
    let ps := s.fenceTakes f
    let narrow := s.fenceNarrows y ps
    let clash := s.fences.any fun g => g.shifting && g.row == y
    if !s.roleUp 2 || clash || !(s.fenceJobs y narrow).all s.fenceHeld then .next s
    else
      let left := f.fenced.filter fun p => !ps.contains p
      let now : RowFence := { row := y, shifting := true, fenced := ps, narrow := narrow }
      let later : List RowFence := if left.isEmpty then [] else [{ f with fenced := left }]
      .next { s with fences := (s.fences.filter fun g => !(g.row == y && !g.shifting)) ++ later ++ [now] }

/-- The descriptor caches of the columns that move are invalidated (Table: State moved by a row shift). The rest of a core's state
stands under its logical ID and moves with it; the registers of the silicon stand under the physical core. -/
def State.dropCaches (s : State) (y x : Nat) : State :=
  ((List.range 32).filter fun i => x ≤ i && i < s.width).foldl (fun s i => s.modCore (y * 32 + i) fun k => { k with dcache := [] }) s

/-- A logical core without a core behind it any more: its state is discarded (R495). -/
def State.forgetCore (s : State) (c : Nat) : State :=
  { s with cores := mdel s.cores c, regs := s.regs.filter fun e => !(cw c 0 ≤ e.1 && e.1 < cw (c + 1) 0), waiters := mdel s.waiters c }

/-- The launches of a job with a core in the last column complete with status 4 (R495). -/
def State.endNarrowed (s : State) (j : Nat) : State :=
  let spans := s.jobSpans j
  let s := s.stopJob j
  let s := spans.foldl (fun s a => s.endSpan a 4 (s.fld (vxStep (a.y0 * 32 + a.x0)) 0 48)) s
  s.modJob j fun x => { x with holds := x.holds.filter fun h => h != .fence, lapsing := false, lapseCk := false }

/-- The width falls by one column (R494, R495). -/
def State.narrowTo (s : State) (y : Nat) : State :=
  let w := s.width - 1
  let s := (s.activeJobs.filter s.jobInLast).foldl State.endNarrowed s
  let s := (List.range 32).foldl (fun s r => s.forgetCore (r * 32 + w)) s
  let s := { s with width := w }
  let s := (List.range 256).foldl (fun s k =>
    let (x, _, n, _) := s.spanRect k
    if w < x + n then s.setFld (nwSpan k) 29 1 0 else s) s
  s.post (devHead 0x41 3) [(6, w), (5, y)]

/-- Jobs that hold for a fence and need not any more resume at the entry of their next step (R490). -/
def State.fenceRelease (s : State) : State :=
  s.allJobs.foldl (fun s j => if (s.job j).holds.contains .fence && !s.fenceHolds j then s.dropHold j .fence else s) s

/-- The shift ends: the new map of the row applies (R491 to R495); resets that waited for it act (R568). Rows shift independently: the
width falls where the fence leaves the row fewer cores than the width then is. -/
def execRowShiftComplete (y : Nat) (s : State) : Answer :=
  match s.fences.find? (fun f => f.row == y && f.shifting) with
  | none => .next s
  | some f =>
    if !s.roleUp 2 then .next s
    else
      let narrow := f.narrow && s.fenceNarrows y f.fenced
      let s := f.fenced.foldl (fun s p => s.postFenced p (bitsOf (s.silReg p 0).toNat 40 4)) s
      let moved := (f.fenced.filterMap s.logicalOf).map fun c => c % 32
      let s := match moved with
        | [] => s
        | x :: xs => s.dropCaches y (xs.foldl min x)
      let s := { s with fences := s.fences.filter fun g => !(g.row == y && g.shifting), fencedField := f.fenced.foldl insertNat s.fencedField }
      let s := if narrow then s.narrowTo y else s
      done s.fenceRelease.runResets

/-! ## Mesh links (R484, R485, R488) -/

/-- Consecutive failures of the flits on the four links that a router receives on, a byte each, in register 3 of its silicon. On which
link a flit fails, and whether it follows a failure there, free values tell (log 6). Whether the link has reached 16. -/
def State.linkFails (s : State) (pc : Nat) : Bool × State :=
  let (v, s) := s.freeVal 3
  let at_ := 8 * (v / 2)
  let r := (s.silReg pc 3).toNat
  let run := if v % 2 = 1 then bitsOf r at_ 8 + 1 else 1
  (decide (16 ≤ run), s.setSil pc 3 (BitVec.ofNat 64 (setBitsOf r at_ 8 (run % 16))))

/-- A flit fails its parity and is resent: LINK of the receiving router's core; 16 consecutive failures on one link are a failure of
the router (R484, R488). -/
def execMeshLinkError (pc : Nat) (s : State) : Answer :=
  if 1152 ≤ pc then .next s
  else
    let s := s.satSil pc 0 16 16
    let s := if s.fld 0x8100B00008 16 16 ≤ bitsOf (s.silReg pc 0).toNat 16 16 then s.makeSuspect pc 4 else s
    let (fails, s) := s.linkFails pc
    if fails && s.fld nwCapacity 24 1 = 0 && !s.firm.routersDue.contains pc then done (s.routerFails pc) else .next s

/-- CE and LINK of every core are halved (R485); the steward does it. -/
def execErrorDecay (s : State) : Answer :=
  if !s.roleUp 2 then .next s
  else
    let halve := fun (v : Reg) => BitVec.ofNat 64 (setBitsOf (setBitsOf v.toNat 0 16 (bitsOf v.toNat 0 16 / 2)) 16 16 (bitsOf v.toNat 16 16 / 2))
    let ps := (s.silicon.filter fun e => e.1 % 4 == 0).map fun e => e.1 / 4
    .next (ps.foldl (fun s p => s.setSil p 0 (halve (s.silReg p 0))) s)

/-! ## Memory controllers (R303 to R308) -/

/-- A copy ends; MC_STATUS.COPYING follows. -/
def State.copyDone (s : State) (m : Nat) (x : McCopy) : State :=
  let c := s.mc m
  let rest := c.copies.erase x
  (s.setMc m { c with copies := rest }).setFld (mcReg m 0) 13 1 (bitNat (!rest.isEmpty))

/-- The copy of a retired page ends and the map switches: EV_PAGE_RETIRED. -/
def execPageRetiredCopyDone (mc : Nat) (s : State) : Answer :=
  match (s.mc mc).copies.find? (fun x => match x with | .page .. => true | _ => false) with
  | some (.page pch page) =>
    if mc < 8 then .next ((s.copyDone mc (.page pch page)).post (devHead 0x10 6) [(3, mc), (5, pch), (15, page)]) else .next s
  | _ => .next s

def execPchSpareCopyDone (mc : Nat) (s : State) : Answer :=
  match (s.mc mc).copies.find? (fun x => match x with | .pch _ => true | _ => false) with
  | some (.pch pch) =>
    if mc < 8 then .next ((s.copyDone mc (.pch pch)).post (devHead 0x11 6) [(3, mc), (5, pch)]) else .next s
  | _ => .next s

/-- A pass of the patrol scrub finds errors in its stack; it is no consumption (R308). -/
def execPatrolScrub (mc : Nat) (errs : List MemErr) (s : State) : Answer :=
  if mc < 8 then .next ((errs.filter (inStack mc)).foldl State.memError s) else .next s

end Sys2Proof.Machine
end

