-- ==== Sys2Proof/Machine/RegSpace.lean ====
section
/-! DEFINITION. Writes of any register, and core-window accesses (18_register_space R578 to R585; 09 R297, R298; 07 R249). -/

namespace Sys2Proof.Machine

open Sys2Proof

/-! ## One register -/

/-- The effect of an admitted write of a register: those that act have their own meaning, the others take their fields. -/
def State.writeEffect (s : State) (sec : Bool) (a : Nat) (v : Reg) : State :=
  if isWindow a then
    let c := winCore a
    let o := winOff a
    if 0x82500 ≤ o ∧ o < 0x82700 ∧ o % 16 = 0 then s.rvChanbaseWrite sec c ((o - 0x82500) / 16) v
    else if o = 0x82408 then s.rvStageWrite sec c v
    else s.storeReg sec a v
  else if isRingConfig a then s.ringConfigWrite sec a v
  else if a < 0x8100300000 then
    if a = 0x8100200010 then s.leaseWrite false v
    else if a = 0x8100200018 then s.leaseWrite true v
    else if a = evPtr then s.ringHeadWrite false (bitsOf v.toNat 0 24)
    else if a = logPtr then s.ringHeadWrite true (bitsOf v.toNat 0 24)
    else if 0x8100210000 ≤ a ∧ a % 32 = 0 then s.hqcfgWrite sec ((a - 0x8100210000) / 32) v
    else if 0x8100210000 ≤ a ∧ a % 32 = 24 then s.hqptrWrite ((a - 0x8100210000) / 32) v
    else s.storeReg sec a v
  else if a < 0x8100400000 then
    if a = fbProfile then s.profileWrite sec v
    else if 0x8100301000 ≤ a ∧ a < 0x8100301900 ∧ a % 0x100 = 0 then s.pctlWrite sec ((a - 0x8100301000) / 0x100) v
    else if isRankmapReg a then s.rankmapWrite sec ((a - 0x8100304000) / 8) v
    else if 0x8100314000 ≤ a then s.jobpolWrite sec ((a - 0x8100314000) / 8) v
    else s.storeReg sec a v
  else if isWorldReg a then s.worldWrite a v
  else if 0x8100900000 ≤ a ∧ a < 0x8100A00000 then
    if a = 0x8100900008 then (if bitOf v.toNat 0 then s.invalidate else s)
    else if a = 0x8100900018 then s.flrWrite v
    else if a = fwCorerst then s.corerstWrite sec v
    else if a = fwUpdlen then s.updlenWrite sec v
    else if a = slogPtr then s.slogptrWrite v
    else if a = fwKtoken then { s with firm := { s.firm with token := v } }
    else if a = fwKctl then s.kctlWrite v
    else if 0x8100908000 ≤ a ∧ a % 0x80 = 0x10 then s.srptrWrite ((a - 0x8100908000) / 0x80) v
    else if 0x8100908000 ≤ a ∧ a % 0x80 = 0x38 then s.ckctl ((a - 0x8100908000) / 0x80) v
    else s.storeReg sec a v
  else if a = flStatus then (s.storeReg sec a v).checkSpare
  else if a = flRecovctl then s.recovctlWrite sec v
  else if a = nwFencereq then s.fencereqWrite v
  else if 0x8300000000 ≤ a ∧ a < 0x8400000000 then
    let n := (a - 0x8300000000) / 64
    if a % 64 = 0 then s.syOcfgWrite sec n v else s.syOaddWrite n v
  else s.storeReg sec a v

/-- One write of one register (R579, R582). Only a counter's SY_OVAL can be written; it is admitted with its object. -/
def State.writeReg (s : State) (sec : Bool) (a : Nat) (v : Reg) : State :=
  if 0x8300000000 ≤ a ∧ a < 0x8300100000 ∧ a % 64 = 8 then
    s.onOval sec ((a - 0x8300000000) / 64) v
  else s.onWrite sec a fun s => s.writeEffect sec a v

def execRegisterWrite (sec : Bool) (addr : Nat) (v : BitVec 64) (s : State) : Answer := done (s.writeReg sec addr v)

/-! ## Core windows -/

/-- How an access to a core's window fares, registers apart (R45, R317, R585). -/
def State.windowAdmits (s : State) (sec write : Bool) (c : Nat) : Admit :=
  if !s.hasCore c then .reserved
  else if !sec && write && s.flrRuns then .ignored
  else if !sec && s.coreSecure c then .blocked
  else .ok

/-- A write of one instruction word, tagged with epoch 0 (R249). -/
def State.imemPut (s : State) (c idx : Nat) (w : Word) : State := s.modCore c fun k => { k with imem := mput k.imem idx (w, 0) }

def execCoreWindowImemWrite (sec : Bool) (c : Nat) (idx : Nat) (v : BitVec 32) (s : State) : Answer :=
  if 16384 ≤ idx then .next s
  else
    match s.windowAdmits sec true c with
    | .ok => .next (s.imemPut c idx v)
    | .blocked => .next s.blockAccess
    | _ => .next s

def pondBytes : Nat := 0x30000

/-- A write of pond bytes through the window (R298, R301); what runs past the pond falls on reserved space. -/
def State.windowPondPut (s : State) (c off : Nat) (d : List Byte) : State :=
  s.modCore c fun k => { k with pond := k.pond.write off (d.take (pondBytes - off)) }

/-- A core-window access to the pond: a read changes nothing, a write stores its bytes. -/
def execCoreWindowPondAccess (sec : Bool) (c : Nat) (off : Nat) (len : Nat) (wr : Option (List (BitVec 8))) (s : State) : Answer :=
  match s.windowAdmits sec wr.isSome c with
  | .blocked => .next s.blockAccess
  | .ok =>
    match wr with
    | some d => .next (if off < pondBytes then s.windowPondPut c off (d.take len) else s)
    | none => .next s
  | _ => .next s

/-! ## Accesses of the host to register space (R578, R579) -/

/-- The number of the instruction word at a window offset (R45). -/
def imemIndex (o : Nat) : Nat := (o - 0x40000) / 4

/-- The bytes of the two instruction words from a window offset. -/
def Core.imemUnit (k : Core) (o : Nat) : List Byte :=
  leBytes 4 (mget k.imem (0, 0) (imemIndex o)).1.toNat ++ leBytes 4 (mget k.imem (0, 0) (imemIndex o + 1)).1.toNat

/-- A non-secure read of one register, as bytes. -/
def State.unitReg (s : State) (u : Nat) : List Byte × Bool × State :=
  let r := s.regRead false u
  (leBytes 8 r.1.toNat, false, r.2)

/-- The bytes of one unit of a core's window that may be read. -/
def State.unitWindow (s : State) (u : Nat) : List Byte × Bool × State :=
  let o := winOff u
  let k := s.core (winCore u)
  if o < pondBytes then (k.pond.read o 8, k.pond.bad o, s)
  else if 0x40000 ≤ o ∧ o < 0x50000 then (k.imemUnit o, false, s)
  else s.unitReg u

/-- The bytes of one 8-byte unit of register space as a non-secure read returns them, and whether they carry poison. A secure
core's window reads zero; its count is the access's. -/
def State.unitRead (s : State) (u : Nat) : List Byte × Bool × State :=
  if isWindow u then
    if s.windowAdmits false false (winCore u) = .ok then s.unitWindow u else (leBytes 8 0, false, s)
  else s.unitReg u

/-- Units of a range, in ascending order. -/
def unitsOf (a n : Nat) : List Nat := if n = 0 then [] else (List.range ((a + n - 1) / 8 + 1 - a / 8)).map fun (i : Nat) => (a / 8 + i) * 8

/-- The cores whose windows some units touch. -/
def windowsIn (us : List Nat) : List Nat := (us.filter isWindow).foldl (fun l u => insertNat l (winCore u)) []

/-- The cores whose windows a range touches. -/
def windowsOf (a n : Nat) : List Nat := windowsIn (unitsOf a n)

/-- Whether a write of a unit is ignored for every world: a register all of whose fields are RO (R587). -/
def readOnlyUnit (u : Nat) : Bool := match regDesc u with | some d => !d.writable | none => false

/-- Counts one blocked access for each secure core whose window an access touches (R317). -/
def State.countWindows (s : State) (us : List Nat) : State :=
  ((windowsIn us).filter fun c => s.hasCore c && s.coreSecure c).foldl (fun s _ => s.blockAccess) s

/-- A read of register space: units in ascending order, each register read once. -/
def State.spaceRead (s : State) (a n : Nat) : List Byte × Bool × State :=
  let us := unitsOf a n
  let r := us.foldl (fun (x : List Byte × Bool × State) u =>
    let (d, b, t) := x.2.2.unitRead u
    (x.1 ++ d, x.2.1 || b, t)) ([], false, s)
  ((r.1.drop (a % 8)).take n, r.2.1, r.2.2.countWindows us)

/-- The parts of a write that fall on ponds. -/
def State.pondParts (s : State) (a : Nat) (d : List Byte) : State :=
  (windowsOf a d.length).foldl (fun s c =>
    let lo := max a (cw c 0)
    let hi := min (a + d.length) (cw c pondBytes)
    if lo < hi && s.windowAdmits false true c = .ok then s.windowPondPut c (lo - cw c 0) ((d.drop (lo - a)).take (hi - lo)) else s) s

/-- The instruction words that a write covers in full. -/
def State.imemParts (s : State) (a : Nat) (d : List Byte) : State :=
  (List.range (d.length / 4 + 2)).foldl (fun s i =>
    let w := (a / 4 + i) * 4
    if isWindow w && a ≤ w && w + 4 ≤ a + d.length && 0x40000 ≤ winOff w && winOff w < 0x50000 &&
        s.windowAdmits false true (winCore w) = .ok then
      s.imemPut (winCore w) (imemIndex (winOff w)) (BitVec.ofNat 32 (leNat ((d.drop (w - a)).take 4)))
    else s) s

/-- The registers that a write covers in full, in ascending order (R579). A secure core's window is counted once. -/
def State.regParts (s : State) (a : Nat) (d : List Byte) : State :=
  (unitsOf a d.length).foldl (fun s u =>
    let secret := isWindow u && s.coreSecure (winCore u)
    if a ≤ u && u + 8 ≤ a + d.length && !secret && !(isWindow u && winOff u < 0x80000) then
      s.writeReg false u (BitVec.ofNat 64 (leNat ((d.drop (u - a)).take 8)))
    else s) s

/-- A write of register space. -/
def State.spaceWrite (s : State) (a : Nat) (d : List Byte) : State :=
  (((s.pondParts a d).imemParts a d).regParts a d).countWindows ((unitsOf a d.length).filter fun u => !readOnlyUnit u)

end Sys2Proof.Machine
end

