-- ==== Sys2Proof/Machine/HostLink.lean ====
section
/-! DEFINITION. Flits from the host's adapter (14_host_interface R455 to R461, R479, R481; 18 R579, R585). -/

namespace Sys2Proof.Machine

open Sys2Proof

/-! ## Windows and accesses (R459, R460) -/

def hiWin (n : Nat) : Nat := 0x8100200100 + 8 * n

/-- Whether an access lies wholly inside an enabled window of its direction. -/
def State.inWindow (s : State) (a n : Nat) (write : Bool) : Bool :=
  (List.range 8).any fun i =>
    s.fld (hiWin i) (if write then 39 else 38) 1 = 1 && s.fld (hiWin i) 0 19 * 0x200000 ≤ a &&
      a + n ≤ (s.fld (hiWin i) 19 19 + 1) * 0x200000

/-- A non-secure read of the host: device memory below the core windows, register space from there on. While a function-level
reset runs, device memory reads zero (R567). -/
def State.hostRead (s : State) (a n : Nat) : List Byte × Bool × State :=
  let low := min n (coreBase - a)
  let (d, bad, s) := if s.flrRuns then (List.replicate low 0, [], s) else s.devRead false a low
  let (e, bad', s) := s.spaceRead (a + low) (n - low)
  (d ++ e, !bad.isEmpty || bad', s)

def State.hostWrite (s : State) (a : Nat) (d : List Byte) : State :=
  let low := min d.length (coreBase - a)
  let s := if s.flrRuns || low = 0 then s else s.devWrite false a (d.take low)
  if low < d.length then s.spaceWrite (a + low) (d.drop low) else s

/-! ## Acceptance (R393, R394, R396, R457, R479) -/

/-- Takes the ACKSEQ; one for a flit not sent is a violation of class 2. A new flit is in hand. -/
def State.hostAck (s : State) (ack : BitVec 12) : State :=
  let h := { s.hostLink with tainted := false }
  let s := { s with hostLink := h }
  let d := (ack + 1 - (h.txNext - BitVec.ofNat 12 h.replay.length)).toNat
  if d ≤ h.replay.length then
    if d = 0 then s else { s with hostLink := { h with replay := h.replay.drop d, replays := 0 } }
  else if d < 2048 then s.hostViolation 2
  else s

/-- Takes the LSEQ: whether the flit goes on. One ahead of the expected number is a violation of class 1, answered with LNAK, unless
it is discarded with a failed flit before it (R393, R479). -/
def State.hostSeq (s : State) (f : HFlit) : Bool × State :=
  let h := s.hostLink
  if f.lseq = h.rxExpect then
    (true, ({ s with hostLink := { h with rxExpect := h.rxExpect + 1, lnakSent := false, failed := false } } : State).modPort 8
      fun x => { x with nakDue := false })
  else if !seqAhead f.lseq h.rxExpect then (false, s)
  else if (s.port 8).rxSwaps then
    (false, ({ s with hostLink := { h with failed := true } } : State).modPort 8 fun x => { x with nakDue := true })
  else
    let s := if h.failed then s else s.hostViolation 1
    (false, if h.lnakSent then s.hostNakAgain else s.hostLnakOut)

/-- Takes credit for a flit of the posted or request class; one beyond the credit is a violation of class 3 and is answered with
CREDIT. The flit is taken at once, so its buffer is free again; CREDIT follows after each 64 flits (R396). -/
def State.hostCreditTake (s : State) (posted : Bool) : Bool × State :=
  let h := s.hostLink
  if posted && 512 ≤ (h.postedGot - h.postedTold).toNat then (false, (s.hostViolation 3).sendHostCredit)
  else if !posted && 256 ≤ (h.requestGot - h.requestTold).toNat then (false, (s.hostViolation 3).sendHostCredit)
  else
    let h := if posted then { h with postedGot := h.postedGot + 1 } else { h with requestGot := h.requestGot + 1 }
    let s := { s with hostLink := h }
    if 64 ≤ (h.postedGot - h.postedTold).toNat + (h.requestGot - h.requestTold).toNat then (true, s.sendHostCredit) else (true, s)

/-- Classes of the adapter's flits. -/
def hClassed (t : Nat) : Bool := t = 1 || t = 2 || t = 3 || t = 4 || t = 5 || t = 8

/-- A flit of the adapter on the host port: link management also during alignment (R455), the rest while ACTIVE. What passes the
link layer has its effect; what an acknowledgement frees lets held flits go (R394). In alignment, which the port leaves with a replay,
a flit whose number lies ahead acts before its turn, and no second time when it comes again (R395). -/
def State.onHostFlit (s : State) (f : HFlit) (eff : State → State) : Answer :=
  let t := f.type.toNat
  if !(s.portActive 8 || (t = 8 && s.portLinked 8)) then .next s
  else
    let s := s.counted 8 f.fixed
    if 9 ≤ t then done (s.hostViolation 0)
    else
      let s := s.hostAck f.ackseq
      if !hSequenced t then done (eff s).hostPump
      else
        let s := s.hostPump
        let again := s.hostLink.early.contains f.lseq
        let kept := s.hostLink.early.erase f.lseq
        if !s.portActive 8 && seqAhead f.lseq s.hostLink.rxExpect then
          let s : State := { s with hostLink := { s.hostLink with early := f.lseq :: kept, failed := true } }
          done (if again then s else eff s)
        else
          let (ok, s) := s.hostSeq f
          if !ok then done s
          else
            let (ok, s) := if hClassed t then s.hostCreditTake (t != 2) else (true, s)
            let s : State := { s with hostLink := { s.hostLink with early := kept } }
            if !ok || again then done s else done (eff s)

/-- Payload bytes of a flit; bytes not given are 0. -/
def hflitData (f : HFlit) : List Byte := (f.payload ++ List.replicate 240 0).take f.len.toNat

/-- Whether LEN lies in its range for a flit with a payload. -/
def hflitLenGood (f : HFlit) : Bool := decide (1 ≤ f.len.toNat) && decide (f.len.toNat ≤ 240)

/-- MWR; IDLE carries nothing, and a reserved type is a violation of class 0. -/
def execMwr (f : HFlit) (s : State) : Answer :=
  if f.type = 0 ∨ 9 ≤ f.type.toNat then s.onHostFlit f fun s => s
  else if f.type ≠ 1 then .next s
  else s.onHostFlit f fun s =>
    if !hflitLenGood f then s.hostViolation 4
    else if !s.inWindow f.addr.toNat f.len.toNat true then s.hostViolation 10
    else s.hostGood.hostWrite f.addr.toNat (hflitData f)

/-- CPL flits of a read: up to 240 bytes each, ascending, the last one marked (R458). -/
def cplFlits (tag : BitVec 10) (status : Nat) : Nat → Nat → List Byte → List HFlit
  | 0, _, _ => []
  | n + 1, a, d =>
    let rest := d.drop 240
    let f := { hflitBlank with type := 3, tag := tag, addr := BitVec.ofNat 40 a, len := BitVec.ofNat 13 (min d.length 240),
                               status := BitVec.ofNat 2 status, last := rest.isEmpty, payload := d.take 240 }
    f :: (if rest.isEmpty then [] else cplFlits tag status n (a + 240) rest)

/-- Answers a read. -/
def State.answerRead (s : State) (f : HFlit) (status : Nat) (d : List Byte) : State :=
  (cplFlits f.tag status 18 f.addr.toNat d).foldl State.hostSend s

/-- MRD. A tag is outstanding while a CPL of it waits. -/
def execMrd (f : HFlit) (s : State) : Answer :=
  if f.type ≠ 2 then .next s
  else s.onHostFlit f fun s =>
    let a := f.addr.toNat
    let n := f.len.toNat
    if n = 0 ∨ 4096 < n then (s.hostViolation 4).answerRead f 3 []
    else if s.hostLink.waiting.any (fun g => g.type = 3 && g.tag = f.tag) then s.hostViolation 5
    else if !s.inWindow a n false then (s.hostViolation 10).answerRead f 2 (List.replicate n 0)
    else
      let (d, bad, s) := s.hostGood.hostRead a n
      s.answerRead f (bitNat bad) d

/-- DBELL (R463): a non-secure write of the queue's tail. -/
def execDbell (f : HFlit) (s : State) : Answer :=
  if f.type ≠ 4 then .next s
  else s.onHostFlit f fun s =>
    if !hflitLenGood f then s.hostViolation 4
    else
      let q := hflitField f 0 1
      s.hostGood.onWrite false (hqPtr q) fun s => s.doorbell q (hflitField f 1 2)

/-- CREDIT: the totals that the adapter has freed. CPL and MSG are the device's alone: a violation of class 6. -/
def execHostCredit (f : HFlit) (s : State) : Answer :=
  if f.type = 3 ∨ f.type = 5 then s.onHostFlit f fun s => s.hostViolation 6
  else if f.type ≠ 6 then .next s
  else s.onHostFlit f fun s =>
    if !hflitLenGood f then s.hostViolation 4
    else ({ s.hostGood with hostLink := { s.hostGood.hostLink with freedIn := BitVec.ofNat 16 (hflitField f 0 2) } } : State).hostPump

/-- LNAK: the flits from the number that it names are sent again (R394). -/
def execHostLnak (f : HFlit) (s : State) : Answer :=
  if f.type ≠ 7 then .next s
  else s.onHostFlit f fun s =>
    let h := s.hostLink
    let d := (f.lseq - (h.txNext - BitVec.ofNat 12 h.replay.length)).toNat
    if d < h.replay.length then s.hostReplay d else s

/-! ## Management messages (Table: Management fragments) -/

/-- Forgets the fragments of a message. -/
def State.dropFragments (s : State) : State := { s with hostLink := { s.hostLink with fragKind := none, fragments := [] } }

/-- Takes a fragment: the whole message when it is the last. What breaks the rules of the fragments discards the message and is a
violation of class 7. -/
def State.takeFragment (s : State) (f : HFlit) : Option (List Byte) × State :=
  let kind := hflitField f 0 1
  let first := hflitField f 1 1 % 2 = 1
  let last := hflitField f 1 1 / 2 % 2 = 1
  let n := hflitField f 2 2
  let h := s.hostLink
  let fits := match h.fragKind with
    | none => first
    | some k => !first && k = kind
  let body := (if first then [] else h.fragments) ++ ((f.payload ++ List.replicate 240 0).drop 4).take n
  if 3 ≤ kind || !fits || n = 0 || 236 < n || 4096 < body.length then (none, s.dropFragments.hostViolation 7)
  else if last then (some body, s.dropFragments.hostGood)
  else (none, { s.hostGood with hostLink := { s.hostGood.hostLink with fragKind := some kind, fragments := body } })

/-- A LINKID message: the adapter's buffers (R455, R457). -/
def State.takeLinkid (s : State) (m : List Byte) : State :=
  let s := { s with hostLink := { s.hostLink with postedBuf := leNat ((m.drop 2).take 2), requestBuf := leNat ((m.drop 4).take 2) } }
  (s.modPort 8 fun x => { x with hello := true }).hostPump

/-- A WIDTH message: the port trains at the lanes that it names (R455). -/
def State.takeHostWidth (s : State) (m : List Byte) : State :=
  let n := leNat (m.take 1)
  if n = 4 ∨ n = 8 then s.takeWidth 8 n else s.hostViolation 7

/-- A management flit; the last one of a message gives it its effect. -/
def State.takeMgmt (s : State) (f : HFlit) : State :=
  if !hflitLenGood f then s.hostViolation 4
  else
    match s.takeFragment f with
    | (none, s) => s
    | (some m, s) =>
      if hflitField f 0 1 = 0 then s.takeLinkid m
      else if hflitField f 0 1 = 2 then s.takeHostWidth m
      else s.spdmAsk (spdmRequest m)

/-- Management flits of every KIND but WIDTH. -/
def execLinkid (f : HFlit) (s : State) : Answer :=
  if f.type = 8 ∧ hflitField f 0 1 ≠ 2 then s.onHostFlit f fun s => s.takeMgmt f else .next s

def execMgmtWidth (f : HFlit) (s : State) : Answer :=
  if f.type = 8 ∧ hflitField f 0 1 = 2 then s.onHostFlit f fun s => s.takeMgmt f else .next s

end Sys2Proof.Machine
end

