-- ==== Sys2Proof/Machine/Attest.lean ====
section
/-! DEFINITION. Requests to the SPDM responder (14_host_interface R481, R482; 17 R539, R546); Spdm.lean has the answers. -/

namespace Sys2Proof.Machine

open Sys2Proof

def execGetVersion (s : State) : Answer := .next (s.spdmAsk .version)
def execGetCapabilities (s : State) : Answer := .next (s.spdmAsk .capabilities)
def execNegotiateAlgorithms (s : State) : Answer := .next (s.spdmAsk .algorithms)
def execGetDigests (s : State) : Answer := .next (s.spdmAsk .digests)
def execGetCertificate (slot : Nat) (off : Nat) (len : Nat) (s : State) : Answer := .next (s.spdmAsk (.certificate slot off len))
def execChallenge (slot : Nat) (nonce : List (BitVec 8)) (s : State) : Answer := .next (s.spdmAsk (.challenge slot nonce))
def execGetMeasurements (index : Nat) (signed : Bool) (nonce : List (BitVec 8)) (s : State) : Answer :=
  .next (s.spdmAsk (.measurements index signed nonce))

/-- Any request that R482 does not list. -/
def execSpdmUnsupportedRequest (code : Nat) (s : State) : Answer := .next (s.spdmAsk (.other code))

end Sys2Proof.Machine
end

