-- ==== Sys2Proof/Machine/Tick.lean ====
section
/-! DEFINITION. One core clock tick, which passes when no command waits (log 2). -/

namespace Sys2Proof.Machine

open Sys2Proof

/-- Conditions that have cleared leave a freeze; the tick in which the last one cleared is kept (R162). -/
def State.watchFreeze (s : State) (a : ActiveSpan) : ActiveSpan :=
  match a.freeze with
  | none => a
  | some z =>
    let cs := z.conds.filter fun x => s.condHolds x.1 x.2
    let t := match z.clearTick with
      | some t => some t
      | none => if cs.isEmpty then some s.ticks else none
    { a with freeze := some { z with conds := cs, clearTick := t } }

/-- The dues that are not evaluated again: their evaluation cycle passes (R159). `f` is F. -/
def State.passDues (s : State) (c f : Nat) : List Nat :=
  let k := s.core c
  (List.range 4).filter fun e =>
    match k.dues[e]? with
    | some (d, armed) =>
      armed && (k.dueSeen.contains e || reached k.cyc (s.skewed c d - BitVec.ofNat 32 f))
    | none => false

/-- Counts a tick in which a control core is stalled by PUSH or STEP (Table: CC_STALL). -/
def State.countStall (s : State) (c : Nat) : State :=
  match (s.core c).stall with
  | .push _ _ => s.addFld (ccCount c 0) 0 64 1
  | .stepPlace _ _ => s.addFld (ccCount c 0) 0 64 1
  | .stepWait _ => s.addFld (ccCount c 0) 0 64 1
  | .stepOver => s.addFld (ccCount c 0) 0 64 1
  | _ => s

/-- Whether the head of a queue is a flag wait that is due and finds its flag clear. -/
def State.flagWaits (s : State) (c : Nat) (q : EngQ) : Bool :=
  match q.cmds with
  | [] => false
  | x :: _ =>
    match x.flagWait with
    | some n => reached (s.core c).cyc (s.skewed c (x.words.getD 1 0)) && !(s.core c).flag n
    | none => false

/-- Keeps the tick at which the flag wait at the head of each queue began (R382). -/
def State.watchWaits (s : State) (c : Nat) : State :=
  let qs := (s.core c).queues.map fun q =>
    { q with waitTick := if s.flagWaits c q then some (q.waitTick.getD s.ticks) else none }
  s.modCore c fun k => { k with queues := qs }

/-- The end of a tick (R216, R231 to R233, R238): queues are seen as they stand, flags set in it are past, a due set in it takes
effect, stores that engine reads now see enter the pond. `t` is the tick that begins. -/
def Core.endTick (k : Core) (t : Nat) : Core :=
  let qs := k.queues.map fun q => { q with seen := q.cmds, fresh := 0 }
  Core.settleStores { k.settleDues with queues := qs, setNow := 0, setStream := 0, acted := [] } t

/-- A member's logical cycle advances (R202): the cycle that ends leaves its marks (R233, R159). -/
def State.nextCycle (s : State) (c f : Nat) : State :=
  s.modCore c fun k => { k.noteIdle with dueSeen := s.passDues c f, cyc := k.cyc + 1 }

/-- Count records whose cycle has come are written (R198). -/
def State.writeRecords (s : State) (c : Nat) : State :=
  let k := s.core c
  let due := fun (x : Reg × Nat × List Byte) => decide (x.1.toNat ≤ k.cyc.toNat)
  let s := (k.records.filter due).foldl (fun s x => s.pondRecord c x.2.1 x.2.2) s
  s.modCore c fun k => { k with records := k.records.filter fun x => !due x }

/-- What the engines of a member do in its logical cycle: in the effect cycle of a freeze nothing, until the freeze ends (R131, R160,
R171). -/
def State.cycleWork (s : State) (c : Nat) : State :=
  if s.freezeDue c then s else ((((s.writeRecords c).vecAdvance c).pathAdvance c).arrayAdvance c).rsvAdvance c

/-- One tick of a member: frozen ticks count (R160), a member held at a boundary stands still (R448, R519), otherwise its
logical cycle advances and the engines do what the new cycle brings (R202). The reservoir path begins a transfer whether or not the
core is frozen (R332). -/
def State.tickCore (s : State) (a : ActiveSpan) (c : Nat) : State :=
  let f := 5 * a.diameter
  let s := (((s.countStall c).watchWaits c).rsvOverflow c f).beginPath c
  let t := s.ticks + 1
  let still := fun (s : State) => s.modCore c fun k => k.endTick t
  let goOn := fun (s : State) => ((s.nextCycle c f).modCore c fun k => k.endTick t).cycleWork c
  match a.freeze with
  | some z =>
    if z.active then still (s.addFld (ccCount c 1) 0 64 1)
    else if z.effect.toNat ≤ (s.core c).cyc.toNat then still s
    else goOn s
  | none =>
    if (s.core c).atBoundary then still s else goOn s

/-- A freeze ends: the unit wakes, and every member executes the cycle in which the freeze held it (R59, R160, R162, R501). -/
def execFreezeEnd (c : Nat) (s : State) : Answer :=
  match s.spanOf c with
  | none => .next s
  | some a =>
    match a.freeze with
    | none => .next s
    | some z =>
      match z.clearTick with
      | none => .next s
      | some t =>
        if z.active && z.conds.isEmpty && t + 5 * a.diameter ≤ s.ticks && z.effectTick < s.ticks then
          let s := (s.modSpan a.corner fun a => { a with freeze := none }).wake a.corner
          .next (a.members.foldl (fun s m => (s.modCore m Core.stepOn).cycleWork m) s)
        else .next s

/-- One core clock tick of the device. -/
def State.tick (s : State) : State :=
  let spans := s.active
  let s := spans.foldl (fun s a => a.members.foldl (fun s c => s.tickCore a c) s) s
  let s := { s with active := s.active.map s.watchFreeze }
  ({ s.trace with ticks := s.ticks + 1 } : State).keeperWrites

end Sys2Proof.Machine
end

