-- ==== Sys2Proof/Machine/Dispatch.lean ====
section
/-! DEFINITION. One arm per command: the effect of a command on everything but the queue. -/

namespace Sys2Proof.Machine

open Sys2Proof

def exec (i : Instr) (s : State) : Host.Outcome State Fault Refusal :=
  match i with
  | .nop c => Sys2Proof.Machine.execNop c s
  | .alu c rd ra rb func => Sys2Proof.Machine.execAlu c rd ra rb func s
  | .addi c rd ra imm => Sys2Proof.Machine.execAddi c rd ra imm s
  | .andi c rd ra imm => Sys2Proof.Machine.execAndi c rd ra imm s
  | .ori c rd ra imm => Sys2Proof.Machine.execOri c rd ra imm s
  | .xori c rd ra imm => Sys2Proof.Machine.execXori c rd ra imm s
  | .shli c rd ra imm => Sys2Proof.Machine.execShli c rd ra imm s
  | .shri c rd ra imm => Sys2Proof.Machine.execShri c rd ra imm s
  | .sari c rd ra imm => Sys2Proof.Machine.execSari c rd ra imm s
  | .muli c rd ra imm => Sys2Proof.Machine.execMuli c rd ra imm s
  | .lui c rd imm => Sys2Proof.Machine.execLui c rd imm s
  | .shori c rd ra imm => Sys2Proof.Machine.execShori c rd ra imm s
  | .cmp c rd ra rb func => Sys2Proof.Machine.execCmp c rd ra rb func s
  | .cmpi c pd cond ra imm => Sys2Proof.Machine.execCmpi c pd cond ra imm s
  | .plog c rd ra rb func => Sys2Proof.Machine.execPlog c rd ra rb func s
  | .mfs c rd imm => Sys2Proof.Machine.execMfs c rd imm s
  | .mts c ra imm => Sys2Proof.Machine.execMts c ra imm s
  | .ld8 c rd ra imm => Sys2Proof.Machine.execLd8 c rd ra imm s
  | .ld16 c rd ra imm => Sys2Proof.Machine.execLd16 c rd ra imm s
  | .ld32 c rd ra imm => Sys2Proof.Machine.execLd32 c rd ra imm s
  | .ld64 c rd ra imm => Sys2Proof.Machine.execLd64 c rd ra imm s
  | .lds8 c rd ra imm => Sys2Proof.Machine.execLds8 c rd ra imm s
  | .lds16 c rd ra imm => Sys2Proof.Machine.execLds16 c rd ra imm s
  | .lds32 c rd ra imm => Sys2Proof.Machine.execLds32 c rd ra imm s
  | .st8 c rd ra imm => Sys2Proof.Machine.execSt8 c rd ra imm s
  | .st16 c rd ra imm => Sys2Proof.Machine.execSt16 c rd ra imm s
  | .st32 c rd ra imm => Sys2Proof.Machine.execSt32 c rd ra imm s
  | .st64 c rd ra imm => Sys2Proof.Machine.execSt64 c rd ra imm s
  | .br c l n p off => Sys2Proof.Machine.execBr c l n p off s
  | .jr c rd ra => Sys2Proof.Machine.execJr c rd ra s
  | .loop c n isImm len count => Sys2Proof.Machine.execLoop c n isImm len count s
  | .cset c rd ra lsb func => Sys2Proof.Machine.execCset c rd ra lsb func s
  | .cseti c rd imm => Sys2Proof.Machine.execCseti c rd imm s
  | .push c ra => Sys2Proof.Machine.execPush c ra s
  | .pushStallEnd c => Sys2Proof.Machine.execPushStallEnd c s
  | .qlvl c rd e => Sys2Proof.Machine.execQlvl c rd e s
  | .qdue c ra e => Sys2Proof.Machine.execQdue c ra e s
  | .fset c ra imm => Sys2Proof.Machine.execFset c ra imm s
  | .fclr c ra imm => Sys2Proof.Machine.execFclr c ra imm s
  | .ftst c rd ra imm => Sys2Proof.Machine.execFtst c rd ra imm s
  | .fwait c rd ra imm => Sys2Proof.Machine.execFwait c rd ra imm s
  | .fwaitRelease c => Sys2Proof.Machine.execFwaitRelease c s
  | .ctradd c rd ra rb func => Sys2Proof.Machine.execCtradd c rd ra rb func s
  | .ctraddReply c => Sys2Proof.Machine.execCtraddReply c s
  | .ctrwait c rd ra rb func => Sys2Proof.Machine.execCtrwait c rd ra rb func s
  | .ctrwaitRelease c => Sys2Proof.Machine.execCtrwaitRelease c s
  | .slarr c rd ra func => Sys2Proof.Machine.execSlarr c rd ra func s
  | .slwait c rd ra rb func => Sys2Proof.Machine.execSlwait c rd ra rb func s
  | .slwaitRelease c => Sys2Proof.Machine.execSlwaitRelease c s
  | .evt c ra imm => Sys2Proof.Machine.execEvt c ra imm s
  | .step c => Sys2Proof.Machine.execStep c s
  | .halt c => Sys2Proof.Machine.execHalt c s
  | .unassignedOpcode c w => Sys2Proof.Machine.execUnassignedOpcode c w s
  | .idle c e => Sys2Proof.Machine.execIdle c e s
  | .idleComplete c e => Sys2Proof.Machine.execIdleComplete c e s
  | .mma c mis => Sys2Proof.Machine.execMma c mis s
  | .mmaComplete c => Sys2Proof.Machine.execMmaComplete c s
  | .drain c => Sys2Proof.Machine.execDrain c s
  | .drainComplete c => Sys2Proof.Machine.execDrainComplete c s
  | .drainRecordComplete c => Sys2Proof.Machine.execDrainRecordComplete c s
  | .wstore c => Sys2Proof.Machine.execWstore c s
  | .wstoreComplete c => Sys2Proof.Machine.execWstoreComplete c s
  | .wload c mis => Sys2Proof.Machine.execWload c mis s
  | .wloadComplete c => Sys2Proof.Machine.execWloadComplete c s
  | .vop c => Sys2Proof.Machine.execVop c s
  | .vopComplete c => Sys2Proof.Machine.execVopComplete c s
  | .vred c => Sys2Proof.Machine.execVred c s
  | .vredComplete c => Sys2Proof.Machine.execVredComplete c s
  | .rngFill c => Sys2Proof.Machine.execRngFill c s
  | .rngFillComplete c => Sys2Proof.Machine.execRngFillComplete c s
  | .rngKey c => Sys2Proof.Machine.execRngKey c s
  | .rngBind c => Sys2Proof.Machine.execRngBind c s
  | .rngSeek c => Sys2Proof.Machine.execRngSeek c s
  | .upd c => Sys2Proof.Machine.execUpd c s
  | .updComplete c => Sys2Proof.Machine.execUpdComplete c s
  | .ldt c errs => Sys2Proof.Machine.execLdt c errs s
  | .ldtComplete c k => Sys2Proof.Machine.execLdtComplete c k s
  | .stt c => Sys2Proof.Machine.execStt c s
  | .sttComplete c k => Sys2Proof.Machine.execSttComplete c k s
  | .prf c => Sys2Proof.Machine.execPrf c s
  | .prfScan c => Sys2Proof.Machine.execPrfScan c s
  | .prfComplete c k => Sys2Proof.Machine.execPrfComplete c k s
  | .send c => Sys2Proof.Machine.execSend c s
  | .sendComplete c k => Sys2Proof.Machine.execSendComplete c k s
  | .recv c => Sys2Proof.Machine.execRecv c s
  | .recvComplete c k => Sys2Proof.Machine.execRecvComplete c k s
  | .collReduceScatter c => Sys2Proof.Machine.execCollReduceScatter c s
  | .collAllGather c => Sys2Proof.Machine.execCollAllGather c s
  | .collAllReduce c => Sys2Proof.Machine.execCollAllReduce c s
  | .collBroadcast c => Sys2Proof.Machine.execCollBroadcast c s
  | .collMessage flow => Sys2Proof.Machine.execCollMessage flow s
  | .collComplete c k => Sys2Proof.Machine.execCollComplete c k s
  | .flagWait c => Sys2Proof.Machine.execFlagWait c s
  | .flagSet c => Sys2Proof.Machine.execFlagSet c s
  | .flagClr c => Sys2Proof.Machine.execFlagClr c s
  | .flagCtradd c => Sys2Proof.Machine.execFlagCtradd c s
  | .flagActionDue c k => Sys2Proof.Machine.execFlagActionDue c k s
  | .rsvpush c => Sys2Proof.Machine.execRsvpush c s
  | .rsvpushComplete c => Sys2Proof.Machine.execRsvpushComplete c s
  | .rsvpop c => Sys2Proof.Machine.execRsvpop c s
  | .rsvpopComplete c => Sys2Proof.Machine.execRsvpopComplete c s
  | .rsvEntryWritten c => Sys2Proof.Machine.execRsvEntryWritten c s
  | .rsvEntryStaged c => Sys2Proof.Machine.execRsvEntryStaged c s
  | .prefetchFill c t => Sys2Proof.Machine.execPrefetchFill c t s
  | .descriptorFetch c handle => Sys2Proof.Machine.execDescriptorFetch c handle s
  | .freezeRaise c => Sys2Proof.Machine.execFreezeRaise c s
  | .freezeEffect c => Sys2Proof.Machine.execFreezeEffect c s
  | .freezeEnd c => Sys2Proof.Machine.execFreezeEnd c s
  | .stepArrival c => Sys2Proof.Machine.execStepArrival c s
  | .spanActivate q => Sys2Proof.Machine.execSpanActivate q s
  | .launchEnd sp => Sys2Proof.Machine.execLaunchEnd sp s
  | .commitExchangeEnter j => Sys2Proof.Machine.execCommitExchangeEnter j s
  | .stepBarrierTimeout j => Sys2Proof.Machine.execStepBarrierTimeout j s
  | .flagTimeout c eng => Sys2Proof.Machine.execFlagTimeout c eng s
  | .counterTimeout c => Sys2Proof.Machine.execCounterTimeout c s
  | .sluiceTimeout c => Sys2Proof.Machine.execSluiceTimeout c s
  | .tokenTimeout obj => Sys2Proof.Machine.execTokenTimeout obj s
  | .flitData p f => Sys2Proof.Machine.execFlitData p f s
  | .flitFack p f => Sys2Proof.Machine.execFlitFack p f s
  | .flitToken p f => Sys2Proof.Machine.execFlitToken p f s
  | .attemptMarker p f => Sys2Proof.Machine.execAttemptMarker p f s
  | .flitLnak p f => Sys2Proof.Machine.execFlitLnak p f s
  | .flitCrcFail p => Sys2Proof.Machine.execFlitCrcFail p s
  | .lcredit p f => Sys2Proof.Machine.execLcredit p f s
  | .swapReq p f => Sys2Proof.Machine.execSwapReq p f s
  | .swapAck p f => Sys2Proof.Machine.execSwapAck p f s
  | .lmgtWidth p f => Sys2Proof.Machine.execLmgtWidth p f s
  | .lmgtRetrain p f => Sys2Proof.Machine.execLmgtRetrain p f s
  | .hello p f => Sys2Proof.Machine.execHello p f s
  | .nack p f => Sys2Proof.Machine.execNack p f s
  | .linkReplayTimeout p => Sys2Proof.Machine.execLinkReplayTimeout p s
  | .trainingStateComplete p => Sys2Proof.Machine.execTrainingStateComplete p s
  | .trainingStateTimeout p => Sys2Proof.Machine.execTrainingStateTimeout p s
  | .downRetry p => Sys2Proof.Machine.execDownRetry p s
  | .abruptLoss p lane => Sys2Proof.Machine.execAbruptLoss p lane s
  | .ringMarginLow p lane => Sys2Proof.Machine.execRingMarginLow p lane s
  | .swapSwitch p => Sys2Proof.Machine.execSwapSwitch p s
  | .laneSwapTimeout p => Sys2Proof.Machine.execLaneSwapTimeout p s
  | .sourceFailure p w => Sys2Proof.Machine.execSourceFailure p w s
  | .spareTuningComplete p => Sys2Proof.Machine.execSpareTuningComplete p s
  | .spareTuningTimeout p => Sys2Proof.Machine.execSpareTuningTimeout p s
  | .flowRetransmitTimeout f => Sys2Proof.Machine.execFlowRetransmitTimeout f s
  | .flowProbeTimeout f => Sys2Proof.Machine.execFlowProbeTimeout f s
  | .flowLateTimeout f => Sys2Proof.Machine.execFlowLateTimeout f s
  | .rankRemapApply rank => Sys2Proof.Machine.execRankRemapApply rank s
  | .ckptData f => Sys2Proof.Machine.execCkptData f s
  | .ckptEndOfData f => Sys2Proof.Machine.execCkptEndOfData f s
  | .ckptAck f => Sys2Proof.Machine.execCkptAck f s
  | .ckptRestoreRequest f => Sys2Proof.Machine.execCkptRestoreRequest f s
  | .ckptAbsent f => Sys2Proof.Machine.execCkptAbsent f s
  | .ckptRestoreDataDone j => Sys2Proof.Machine.execCkptRestoreDataDone j s
  | .snapshotCopyComplete j => Sys2Proof.Machine.execSnapshotCopyComplete j s
  | .flashWriteComplete j bad => Sys2Proof.Machine.execFlashWriteComplete j bad s
  | .mwr f => Sys2Proof.Machine.execMwr f s
  | .mrd f => Sys2Proof.Machine.execMrd f s
  | .dbell f => Sys2Proof.Machine.execDbell f s
  | .hostCredit f => Sys2Proof.Machine.execHostCredit f s
  | .hostLnak f => Sys2Proof.Machine.execHostLnak f s
  | .linkid f => Sys2Proof.Machine.execLinkid f s
  | .mgmtWidth f => Sys2Proof.Machine.execMgmtWidth f s
  | .getVersion => Sys2Proof.Machine.execGetVersion s
  | .getCapabilities => Sys2Proof.Machine.execGetCapabilities s
  | .negotiateAlgorithms => Sys2Proof.Machine.execNegotiateAlgorithms s
  | .getDigests => Sys2Proof.Machine.execGetDigests s
  | .getCertificate slot off len => Sys2Proof.Machine.execGetCertificate slot off len s
  | .challenge slot nonce => Sys2Proof.Machine.execChallenge slot nonce s
  | .getMeasurements index signed nonce => Sys2Proof.Machine.execGetMeasurements index signed nonce s
  | .spdmUnsupportedRequest code => Sys2Proof.Machine.execSpdmUnsupportedRequest code s
  | .program q => Sys2Proof.Machine.execProgram q s
  | .programComplete q => Sys2Proof.Machine.execProgramComplete q s
  | .launch q => Sys2Proof.Machine.execLaunch q s
  | .stepEntry q => Sys2Proof.Machine.execStepEntry q s
  | .flowOpen q => Sys2Proof.Machine.execFlowOpen q s
  | .flowClose q => Sys2Proof.Machine.execFlowClose q s
  | .flowReset q => Sys2Proof.Machine.execFlowReset q s
  | .kill q => Sys2Proof.Machine.execKill q s
  | .resume q => Sys2Proof.Machine.execResume q s
  | .fence q => Sys2Proof.Machine.execFence q s
  | .nopEntry q => Sys2Proof.Machine.execNopEntry q s
  | .attach sec v => Sys2Proof.Machine.execAttach sec v s
  | .renew sec v => Sys2Proof.Machine.execRenew sec v s
  | .leaseExpiry => Sys2Proof.Machine.execLeaseExpiry s
  | .hqptrWrite sec q v => Sys2Proof.Machine.execHqptrWrite sec q v s
  | .hqcfgWrite sec q v => Sys2Proof.Machine.execHqcfgWrite sec q v s
  | .evptrWrite sec v => Sys2Proof.Machine.execEvptrWrite sec v s
  | .logptrWrite sec v => Sys2Proof.Machine.execLogptrWrite sec v s
  | .srptrWrite sec j v => Sys2Proof.Machine.execSrptrWrite sec j v s
  | .slogptrWrite sec v => Sys2Proof.Machine.execSlogptrWrite sec v s
  | .ringConfigWrite sec addr v => Sys2Proof.Machine.execRingConfigWrite sec addr v s
  | .syOcfgWrite sec n v => Sys2Proof.Machine.execSyOcfgWrite sec n v s
  | .syOvalWrite sec n v => Sys2Proof.Machine.execSyOvalWrite sec n v s
  | .syOaddWrite sec n v => Sys2Proof.Machine.execSyOaddWrite sec n v s
  | .nwSpanWrite sec k v => Sys2Proof.Machine.execNwSpanWrite sec k v s
  | .rvChanbaseWrite sec c ch v => Sys2Proof.Machine.execRvChanbaseWrite sec c ch v s
  | .rvChanWrite sec c ch v => Sys2Proof.Machine.execRvChanWrite sec c ch v s
  | .rvStageWrite sec c v => Sys2Proof.Machine.execRvStageWrite sec c v s
  | .fbProfileWrite sec v => Sys2Proof.Machine.execFbProfileWrite sec v s
  | .fbRouteWrite sec n v => Sys2Proof.Machine.execFbRouteWrite sec n v s
  | .fbRankmapWrite sec n v => Sys2Proof.Machine.execFbRankmapWrite sec n v s
  | .portEnable sec p v => Sys2Proof.Machine.execPortEnable sec p v s
  | .portRetrain sec p v => Sys2Proof.Machine.execPortRetrain sec p v s
  | .fbCcfgWrite sec ch v => Sys2Proof.Machine.execFbCcfgWrite sec ch v s
  | .release sec j v => Sys2Proof.Machine.execRelease sec j v s
  | .checkpointNow sec j v => Sys2Proof.Machine.execCheckpointNow sec j v s
  | .restoreFromPartner sec j v => Sys2Proof.Machine.execRestoreFromPartner sec j v s
  | .restoreFromFlash sec j v => Sys2Proof.Machine.execRestoreFromFlash sec j v s
  | .restoreFromSnapshot sec j v => Sys2Proof.Machine.execRestoreFromSnapshot sec j v s
  | .releaseSnapshot sec j v => Sys2Proof.Machine.execReleaseSnapshot sec j v s
  | .invalidate sec v => Sys2Proof.Machine.execInvalidate sec v s
  | .functionLevelReset sec v => Sys2Proof.Machine.execFunctionLevelReset sec v s
  | .flrComplete => Sys2Proof.Machine.execFlrComplete s
  | .perCoreReset sec v => Sys2Proof.Machine.execPerCoreReset sec v s
  | .imageUpdateGo sec v => Sys2Proof.Machine.execImageUpdateGo sec v s
  | .imageUpdateChecked => Sys2Proof.Machine.execImageUpdateChecked s
  | .imageUpdateWritten => Sys2Proof.Machine.execImageUpdateWritten s
  | .keeperRequest sec v => Sys2Proof.Machine.execKeeperRequest sec v s
  | .keeperRequestDone => Sys2Proof.Machine.execKeeperRequestDone s
  | .nwFencereq sec v => Sys2Proof.Machine.execNwFencereq sec v s
  | .recoveryWrite sec v => Sys2Proof.Machine.execRecoveryWrite sec v s
  | .recoveryWriteDone => Sys2Proof.Machine.execRecoveryWriteDone s
  | .recoveryFinish sec v => Sys2Proof.Machine.execRecoveryFinish sec v s
  | .swRegionWrite sec addr v => Sys2Proof.Machine.execSwRegionWrite sec addr v s
  | .regionZeroingComplete => Sys2Proof.Machine.execRegionZeroingComplete s
  | .coreWindowImemWrite sec c idx v => Sys2Proof.Machine.execCoreWindowImemWrite sec c idx v s
  | .coreWindowPondAccess sec c off len wr => Sys2Proof.Machine.execCoreWindowPondAccess sec c off len wr s
  | .registerWrite sec addr v => Sys2Proof.Machine.execRegisterWrite sec addr v s
  | .poisonKill j => Sys2Proof.Machine.execPoisonKill j s
  | .rowFence y => Sys2Proof.Machine.execRowFence y s
  | .rowShiftComplete y => Sys2Proof.Machine.execRowShiftComplete y s
  | .meshLinkError pc => Sys2Proof.Machine.execMeshLinkError pc s
  | .errorDecay => Sys2Proof.Machine.execErrorDecay s
  | .pageRetiredCopyDone mc => Sys2Proof.Machine.execPageRetiredCopyDone mc s
  | .pchSpareCopyDone mc => Sys2Proof.Machine.execPchSpareCopyDone mc s
  | .patrolScrub mc errs => Sys2Proof.Machine.execPatrolScrub mc errs s
  | .governorInterval => Sys2Proof.Machine.execGovernorInterval s
  | .thermalEvaluation temps => Sys2Proof.Machine.execThermalEvaluation temps s
  | .powerCapEvaluation vin iin pin => Sys2Proof.Machine.execPowerCapEvaluation vin iin pin s
  | .watchdogExpiry fp => Sys2Proof.Machine.execWatchdogExpiry fp s
  | .fwRestartComplete fp ok => Sys2Proof.Machine.execFwRestartComplete fp ok s
  | .keeperRomRestartComplete => Sys2Proof.Machine.execKeeperRomRestartComplete s
  | .powerOnReset => Sys2Proof.Machine.execPowerOnReset s
  | .rstNAssert => Sys2Proof.Machine.execRstNAssert s
  | .rstNDeassert feed slot => Sys2Proof.Machine.execRstNDeassert feed slot s
  | .vinLowTimeout => Sys2Proof.Machine.execVinLowTimeout s
  | .vinRestored => Sys2Proof.Machine.execVinRestored s
  | .vinBelow36 => Sys2Proof.Machine.execVinBelow36 s
  | .refclkLoss => Sys2Proof.Machine.execRefclkLoss s
  | .refclkRestored => Sys2Proof.Machine.execRefclkRestored s
  | .thermalTrip => Sys2Proof.Machine.execThermalTrip s
  | .firmwareSelfTestDone failed temp => Sys2Proof.Machine.execFirmwareSelfTestDone failed temp s
  | .imageCheckDone => Sys2Proof.Machine.execImageCheckDone s
  | .powerWave k => Sys2Proof.Machine.execPowerWave k s
  | .stackPowerUp k => Sys2Proof.Machine.execStackPowerUp k s
  | .laserBankPowerUp p => Sys2Proof.Machine.execLaserBankPowerUp p s
  | .bistDone failures => Sys2Proof.Machine.execBistDone failures s
  | .hbmTrainingDone failedSaved => Sys2Proof.Machine.execHbmTrainingDone failedSaved s
  | .memoryTestDone mc pages pchs uncorr => Sys2Proof.Machine.execMemoryTestDone mc pages pchs uncorr s
  | .opticalTuningDone => Sys2Proof.Machine.execOpticalTuningDone s
  | .startupComplete => Sys2Proof.Machine.execStartupComplete s
  | .smbusReadIdentity => Sys2Proof.Machine.execSmbusReadIdentity s
  | .smbusReadStatus => Sys2Proof.Machine.execSmbusReadStatus s
  | .smbusReadTmax => Sys2Proof.Machine.execSmbusReadTmax s
  | .smbusReadVin => Sys2Proof.Machine.execSmbusReadVin s
  | .smbusReadIin => Sys2Proof.Machine.execSmbusReadIin s
  | .smbusReadPin => Sys2Proof.Machine.execSmbusReadPin s
  | .smbusReadResetcause => Sys2Proof.Machine.execSmbusReadResetcause s
  | .smbusReadFeedId => Sys2Proof.Machine.execSmbusReadFeedId s
  | .smbusAlertResponse => Sys2Proof.Machine.execSmbusAlertResponse s
  | .smbusNack code write => Sys2Proof.Machine.execSmbusNack code write s
  | .processorCrash fp => Sys2Proof.Machine.execProcessorCrash fp s
  | .lcreditInterval p => Sys2Proof.Machine.execLcreditInterval p s

end Sys2Proof.Machine
end

