-- ==== Sys2Proof/Safety.lean ====
section
/-! DEFINITION. What counts as a safe outcome, and the terms in which the statements about the block are written: when a
control core can issue a word, what a command leaves unchanged, and how a core goes on. -/

namespace Sys2Proof

open Machine

/-- The outcome is a next state. -/
def Completes (o : Host.Outcome State Fault Refusal) : Prop := ∃ s, o = .next s

/-- Core `c` can issue, and the word at its PC is `w`, written under the core's epoch, which no launch has at 0 (R208, R249,
R250). -/
def Ready (s : State) (c : Nat) (w : Word) : Prop :=
  s.canIssue c = true ∧ s.fetched c = (w, (s.core c).epoch) ∧ (s.core c).epoch ≠ 0

/-- Nothing but core `c` differs: not another core, a register, a memory, a queue, a link or any other part of the block. -/
def OnlyCore (s t : State) (c : Nat) : Prop := (∀ d, d ≠ c → t.core d = s.core d) ∧ { t with cores := s.cores } = s

/-- No frame waits inside the module for its delivery, and no flit for a consumer that takes messages in parts. -/
def Quiet (s : State) : Prop := s.loopback = [] ∧ s.tokensIn = [] ∧ s.feedable = none

/-- Core `c` wrote `v` to g[rd], a write to g0 discarded, and went on by one word, back edges included (R200, R208, R222);
nothing else differs. -/
def WritesRegister (s t : State) (c : Nat) (rd : BitVec 5) (v : Reg) : Prop :=
  OnlyCore s t c ∧
  (∀ r, (t.core c).rg r = if r = 0 then 0 else if r = rd then v else (s.core c).rg r) ∧
  t.core c = { (s.core c).advance with g := (t.core c).g }

/-- Core `c` wrote `b` to p[i], a write to p0 discarded, and went on by one word; nothing else differs. -/
def WritesPredicate (s t : State) (c : Nat) (i : BitVec 3) (b : Bool) : Prop :=
  OnlyCore s t c ∧
  (∀ j, (t.core c).pr j = if j = 0 then true else if j = i then b else (s.core c).pr j) ∧
  t.core c = { (s.core c).advance with p := (t.core c).p }

/-- The registers that posting a record may change: the rings' pointers, the count of blocked accesses, and the counters of
the lake and of the memory controllers for the lines that the record's bytes touch. -/
def recordReg (a : Nat) : Bool :=
  a == evPtr || a == logPtr || a == slogPtr || a == swBlocked ||
  (List.range 16).any (fun k => a == lkReg k 0 || a == lkReg k 0x10) || (List.range 8).any (fun k => a == mcReg k 0x20)

/-- A state without the parts that posting a record may change: rings, pending records and the count of dropped ones, record
memory, the lake's lines, the flits toward the host and the supply of free values. -/
def bare (s : State) : State :=
  { s with regs := [], mem := Mem.reset, lake := [], hidden := [], eventRing := RingState.reset, logRing := RingState.reset,
           secureLog := RingState.reset, pendRecs := [], hostLink := HostLink.reset, freeCtr := 0,
           firm := { s.firm with losses := 0 } }

/-- `t` is `s` but for what posting a record may change. -/
def BesidesRecords (s t : State) : Prop := bare t = bare s ∧ ∀ a, recordReg a = false → t.reg a = s.reg a

end Sys2Proof
end

