-- ==== Sys2Proof/Certificates/Slice0/Obligations.lean ====
section
/-! DEFINITION. The statements about the block, for the provers. `Ready`, `OnlyCore` and the other terms that they share
stand in Safety.lean or at the top of their section. -/

open Sys2Proof Sys2Proof.Machine

/-! ## The machine as a whole -/

/-- The command at the front of the queue runs, on the state with the rest of the queue. -/
def Obligations.StepRunsFrontCommand : Prop :=
  ∀ (c : Instr) (s : State), step { s with pending := c :: s.pending } = exec c s

/-- With no command waiting a step is one tick of the core clock (the model's choice, log 2). Where no span is active, no trace
point enabled and no write of the keeper waits, it counts the tick and nothing else. A tick changes no core outside the active spans and no sync object, flow or
port; in a span that stands alone it leaves the registers of every member, a frozen member's CYC stands still, the CYC of a member
that is neither frozen nor held at a step boundary counts 1 (R202), that of one held there stands still (the model's choice, log
29), and stores enter the pond that engines read from their second
tick on (R216). -/
def Obligations.EmptyQueueTicks : Prop :=
  ∀ s : State, s.pending = [] → ∃ t, step s = .next t ∧ t.ticks = s.ticks + 1 ∧ t.pending = [] ∧
    t.objs = s.objs ∧ t.flows = s.flows ∧ t.ports = s.ports ∧
    (s.active = [] → (∀ n, n < 4 → s.reg (hiTrace n) = 0) → s.firm.writes = [] → t = { s with ticks := s.ticks + 1 }) ∧
    (∀ c, (∀ a ∈ s.active, c ∉ a.members) → t.core c = s.core c) ∧
    ∀ a c, s.active = [a] → a.x0 + a.w ≤ 32 → c ∈ a.members →
      let k := s.core c
      (∀ r, (t.core c).rg r = k.rg r) ∧ (t.core c).pc = k.pc ∧ (t.core c).flags = k.flags ∧ (t.core c).imem = k.imem ∧
      (k.vec.runs = [] → k.path.runs = [] → k.rsv.runs = [] → k.records = [] →
        ((∀ e ∈ k.stores, s.ticks ≤ e.1) → (t.core c).pond = k.pond ∧ (t.core c).stores = k.stores) ∧
        ((∀ e ∈ k.stores, e.1 < s.ticks) → (t.core c).pond = k.view ∧ (t.core c).stores = [])) ∧
      (∀ z, a.freeze = some z → z.active = true → (t.core c).cyc = k.cyc) ∧
      (∀ z, a.freeze = some z → z.active = false → k.cyc.toNat < z.effect.toNat → (t.core c).cyc = k.cyc + 1) ∧
      (a.freeze = none → k.atBoundary = true → (t.core c).cyc = k.cyc) ∧
      (a.freeze = none → k.atBoundary = false → (t.core c).cyc = k.cyc + 1)

/-- No command ends in a fault or a refusal, and none adds to the queue or takes from it. -/
def Obligations.CommandsComplete : Prop := ∀ (i : Instr) (s : State), ∃ t, exec i s = .next t ∧ t.pending = s.pending

/-- Every step keeps the canonical form of device memory, and that of the ponds. -/
def Obligations.StepKeepsCanonicalForms : Prop :=
  (∀ s t : State, s.mem.wf → step s = .next t → t.mem.wf) ∧
  ∀ s t : State, (∀ c, (s.core c).pond.wf) → step s = .next t → ∀ c, (t.core c).pond.wf

/-- Device memory and the ponds have their canonical form after reset, and hold nothing. -/
def Obligations.ResetMemoryCanonical : Prop :=
  (State.reset.mem.wf ∧ ∀ a, State.reset.mem.byte a = 0 ∧ State.reset.mem.bad a = false) ∧
  ∀ c, (State.reset.core c).pond.wf ∧
    ∀ a, (State.reset.core c).pond.byte a = 0 ∧ (State.reset.core c).pond.bad a = false

/-- Nothing changes the fuses that manufacture blows. -/
def Obligations.ManufactureFusesStay : Prop :=
  ∀ s t : State, step s = .next t →
    t.fuses.part = s.fuses.part ∧ t.fuses.keyhash = s.fuses.keyhash ∧ t.fuses.serial = s.fuses.serial ∧
    t.fuses.stepping = s.fuses.stepping ∧ t.fuses.romver = s.fuses.romver

/-- What reset leaves (R200, R201, R566; where no rule gives a value, among them the logical width 32, the model's choices of
logs 3 and 4): control cores halted with every register 0 and no
due armed, every register of register space at its Reset value, no span, lease, waiting record or listed memory, the full
logical width, and counters and sluices at 0. -/
def Obligations.ResetState : Prop :=
  let s := State.reset
  (∀ c, (s.core c).mode = .halted ∧ (∀ r, (s.core c).rg r = 0) ∧ (∀ i, (s.core c).pr i = (i == 0)) ∧
    (s.core c).c = Vector.replicate 8 0 ∧ (s.core c).lc = Vector.replicate 4 0 ∧ (s.core c).loops = [] ∧
    (s.core c).pc = 0 ∧ (s.core c).cyc = 0 ∧ (s.core c).epoch = 0 ∧ (s.core c).flags = 0 ∧
    (∀ d : Fin 4, ((s.core c).dues[d]).2 = false) ∧ s.canIssue c = false) ∧
  (∀ a, s.reg a = regReset a) ∧ (∀ n, (s.obj n).value = 0 ∧ (s.obj n).arrived = 0 ∧ (s.obj n).sense = false) ∧
  s.pending = [] ∧ s.active = [] ∧ s.lease = .none ∧ s.pendRecs = [] ∧ s.mem.bytes = [] ∧ s.mem.poison = [] ∧ s.width = 32

/-! ## Numbers -/

/-- R69 to R71, R81 and R82: conversion into a floating-point format, in both directions. A value that a code of the format has is
written with that value; any value within the format's range is written as the nearest value that a code has, with an even last
fraction bit where two are equally near. BF16, FP16, FP32 and MW48 have no subnormals, so that the second part begins at the
smallest normal value there. -/
def Obligations.FormatsRound : Prop :=
  ∀ f ∈ [0, 1, 2, 3, 4, 7, 8, 9, 10], ∀ (q : Q) (sat : Bool),
    let c := convert f false (.fin q) none sat
    (∀ b, b < 2 ^ fmtBits f → decodeFloat f b = .fin q → c.sat = false ∧ ∃ r, decodeFloat f c.bits = .fin r ∧ r.eq q = true) ∧
    (q.den ≠ 0 → q.abs.le (fmtMax f) = true → (fmtLong f = true → (Q.dyadic 1 (1 - fmtBias f)).le q.abs = true) →
      c.sat = false ∧ c.nan = false ∧ ∃ r, decodeFloat f c.bits = .fin r ∧
        ∀ b w, b < 2 ^ fmtBits f → decodeFloat f b = .fin w →
          (q.sub r).abs.le (q.sub w).abs = true ∧
          ((q.sub r).abs.eq (q.sub w).abs = true → w.eq r = true ∨ c.bits % 2 = 0))

/-- R109 to R111: the total of a well register element does not depend on the order of its contributions, wrapped or not; and
while no more than 2^32 contributions of at most 2^127 − 1 grid units each are added, it is their exact sum. -/
def Obligations.TotalsIgnoreOrder : Prop :=
  (∀ (x : Elem) (a : Int) (vs ws : List Val), vs.Perm ws →
    vs.foldl (fun y v => y.promote a v) x = ws.foldl (fun y v => y.promote a v) x) ∧
  ∀ (a : Int) (ts : List Int), (∀ t ∈ ts, t.natAbs ≤ 2 ^ 127 - 1) → ts.length ≤ 2 ^ 32 →
    let x := (ts.map fun t => Val.fin (wellValue t a)).foldl (fun y v => y.promote a v) Elem.zero
    x.n.toInt = ts.foldl (fun u t => u + t) 0 ∧ x.grid = false ∧ x.overRange = false ∧ x.special = .finite

/-! ## The control core -/

/-- A register result: where core `c` can issue the word `w`, the instruction writes `v` to g[rd] and touches nothing else. -/
def RegisterResult (i : Instr) (s : State) (c : Nat) (w : Word) (rd : BitVec 5) (v : Reg) : Prop :=
  Ready s c w → ∃ t, exec i s = .next t ∧ WritesRegister s t c rd v

/-- As `RegisterResult`, for a predicate. -/
def PredicateResult (i : Instr) (s : State) (c : Nat) (w : Word) (p : BitVec 3) (b : Bool) : Prop :=
  Ready s c w → ∃ t, exec i s = .next t ∧ WritesPredicate s t c p b

/-- R209: ALU by func. -/
def Obligations.AluComputes : Prop :=
  ∀ (s : State) (c : Nat) (rd ra rb : BitVec 5) (func : BitVec 11),
    let a := (s.core c).rg ra
    let b := (s.core c).rg rb
    ∃ v : Reg,
      RegisterResult (.alu c rd ra rb func) s c (0x01#6 ++ rd ++ ra ++ rb ++ func) rd v ∧
      (func = 0 → v = a + b) ∧ (func = 1 → v = a - b) ∧ (func = 2 → v = a &&& b) ∧ (func = 3 → v = a ||| b) ∧
      (func = 4 → v = a ^^^ b) ∧ (func = 5 → v = a &&& ~~~b) ∧
      (func = 6 → v = a <<< min b.toNat 63) ∧ (func = 7 → v = a >>> min b.toNat 63) ∧
      (func = 8 → v = a.sshiftRight (min b.toNat 63)) ∧ (func = 9 → v = a * b) ∧
      (func = 10 → v.toInt = a.toInt * b.toInt / 2 ^ 64) ∧ (func = 11 → v.toNat = a.toNat * b.toNat / 2 ^ 64) ∧
      (func = 12 → v.toInt = min a.toInt b.toInt) ∧ (func = 13 → v.toInt = max a.toInt b.toInt) ∧
      (func = 14 → v.toNat = min a.toNat b.toNat) ∧ (15 ≤ func.toNat → v.toNat = max a.toNat b.toNat)

/-- R211, with the shift amounts of R210, and its four SHORI. -/
def Obligations.ImmediatesCompute : Prop :=
  (∀ (s : State) (c : Nat) (rd ra : BitVec 5) (imm : BitVec 16),
    let a := (s.core c).rg ra
    RegisterResult (.addi c rd ra imm) s c (0x02#6 ++ rd ++ ra ++ imm) rd (a + imm.signExtend 64) ∧
    RegisterResult (.andi c rd ra imm) s c (0x03#6 ++ rd ++ ra ++ imm) rd (a &&& imm.setWidth 64) ∧
    RegisterResult (.ori c rd ra imm) s c (0x04#6 ++ rd ++ ra ++ imm) rd (a ||| imm.setWidth 64) ∧
    RegisterResult (.xori c rd ra imm) s c (0x05#6 ++ rd ++ ra ++ imm) rd (a ^^^ imm.setWidth 64) ∧
    RegisterResult (.shli c rd ra imm) s c (0x06#6 ++ rd ++ ra ++ imm) rd (a <<< min imm.toNat 63) ∧
    RegisterResult (.shri c rd ra imm) s c (0x07#6 ++ rd ++ ra ++ imm) rd (a >>> min imm.toNat 63) ∧
    RegisterResult (.sari c rd ra imm) s c (0x08#6 ++ rd ++ ra ++ imm) rd (a.sshiftRight (min imm.toNat 63)) ∧
    RegisterResult (.muli c rd ra imm) s c (0x09#6 ++ rd ++ ra ++ imm) rd (a * imm.signExtend 64) ∧
    RegisterResult (.lui c rd imm) s c (0x0A#6 ++ rd ++ ra ++ imm) rd (imm.signExtend 64 <<< 16) ∧
    RegisterResult (.shori c rd ra imm) s c (0x0B#6 ++ rd ++ ra ++ imm) rd ((a <<< 16) ||| imm.setWidth 64)) ∧
  ∀ g v : Reg, ((((((((g <<< 16) ||| ((v >>> 48).setWidth 16).setWidth 64) <<< 16) ||| ((v >>> 32).setWidth 16).setWidth 64)
    <<< 16) ||| ((v >>> 16).setWidth 16).setWidth 64) <<< 16) ||| (v.setWidth 16).setWidth 64) = v

/-- R212, R213 and R214: the predicate that CMP, CMPI and PLOG write. -/
def Obligations.PredicatesCompute : Prop :=
  ∀ (s : State) (c : Nat) (rd ra rb : BitVec 5) (func : BitVec 11) (imm : BitVec 16) (pd : BitVec 3) (cond : BitVec 2),
    let a := (s.core c).rg ra
    let b := (s.core c).rg rb
    let x := imm.signExtend 64
    let pr := fun r : BitVec 5 => (s.core c).pr (r.setWidth 3)
    (∃ u v : Bool,
      PredicateResult (.cmp c rd ra rb func) s c (0x0C#6 ++ rd ++ ra ++ rb ++ func) (rd.setWidth 3) v ∧
      (func.toNat % 8 = 0 → u = decide (a = b)) ∧ (func.toNat % 8 = 1 → u = decide (a ≠ b)) ∧
      (func.toNat % 8 = 2 → u = decide (a.toInt < b.toInt)) ∧ (func.toNat % 8 = 3 → u = decide (b.toInt ≤ a.toInt)) ∧
      (func.toNat % 8 = 4 → u = decide (a.toNat < b.toNat)) ∧ (5 ≤ func.toNat % 8 → u = decide (b.toNat ≤ a.toNat)) ∧
      (rd.toNat / 8 = 0 → v = u) ∧ (rd.toNat / 8 = 1 → v = (pr rd && u)) ∧ (2 ≤ rd.toNat / 8 → v = (pr rd || u))) ∧
    (∃ u : Bool,
      PredicateResult (.cmpi c pd cond ra imm) s c (0x0D#6 ++ pd ++ cond ++ ra ++ imm) pd u ∧
      (cond = 0 → u = decide (a = x)) ∧ (cond = 1 → u = decide (a ≠ x)) ∧
      (cond = 2 → u = decide (a.toInt < x.toInt)) ∧ (cond = 3 → u = decide (a.toNat < x.toNat))) ∧
    (∃ u : Bool,
      PredicateResult (.plog c rd ra rb func) s c (0x0E#6 ++ rd ++ ra ++ rb ++ func) (rd.setWidth 3) u ∧
      (func.toNat % 4 = 0 → u = (pr ra && pr rb)) ∧ (func.toNat % 4 = 1 → u = (pr ra || pr rb)) ∧
      (func.toNat % 4 = 2 → u = (pr ra != pr rb)) ∧ (func.toNat % 4 = 3 → u = (pr ra && !pr rb)))

/-- R204: the special registers, as MFS reads them and MTS writes them. -/
def Obligations.SpecialRegisters : Prop :=
  ∀ (s : State) (c : Nat) (rd ra : BitVec 5) (imm : BitVec 16),
    let k := s.core c
    (∃ v : Reg,
      RegisterResult (.mfs c rd imm) s c (0x0F#6 ++ rd ++ ra ++ imm) rd v ∧
      (imm = 0 → v = k.cyc) ∧ (imm = 1 → v = k.epoch.setWidth 64) ∧ (imm = 2 → v = BitVec.ofNat 64 c) ∧
      (imm = 3 → v = s.coreSpanReg c) ∧ (imm = 4 → ∀ i : BitVec 3, v.getLsbD i.toNat = k.pr i) ∧
      (∀ n : Fin 4, imm.toNat = 5 + n.val → v = (k.lc[n]).setWidth 64) ∧
      (imm = 9 → v = BitVec.ofNat 64 ((s.reg (vxStep c)).toNat % 2 ^ 48)) ∧
      (imm = 10 → v = BitVec.ofNat 64 (s.coreJob c)) ∧ (imm = 11 → v = BitVec.ofNat 64 (s.coreHq c)) ∧
      (12 ≤ imm.toNat → v = 0)) ∧
    (Ready s c (0x10#6 ++ rd ++ ra ++ imm) → ∃ t, exec (.mts c ra imm) s = .next t ∧ OnlyCore s t c ∧
      (imm = 4 → t.core c = { k.advance with p := (t.core c).p } ∧
        ∀ i : BitVec 3, (t.core c).pr i = (i == 0 || (k.rg ra).getLsbD i.toNat)) ∧
      (∀ n : Fin 4, imm.toNat = 5 + n.val → k.loopActive n = false →
        t.core c = Core.advance { k with lc := k.lc.set n ((k.rg ra).setWidth 32) }) ∧
      (∀ n : Fin 4, imm.toNat = 5 + n.val → k.loopActive n = true → t.core c = k.advance) ∧
      (imm.toNat < 4 ∨ 9 ≤ imm.toNat → t.core c = k.advance))

/-- The pond address of R215. -/
def loadAddr (k : Core) (ra : BitVec 5) (imm : BitVec 16) (z : Nat) : Nat :=
  (k.rg ra + imm.signExtend 64).toNat / z * z

/-- One load of `z` bytes: outside the pond it reads 0, inside it reads unpoisoned bytes, those of the core's own stores among
them at once (R215, R216). -/
def LoadResult (i : Instr) (op : BitVec 6) (z : Nat) (signed : Bool) (s : State) (c : Nat) (rd ra : BitVec 5)
    (imm : BitVec 16) : Prop :=
  let k := s.core c
  let a := loadAddr k ra imm z
  (196608 ≤ a → RegisterResult i s c (op ++ rd ++ ra ++ imm) rd 0) ∧
  (a < 196608 → k.pond.badRange a z = false →
    ∃ v : Reg, RegisterResult i s c (op ++ rd ++ ra ++ imm) rd v ∧
      (∀ n, n < z → (v >>> (8 * n)).setWidth 8 = k.view.byte (a + n)) ∧
      (∀ n, 8 * z ≤ n → n < 64 → v.getLsbD n = (signed && v.getLsbD (8 * z - 1))))

/-- R215 and R216: the loads, for a pond in canonical form. -/
def LoadsRead : Prop :=
  ∀ (s : State) (c : Nat) (rd ra : BitVec 5) (imm : BitVec 16), (s.core c).pond.wf →
    LoadResult (.ld8 c rd ra imm) 0x11 1 false s c rd ra imm ∧ LoadResult (.ld16 c rd ra imm) 0x12 2 false s c rd ra imm ∧
    LoadResult (.ld32 c rd ra imm) 0x13 4 false s c rd ra imm ∧ LoadResult (.ld64 c rd ra imm) 0x14 8 false s c rd ra imm ∧
    LoadResult (.lds8 c rd ra imm) 0x15 1 true s c rd ra imm ∧ LoadResult (.lds16 c rd ra imm) 0x16 2 true s c rd ra imm ∧
    LoadResult (.lds32 c rd ra imm) 0x17 4 true s c rd ra imm

/-- One load that meets poison. -/
def PoisonStops (i : Instr) (op : BitVec 6) (z : Nat) (s : State) (c : Nat) (rd ra : BitVec 5) (imm : BitVec 16) : Prop :=
  let k := s.core c
  let a := loadAddr k ra imm z
  Ready s c (op ++ rd ++ ra ++ imm) → a < 196608 → k.pond.badRange a z = true → s.coreJob c ≠ 0 →
    (s.job (s.coreJob c)).killLatch = none →
    ∃ t, exec i s = .next t ∧ (∀ r, (t.core c).rg r = k.rg r) ∧ (t.core c).mode = .poisoned ∧ t.canIssue c = false ∧
      (∀ d : Fin 4, ((t.core c).dues[d]) = ((k.dues[d]).1, false)) ∧
      (∀ d, d ≠ c → t.core d = s.core d) ∧
      t.reg (ccFault c) = BitVec.ofNat 64 (k.pc.toNat + 2 * 2 ^ 32) ∧ (∀ x, x ≠ ccFault c → t.reg x = s.reg x) ∧
      (t.job (s.coreJob c)).killLatch = some (0, c, 0, cw c a) ∧
      (∀ j, j ≠ s.coreJob c → t.job j = s.job j) ∧ t.mem = s.mem

/-- R218, for a core that a job runs: a load that reads poison writes no register, stops its core, disarms its dues
(R230), records the fault and latches the kill of the job, which the steward then serves. The addresses that the latch holds,
device address 0 and the pond address, are the model's choice (log 28). -/
def PoisonedLoadsStop : Prop :=
  ∀ (s : State) (c : Nat) (rd ra : BitVec 5) (imm : BitVec 16),
    PoisonStops (.ld8 c rd ra imm) 0x11 1 s c rd ra imm ∧ PoisonStops (.ld16 c rd ra imm) 0x12 2 s c rd ra imm ∧
    PoisonStops (.ld32 c rd ra imm) 0x13 4 s c rd ra imm ∧ PoisonStops (.ld64 c rd ra imm) 0x14 8 s c rd ra imm ∧
    PoisonStops (.lds8 c rd ra imm) 0x15 1 s c rd ra imm ∧ PoisonStops (.lds16 c rd ra imm) 0x16 2 s c rd ra imm ∧
    PoisonStops (.lds32 c rd ra imm) 0x17 4 s c rd ra imm

/-- R215, R216, R218 and R230: what a load reads, and what it does where it meets poison; the addresses of the kill latch are the
model's choice (log 28). -/
def Obligations.LoadsAct : Prop := LoadsRead ∧ PoisonedLoadsStop

/-- One store of `z` bytes: the core's own loads see the bytes at its address at once and every other byte of the pond as before;
what engines read, and every poison mark, stays until the tick that settles the store; nothing else changed. -/
def StoreResult (i : Instr) (op : BitVec 6) (z : Nat) (s : State) (c : Nat) (rd ra : BitVec 5) (imm : BitVec 16) : Prop :=
  let k := s.core c
  let a := loadAddr k ra imm z
  Ready s c (op ++ rd ++ ra ++ imm) → ∃ t, exec i s = .next t ∧ OnlyCore s t c ∧
    t.core c = { k.advance with stores := (t.core c).stores } ∧ (t.core c).view.poison = k.view.poison ∧
    (196608 ≤ a → (t.core c).stores = k.stores) ∧
    (a < 196608 → (∃ d, d.length = z ∧ (t.core c).stores = k.stores ++ [(s.ticks, a, d)]) ∧
      ∀ x, (t.core c).view.byte x =
        if a ≤ x ∧ x < a + z then ((k.rg rd) >>> (8 * (x - a))).setWidth 8 else k.view.byte x)

/-- R215 and R216: the stores, for a pond in canonical form. -/
def Obligations.StoresWrite : Prop :=
  ∀ (s : State) (c : Nat) (rd ra : BitVec 5) (imm : BitVec 16), (s.core c).pond.wf →
    StoreResult (.st8 c rd ra imm) 0x18 1 s c rd ra imm ∧ StoreResult (.st16 c rd ra imm) 0x19 2 s c rd ra imm ∧
    StoreResult (.st32 c rd ra imm) 0x1A 4 s c rd ra imm ∧ StoreResult (.st64 c rd ra imm) 0x1B 8 s c rd ra imm

/-- What a taken branch to `target` leaves of the loops and counters (R223): a loop stays active where the target lies in its
body and in every body entered before it; the others end, and their counters become 0. -/
def Branches (s t : State) (c : Nat) (target : Nat) : Prop :=
  let k := s.core c
  let stay := (k.loops.reverse.takeWhile fun f => decide (f.start ≤ target) && decide (target ≤ f.last)).reverse
  (t.core c).pc.toNat = target ∧ (t.core c).loops = stay ∧
  ∀ n : Fin 4, (t.core c).lc[n] =
    if (k.loops.take (k.loops.length - stay.length)).any (fun f => f.n == n.val) then 0 else k.lc[n]

/-- R219, R220 and R223: branches, jumps and their links. -/
def Obligations.BranchesJump : Prop :=
  ∀ (s : State) (c : Nat) (l n : Bool) (p : BitVec 3) (off : BitVec 21) (rd ra rb : BitVec 5) (func : BitVec 11),
    let k := s.core c
    let link := BitVec.ofNat 64 ((k.pc.toNat + 1) % 16384)
    (Ready s c (0x20#6 ++ BitVec.ofBool l ++ BitVec.ofBool n ++ p ++ off) → ∃ t, exec (.br c l n p off) s = .next t ∧
      OnlyCore s t c ∧
      (k.pr p = n → t.core c = k.advance) ∧
      (k.pr p ≠ n → Branches s t c (((k.pc.toNat : Int) + off.toInt) % 16384).toNat ∧
        t.core c = { k with g := (t.core c).g, pc := (t.core c).pc, loops := (t.core c).loops, lc := (t.core c).lc } ∧
        ∀ r, (t.core c).rg r = if l = true ∧ r = 31 then link else k.rg r)) ∧
    (Ready s c (0x21#6 ++ rd ++ ra ++ rb ++ func) → ∃ t, exec (.jr c rd ra) s = .next t ∧ OnlyCore s t c ∧
      Branches s t c ((k.rg ra).toNat % 16384) ∧
      t.core c = { k with g := (t.core c).g, pc := (t.core c).pc, loops := (t.core c).loops, lc := (t.core c).lc } ∧
      ∀ r, (t.core c).rg r = if r = 0 then 0 else if r = rd then link else k.rg r)

/-- R221: LOOP. -/
def LoopsStart : Prop :=
  ∀ (s : State) (c : Nat) (n : BitVec 2) (i : Bool) (len : BitVec 11) (count : BitVec 12),
    let k := s.core c
    let cnt := if i then count.toNat else min (k.rg (count.setWidth 5)).toNat (2 ^ 32 - 1)
    let last0 := min (k.pc.toNat + 1 + len.toNat) 16383
    let last := match k.loops with | f :: _ => min last0 f.last | [] => last0
    let outer := if k.loops.any (fun f => f.n == n.toNat) then (k.loops.dropWhile (fun f => f.n != n.toNat)).tail else k.loops
    Ready s c (0x22#6 ++ n ++ BitVec.ofBool i ++ len ++ count) → ∃ t, exec (.loop c n i len count) s = .next t ∧
      OnlyCore s t c ∧
      t.core c = { k with lc := k.lc.set n.toNat (BitVec.ofNat 32 cnt), loops := (t.core c).loops, pc := (t.core c).pc } ∧
      (cnt = 0 → (t.core c).loops = outer ∧ (t.core c).pc = BitVec.ofNat 14 (last + 1)) ∧
      (cnt ≠ 0 → (t.core c).loops = { n := n.toNat, start := k.pc.toNat + 1, last := last } :: outer ∧
        (t.core c).pc = BitVec.ofNat 14 (k.pc.toNat + 1))

/-- R208 and R222, shown by NOP: the next word, word 0 after the last, and the back edges of the loops that end here. -/
def BackEdges : Prop :=
  ∀ (s : State) (c : Nat) (x : BitVec 26), Ready s c (0x00#6 ++ x) →
    let k := s.core c
    ∃ t, exec (.nop c) s = .next t ∧ OnlyCore s t c ∧
      t.core c = { k with pc := (t.core c).pc, loops := (t.core c).loops, lc := (t.core c).lc } ∧
      ((∀ f ∈ k.loops, f.last ≠ k.pc.toNat) →
        (t.core c).pc = k.pc + 1 ∧ (t.core c).loops = k.loops ∧ (t.core c).lc = k.lc) ∧
      (∀ f fs (n : Fin 4), k.loops = f :: fs → f.last = k.pc.toNat → f.n = n.val →
        (1 < k.lc[n].toNat → (t.core c).pc = BitVec.ofNat 14 f.start ∧ (t.core c).loops = k.loops ∧
          (t.core c).lc = k.lc.set n (k.lc[n] - 1)) ∧
        (k.lc[n].toNat ≤ 1 → (∀ f' ∈ fs, f'.last ≠ k.pc.toNat) →
          (t.core c).pc = k.pc + 1 ∧ (t.core c).loops = fs ∧ (t.core c).lc = k.lc.set n 0) ∧
        (∀ f' fs' (m : Fin 4), k.lc[n].toNat ≤ 1 → fs = f' :: fs' → f'.last = k.pc.toNat → f'.n = m.val → m ≠ n →
          1 < k.lc[m].toNat → (t.core c).pc = BitVec.ofNat 14 f'.start ∧ (t.core c).loops = fs ∧
            (t.core c).lc = (k.lc.set n 0).set m (k.lc[m] - 1)))

/-- R208, R221 and R222: LOOP, the next word, and the back edges of the loops that end at it. -/
def Obligations.LoopsRun : Prop := LoopsStart ∧ BackEdges

/-- R225 and R226: the staging registers. -/
def StagingWrites : Prop :=
  ∀ (s : State) (c : Nat) (rd ra lsb : BitVec 5) (func : BitVec 11) (imm : BitVec 16),
    let k := s.core c
    let ci : Fin 8 := ⟨rd.toNat % 8, Nat.mod_lt _ (by decide)⟩
    let w := min (func.toNat / 64 + 1) (32 - lsb.toNat)
    (Ready s c (0x24#6 ++ rd ++ ra ++ lsb ++ func) → ∃ t, exec (.cset c rd ra lsb func) s = .next t ∧ OnlyCore s t c ∧
      t.core c = { k.advance with c := (t.core c).c } ∧ (∀ j : Fin 8, j ≠ ci → (t.core c).c[j] = k.c[j]) ∧
      ∀ b, b < 32 → ((t.core c).c[ci]).getLsbD b =
        if lsb.toNat ≤ b ∧ b < lsb.toNat + w then (k.rg ra).getLsbD (b - lsb.toNat) else (k.c[ci]).getLsbD b) ∧
    (Ready s c (0x25#6 ++ rd ++ ra ++ imm) → ∃ t, exec (.cseti c rd imm) s = .next t ∧ OnlyCore s t c ∧
      t.core c = { k.advance with c := (t.core c).c } ∧ (∀ j : Fin 8, j ≠ ci → (t.core c).c[j] = k.c[j]) ∧
      (rd.getLsbD 3 = false → (t.core c).c[ci] = (k.c[ci]).extractLsb' 16 16 ++ imm) ∧
      (rd.getLsbD 3 = true → (t.core c).c[ci] = imm ++ (k.c[ci]).setWidth 16))

/-- The command that PUSH builds from the staging registers (R227). -/
def stagedCommand (k : Core) (ra : BitVec 5) : List Word :=
  [k.c[0], k.c[1] + (k.rg ra).setWidth 32, k.c[2], k.c[3], k.c[4], k.c[5], k.c[6], k.c[7]]

/-- R227, R228, R229 and R231: PUSH with and without room, the end of its stall in the tick after an entry frees, QLVL and
QDUE, whose due stands once the tick has ended. A command of this statement names no descriptor, so that its queue alone decides. -/
def QueuesTakeCommands : Prop :=
  ∀ (s : State) (c : Nat) (rd ra : BitVec 5) (e : BitVec 2) (imm : BitVec 14),
    let k := s.core c
    let q := k.queue e.toNat
    let depth := if e = 0 then 32 else if e = 3 then 16 else 64
    (Ready s c (0x28#6 ++ rd ++ ra ++ e ++ imm) → cmdHandles (stagedCommand k ra) = [] → k.dcache.length ≤ 256 →
      ∃ t, exec (.push c ra) s = .next t ∧ OnlyCore s t c ∧ (t.core c).c = k.c ∧ (∀ r, (t.core c).rg r = k.rg r) ∧
      ∀ d : BitVec 2, d = (k.c[0]).extractLsb' 8 2 →
        ((k.queue d.toNat).cmds.length < (if d = 0 then 32 else if d = 3 then 16 else 64) →
          (t.core c).stall = k.stall ∧
          ((t.core c).queue d.toNat).cmds.map QCmd.words = (k.queue d.toNat).cmds.map QCmd.words ++ [stagedCommand k ra] ∧
          ∀ x : BitVec 2, x ≠ d → (t.core c).queue x.toNat = k.queue x.toNat) ∧
        ((if d = 0 then 32 else if d = 3 then 16 else 64) ≤ (k.queue d.toNat).cmds.length →
          (∃ cmd, (t.core c).stall = .push cmd d.toNat ∧ cmd.words = stagedCommand k ra) ∧ (t.core c).queues = k.queues)) ∧
    (∀ cmd, k.stall = .push cmd e.toNat → cmdEng cmd.words = e.toNat → cmdHandles cmd.words = [] → k.dcache.length ≤ 256 →
      q.cmds.length < depth → q.seen.length < depth → k.haltNext = false →
      ∃ t, exec (.pushStallEnd c) s = .next t ∧ OnlyCore s t c ∧ (t.core c).stall = .none ∧ (t.core c).pc = k.pc ∧
        ((t.core c).queue e.toNat).cmds.map QCmd.words = q.cmds.map QCmd.words ++ [cmd.words]) ∧
    (∀ cmd, k.stall = .push cmd e.toNat → depth ≤ q.seen.length → exec (.pushStallEnd c) s = .next s) ∧
    RegisterResult (.qlvl c rd e) s c (0x29#6 ++ rd ++ ra ++ e ++ imm) rd (BitVec.ofNat 64 q.cmds.length) ∧
    (Ready s c (0x2A#6 ++ rd ++ ra ++ e ++ imm) → ∃ t, exec (.qdue c ra e) s = .next t ∧ OnlyCore s t c ∧
      t.core c = { k.advance with dueNext := (t.core c).dueNext } ∧
      (t.core c).settleDues.dues[e.toNat]? = some ((k.rg ra).setWidth 32, true) ∧
      ∀ d, d ≠ e.toNat → (t.core c).settleDues.dues[d]? = k.settleDues.dues[d]?)

/-- R225 to R229: the staging registers, PUSH and its stall, QLVL and QDUE. -/
def Obligations.CommandsAreBuilt : Prop := StagingWrites ∧ QueuesTakeCommands

/-- R238: the local flags. A clear leaves a flag set that another source has set in the same tick. -/
def Obligations.FlagsAct : Prop :=
  ∀ (s : State) (c : Nat) (rd ra : BitVec 5) (e : BitVec 2) (imm : BitVec 14),
    let k := s.core c
    let n := ((k.rg ra).toNat + imm.toNat) % 64
    let setInTick := (k.setNow ||| k.setStream).getLsbD n
    (Ready s c (0x2C#6 ++ rd ++ ra ++ e ++ imm) → ∃ t, exec (.fset c ra imm) s = .next t ∧ OnlyCore s t c ∧
      t.core c = { k.advance with flags := (t.core c).flags, setNow := (t.core c).setNow } ∧
      (∀ b, b < 64 → (t.core c).flag b = (b == n || k.flag b)) ∧
      ∀ b, b < 64 → (t.core c).setNow.getLsbD b = (b == n || k.setNow.getLsbD b)) ∧
    (Ready s c (0x2D#6 ++ rd ++ ra ++ e ++ imm) → ∃ t, exec (.fclr c ra imm) s = .next t ∧ OnlyCore s t c ∧
      t.core c = { k.advance with flags := (t.core c).flags } ∧
      (setInTick = false → ∀ b, b < 64 → (t.core c).flag b = (b != n && k.flag b)) ∧
      (setInTick = true → (t.core c).flags = k.flags)) ∧
    PredicateResult (.ftst c rd ra imm) s c (0x2E#6 ++ rd ++ ra ++ e ++ imm) (rd.setWidth 3) (k.flag n) ∧
    (k.flag n = true → RegisterResult (.fwait c rd ra imm) s c (0x2F#6 ++ rd ++ ra ++ e ++ imm) rd 0) ∧
    (k.flag n = false → Ready s c (0x2F#6 ++ rd ++ ra ++ e ++ imm) → ∃ t, exec (.fwait c rd ra imm) s = .next t ∧
      OnlyCore s t c ∧ t.core c = { k.advance with stall := .flag n rd, stallTick := s.ticks }) ∧
    (k.stall = .flag n rd → k.flag n = true → k.haltNext = false → ∃ t, exec (.fwaitRelease c) s = .next t ∧
      OnlyCore s t c ∧ (∀ r, (t.core c).rg r = if r = 0 then 0 else if r = rd then 0 else k.rg r) ∧
      t.core c = { k with g := (t.core c).g, stall := .none })

/-- A core may use an object of a kind: the kind and the job agree, and a secure object is used by a secure core (R317, R378). -/
def MayUse (s : State) (c n kind : Nat) : Prop :=
  s.objKind n = kind ∧ s.objJob n = s.coreJob c ∧ (s.objSecure n = true → s.coreSecure c = true)

/-- Everything but core `c`, object `n` and the wait requests is as it was. -/
def OnlyObject (s t : State) (c n : Nat) : Prop :=
  (∀ d, d ≠ c → t.core d = s.core d) ∧ (∀ m, m ≠ n → t.obj m = s.obj m) ∧
  { t with cores := s.cores, objs := s.objs, waiters := s.waiters } = s

/-- R239, R368, R370 and R378: the counter operations of a control core, and the ends of their stalls. That a CTRADD acts when it
issues, its reply standing in the core's stall until the reply command, is the model's choice (log 9). -/
def CountersAct : Prop :=
  ∀ (s : State) (c : Nat) (rd ra rb : BitVec 5) (func : BitVec 11),
    let k := s.core c
    let n := ((k.rg ra).toNat + func.toNat) % 16384
    let v := k.rg rb
    let add := 0x30#6 ++ rd ++ ra ++ rb ++ func
    let wait := 0x31#6 ++ rd ++ ra ++ rb ++ func
    (Ready s c add → MayUse s c n 1 → ∃ t, exec (.ctradd c rd ra rb func) s = .next t ∧ OnlyObject s t c n ∧
      t.obj n = { s.obj n with value := (s.obj n).value + v } ∧
      t.core c = { k.advance with stall := .reply rd (s.obj n).value, stallTick := s.ticks } ∧
      t.waiters.map Prod.fst = s.waiters.map Prod.fst ∧
      ∀ e ∈ t.waiters, e.2.obj = n → e.2.isSluice = false → e.2.refused = false →
        e.2.operand.toInt ≤ ((s.obj n).value + v).toInt → e.2.released = true) ∧
    (Ready s c add → s.objSecure n = false → s.objJob n ≠ s.coreJob c → ∃ t, exec (.ctradd c rd ra rb func) s = .next t ∧
      (∀ m, t.obj m = s.obj m) ∧ t.core c = { k.advance with stall := .reply rd 0, stallTick := s.ticks } ∧
      t.fld syReject 0 32 = (s.fld syReject 0 32 + 1) % 2 ^ 32) ∧
    (∀ x, k.stall = .reply rd x → k.haltNext = false → ∃ t, exec (.ctraddReply c) s = .next t ∧ OnlyCore s t c ∧
      (∀ r, (t.core c).rg r = if r = 0 then 0 else if r = rd then x else k.rg r) ∧
      t.core c = { k with g := (t.core c).g, stall := .none }) ∧
    (MayUse s c n 1 → v.toInt ≤ (s.obj n).value.toInt → RegisterResult (.ctrwait c rd ra rb func) s c wait rd 0) ∧
    (Ready s c wait → MayUse s c n 1 → (s.obj n).value.toInt < v.toInt → ∃ t, exec (.ctrwait c rd ra rb func) s = .next t ∧
      OnlyObject s t c n ∧ t.obj n = s.obj n ∧
      t.core c = { k.advance with stall := .counter n rd v, stallTick := s.ticks } ∧
      t.waiters.find? (fun e => e.1 == c) =
        some (c, { obj := n, operand := v, isSluice := false, refused := false, released := false })) ∧
    (Ready s c wait → s.objSecure n = false → s.objJob n ≠ s.coreJob c → ∃ t, exec (.ctrwait c rd ra rb func) s = .next t ∧
      (∀ m, t.obj m = s.obj m) ∧ t.core c = { k.advance with stall := .counter n rd v, stallTick := s.ticks } ∧
      t.fld syReject 0 32 = (s.fld syReject 0 32 + 1) % 2 ^ 32 ∧
      t.waiters.find? (fun e => e.1 == c) =
        some (c, { obj := n, operand := v, isSluice := false, refused := true, released := false })) ∧
    (∀ m, k.stall = .counter m rd v → k.haltNext = false → (∃ w, (c, w) ∈ s.waiters ∧ w.released = true) →
      ∃ t, exec (.ctrwaitRelease c) s = .next t ∧ OnlyObject s t c n ∧ t.obj n = s.obj n ∧
        (∀ r, (t.core c).rg r = if r = 0 then 0 else if r = rd then 0 else k.rg r) ∧
        t.core c = { k with g := (t.core c).g, stall := .none } ∧ ∀ e ∈ t.waiters, e.1 ≠ c)

/-- R239, R372, R373, R374 and R378: the sluice operations of a control core, those that a job's mismatch refuses among them. A
module that shares a sluice with others sends its token when the local count is complete, which is no part of this statement. That
an SLARR acts when it issues, its reply standing in the core's stall until the reply command, is the model's choice (log 9). -/
def SluicesAct : Prop :=
  ∀ (s : State) (c : Nat) (rd ra rb : BitVec 5) (func : BitVec 11),
    let k := s.core c
    let n := ((k.rg ra).toNat + func.toNat) % 16384
    let o := s.obj n
    let v := k.rg rb
    let arr := 0x32#6 ++ rd ++ ra ++ rb ++ func
    let wait := 0x33#6 ++ rd ++ ra ++ rb ++ func
    let joined : Reg := if o.sense then 1 else 0
    (Ready s c arr → MayUse s c n 2 → Quiet s → o.arrived + 1 ≠ s.objLocal n → o.arrived < 65535 →
      ∃ t, exec (.slarr c rd ra func) s = .next t ∧ OnlyObject s t c n ∧ t.obj n = { o with arrived := o.arrived + 1 } ∧
        t.core c = { k.advance with stall := .reply rd joined, stallTick := s.ticks }) ∧
    (Ready s c arr → MayUse s c n 2 → Quiet s → o.arrived + 1 = s.objLocal n → o.remote = false → s.objRanks n ≤ 1 →
      ∃ t, exec (.slarr c rd ra func) s = .next t ∧ OnlyObject s t c n ∧
        (t.obj n).arrived = 0 ∧ (t.obj n).sense = !o.sense ∧ (t.obj n).phases = o.phases + 1 ∧
        t.core c = { k.advance with stall := .reply rd joined, stallTick := s.ticks } ∧
        ∀ e ∈ t.waiters, e.2.obj = n → e.2.isSluice = true → e.2.refused = false →
          (e.2.operand.toNat % 2 = 1 ↔ o.sense = true) → e.2.released = true) ∧
    (Ready s c arr → Quiet s → s.objSecure n = false → s.objJob n ≠ s.coreJob c → ∃ t, exec (.slarr c rd ra func) s = .next t ∧
      (∀ m, t.obj m = s.obj m) ∧ t.core c = { k.advance with stall := .reply rd 0, stallTick := s.ticks } ∧
      t.fld syReject 0 32 = (s.fld syReject 0 32 + 1) % 2 ^ 32) ∧
    (Ready s c wait → s.objSecure n = false → s.objJob n ≠ s.coreJob c → ∃ t, exec (.slwait c rd ra rb func) s = .next t ∧
      (∀ m, t.obj m = s.obj m) ∧
      t.core c = { k.advance with stall := .sluice n rd (decide (v.toNat % 2 = 1)), stallTick := s.ticks } ∧
      t.fld syReject 0 32 = (s.fld syReject 0 32 + 1) % 2 ^ 32 ∧
      t.waiters.find? (fun e => e.1 == c) =
        some (c, { obj := n, operand := v, isSluice := true, refused := true, released := false })) ∧
    (MayUse s c n 2 → (v.toNat % 2 = 1 ↔ o.sense = false) → RegisterResult (.slwait c rd ra rb func) s c wait rd 0) ∧
    (Ready s c wait → MayUse s c n 2 → (v.toNat % 2 = 1 ↔ o.sense = true) → ∃ t, exec (.slwait c rd ra rb func) s = .next t ∧
      OnlyObject s t c n ∧ t.obj n = o ∧
      t.core c = { k.advance with stall := .sluice n rd o.sense, stallTick := s.ticks } ∧
      t.waiters.find? (fun e => e.1 == c) =
        some (c, { obj := n, operand := v, isSluice := true, refused := false, released := false })) ∧
    (∀ m x, k.stall = .sluice m rd x → k.haltNext = false → (∃ w, (c, w) ∈ s.waiters ∧ w.released = true) →
      ∃ t, exec (.slwaitRelease c) s = .next t ∧ OnlyObject s t c n ∧ t.obj n = o ∧
        (∀ r, (t.core c).rg r = if r = 0 then 0 else if r = rd then 0 else k.rg r) ∧
        t.core c = { k with g := (t.core c).g, stall := .none } ∧ ∀ e ∈ t.waiters, e.1 ≠ c)

/-- R239, R368, R370, R372 to R374 and R378: counters and sluices, as a control core uses them; when CTRADD and SLARR act is the
model's choice (log 9). -/
def Obligations.ObjectsAct : Prop := CountersAct ∧ SluicesAct

/-- R207, R240, R241 and R246: EVT, STEP, HALT and a word that no instruction has. STEP is stated for a core whose queues have
room. -/
def Obligations.EventsStepsHalts : Prop :=
  ∀ (s : State) (c : Nat) (rd ra : BitVec 5) (e : BitVec 2) (imm : BitVec 14) (x : BitVec 26) (w : Word),
    let k := s.core c
    (∀ l, Ready s c (0x34#6 ++ rd ++ ra ++ e ++ imm) → k.launch = some l → ∃ t, exec (.evt c ra imm) s = .next t ∧
      BesidesRecords (s.setCore c k.advance) t ∧
      t = (s.setCore c k.advance).post
        { type := 1, job := l.job, core := some c, hq := some l.hq, source := 0, step := s.fld (vxStep c) 0 48 }
        [(64, (k.rg ra).toNat), (14, imm.toNat)]) ∧
    (Ready s c (0x38#6 ++ x) → (∀ q, q < 4 → (k.queue q).cmds.length < queueDepth q) → ∃ t, exec (.step c) s = .next t ∧
      OnlyCore s t c ∧ (t.core c).stall = .stepWait false ∧ (t.core c).stallTick = s.ticks ∧
      (t.core c).pc = k.advance.pc ∧ (∀ r, (t.core c).rg r = k.rg r) ∧
      (∀ d : Fin 4, ((t.core c).dues[d]).2 = false) ∧
      ∀ q, q < 4 → ∃ y : QCmd, ((t.core c).queue q).cmds = (k.queue q).cmds ++ [y] ∧ y.implicit = true ∧
        cmdEng y.words = q ∧ cmdCode y.words = 0 ∧ y.words.getD 1 0 = k.cyc.setWidth 32) ∧
    (Ready s c (0x3F#6 ++ x) → ∃ t, exec (.halt c) s = .next t ∧ OnlyCore s t c ∧
      t.core c = { k.advance with mode := .halted, dues := (t.core c).dues, dueNext := [] } ∧
      (∀ d : Fin 4, ((t.core c).dues[d]) = ((k.dues[d]).1, false)) ∧ t.canIssue c = false) ∧
    (Ready s c w → opAssigned (w.toNat / 2 ^ 26) = false → ∃ t, exec (.unassignedOpcode c w) s = .next t ∧
      t = { s.setCore c k.advance with regs := t.regs } ∧ t.reg (ccCount c 3) = s.reg (ccCount c 3) + 1 ∧
      ∀ a, a ≠ ccCount c 3 → t.reg a = s.reg a)

/-- A core that cannot issue runs nothing: each of these commands leaves the block as it is (the model's choice, log 1). -/
def HaltedCoreUnaffected : Prop :=
  ∀ (s : State) (c : Nat) (rd ra rb : BitVec 5) (func : BitVec 11) (imm : BitVec 16) (qimm : BitVec 14),
    s.canIssue c = false →
    ∀ i ∈ [Instr.nop c, .alu c rd ra rb func, .addi c rd ra imm, .cmp c rd ra rb func, .mts c ra imm, .ld64 c rd ra imm,
      .st64 c rd ra imm, .jr c rd ra, .cseti c rd imm, .push c ra, .fset c ra qimm, .fwait c rd ra qimm,
      .ctradd c rd ra rb func, .ctrwait c rd ra rb func, .slwait c rd ra rb func, .evt c ra qimm, .step c, .halt c],
    exec i s = .next s

/-- Whether a core that waits so goes on to a next instruction: not one that stands in a STEP or at a step's entry. -/
def endsOwnWait : Stall → Bool
  | .none => false
  | .held => false
  | .stepPlace _ _ => false
  | .stepWait _ => false
  | .stepOver => false
  | _ => true

/-- Whether a core stands in a STEP. -/
def standsInStep : Stall → Bool
  | .stepPlace _ _ => true
  | .stepWait _ => true
  | .stepOver => true
  | _ => false

/-- R249 and R250: a fetched word of another epoch, or of epoch 0, is not executed; the control cores of the span halt, each at
its next instruction boundary, their dues are disarmed, and the fault records the PC, the tag and kind 1. That a member which
stands in a STEP halts at once, and that its implicit waits leave the queues, is the model's choice (log 72). -/
def StaleWordsFault : Prop :=
  ∀ (s : State) (c : Nat) (w : Word) (tag : BitVec 16) (rd ra : BitVec 5) (imm : BitVec 16),
    let members := match s.spanOf c with | some a => a.members | none => [c]
    s.canIssue c = true → s.fetched c = (w, tag) → tag ≠ (s.core c).epoch ∨ tag = 0 →
    ∀ i ∈ [Instr.nop c, .addi c rd ra imm, .st64 c rd ra imm, .jr c rd ra, .push c ra, .step c, .halt c],
    ∃ t, exec i s = .next t ∧
      t.reg (ccFault c) = BitVec.ofNat 64 ((s.core c).pc.toNat + tag.toNat * 2 ^ 16 + 2 ^ 32) ∧
      (∀ m ∈ members, (endsOwnWait (s.core m).stall = false → (t.core m).mode = .halted ∧ (t.core m).stall = .none) ∧
        (standsInStep (s.core m).stall = true → ∀ e, e < 4 →
          ((t.core m).queue e).cmds = ((s.core m).queue e).cmds.filter fun x => !x.implicit) ∧
        (standsInStep (s.core m).stall = false → (t.core m).queues = (s.core m).queues) ∧
        (endsOwnWait (s.core m).stall = true → (t.core m).haltNext = true ∧ (t.core m).stall = (s.core m).stall) ∧
        (∀ d : Fin 4, ((t.core m).dues[d]).2 = false)) ∧
      (∀ m, (t.core m).pc = (s.core m).pc ∧ (t.core m).pond = (s.core m).pond ∧
        (∀ e, e < 4 → ((t.core m).queue e).cmds.filter (fun x => !x.implicit) =
          ((s.core m).queue e).cmds.filter (fun x => !x.implicit)) ∧
        ∀ r, (t.core m).rg r = (s.core m).rg r) ∧
      (∀ m, m ∉ members → t.core m = s.core m)

/-- R246, R249, R250: a core that cannot issue runs nothing (log 1), and a word of another epoch faults; what a member that stands
in a STEP does then is the model's choice (log 72). -/
def Obligations.WordsNotExecuted : Prop := HaltedCoreUnaffected ∧ StaleWordsFault

/-- R468, R470, R471 and R473: the record of an EVT, as the event ring takes it: a non-secure launch, nothing pending, the ring
on and not full, the log ring off. -/
def Obligations.EventRecordWritten : Prop :=
  ∀ (s : State) (c : Nat) (rd ra : BitVec 5) (e : BitVec 2) (imm : BitVec 14) (l : CoreLaunch),
    let k := s.core c
    let tail := s.fld evPtr 24 24
    let a := s.fld evRingReg 0 40 + 32 * tail
    let tail' := (tail + 1) % 2 ^ s.fld evRingReg 40 5
    let flags := bitNat s.eventRing.phase + 2 * bitNat s.eventRing.gap + 4 + 8
    let record := leBytes 2 1 ++ leBytes 1 flags ++ leBytes 1 (l.job % 64) ++ leBytes 2 (c % 1024) ++ leBytes 1 l.hq ++
      leBytes 1 0 ++ leBytes 6 (s.fld (vxStep c) 0 48) ++ leBytes 2 s.eventRing.seq.toNat ++ leBytes 8 (k.rg ra).toNat ++
      leBytes 8 imm.toNat
    Ready s c (0x34#6 ++ rd ++ ra ++ e ++ imm) → k.launch = some l →
    s.coreSecure c = false → s.hqSecure l.hq = false → s.jobSecure l.job = false → s.roleUp 3 = true → s.pendRecs = [] →
    s.fld evRingReg 57 1 = 1 → s.eventRing.full = false → s.fld logRingReg 57 1 = 0 →
    s.fld evRingReg 0 40 % 32 = 0 → a + 32 ≤ s.capacity → s.mem.wf →
    ∃ t, exec (.evt c ra imm) s = .next t ∧ t.mem.wf ∧
      (∀ n, n < 32 → t.mem.byte (a + n) = record.getD n 0) ∧ (∀ x, x < a ∨ a + 32 ≤ x → t.mem.byte x = s.mem.byte x) ∧
      t.fld evPtr 24 24 = tail' % 2 ^ 24 ∧ t.fld evPtr 0 24 = s.fld evPtr 0 24 ∧
      t.eventRing.seq = s.eventRing.seq + 1 ∧ t.eventRing.gap = false ∧
      t.eventRing.phase = (if tail' = 0 then !s.eventRing.phase else s.eventRing.phase)

/-! ## Engines -/

/-- The command `x` heads queue `e` of core `c` and starts now: it stood in the queue before this tick, its skewed stamp is reached,
no IDLE ahead of it runs, its unit is free, no freeze is in effect or due, and it waits for nothing (R130, R149, R233, R256,
R290). -/
def Heads (s : State) (c e : Nat) (x : QCmd) (rest : List QCmd) : Prop :=
  s.hasCore c = true ∧ ((s.core c).queue e).cmds = x :: rest ∧ x.implicit = false ∧
  ((s.core c).queue e).fresh ≤ rest.length ∧
  reached (s.core c).cyc (s.skewed c (x.words.getD 1 0)) = true ∧
  ((s.core c).queue e).idleUntil.toNat ≤ (s.core c).cyc.toNat ∧
  ((s.core c).unitFree (cmdCode x.words) e).toNat ≤ (s.core c).cyc.toNat ∧ s.freezeDue c = false ∧ s.waits c x = false

/-- The control core's own state stays as it was. -/
def ControlSame (k k' : Core) : Prop :=
  k'.g = k.g ∧ k'.p = k.p ∧ k'.c = k.c ∧ k'.lc = k.lc ∧ k'.loops = k.loops ∧ k'.pc = k.pc ∧ k'.mode = k.mode ∧
  k'.stall = k.stall ∧ k'.epoch = k.epoch ∧ k'.cyc = k.cyc ∧ k'.shadow = k.shadow ∧ k'.imem = k.imem

/-- Queue `e` of core `c` has lost its head in the tick of the start (R228); no other queue and no other core changed, and the
control core's own state stays. -/
def Started (s t : State) (c e : Nat) (rest : List QCmd) : Prop :=
  ((t.core c).queue e).cmds = rest ∧ (∀ d, d < 4 → d ≠ e → (t.core c).queue d = (s.core c).queue d) ∧
  ControlSame (s.core c) (t.core c) ∧ (∀ d, d ≠ c → t.core d = s.core d)

/-- What identifies a run: its code, its words and its completion cycle. -/
def runNames (u : EUnit) : List (Nat × List Word × Reg) := u.runs.map fun r => (r.code, r.words, r.due)

/-- A run of `x` was added to a unit, due `comp` cycles from now, and the unit is busy for `occ` cycles. -/
def Runs (s : State) (c : Nat) (old new : EUnit) (x : QCmd) (occ comp : Nat) : Prop :=
  new.busyUntil = (s.core c).cyc + BitVec.ofNat 64 occ ∧
  runNames new = runNames old ++ [(cmdCode x.words, x.words, (s.core c).cyc + BitVec.ofNat 64 comp)]

/-- No flag of the core has been set, and no stream command has acted on one, in this tick. -/
def FlagsQuiet (k : Core) : Prop := k.setNow = 0 ∧ k.setStream = 0 ∧ k.acted = []

/-- A unit has done the work of this cycle: each run has read the pieces whose cycles have come and made the writes that are due
(R131, R171). -/
def Settled (s : State) (c : Nat) (u : EUnit) : Prop :=
  ∀ r ∈ u.runs, r.readBy (s.core c).cyc ≤ r.pos ∧ ∀ x ∈ r.later, (s.core c).cyc.toNat < x.1.toNat

/-- R228 and R277: IDLE on any engine, and its end. -/
def Obligations.IdleOccupiesQueue : Prop :=
  ∀ (s : State) (c e : Nat) (x : QCmd) (rest : List QCmd), e < 4 →
    (Heads s c e x rest → cmdCode x.words = 0 → ∃ t, exec (.idle c e) s = .next t ∧ Started s t c e rest ∧
      (t.core c).pond = (s.core c).pond ∧
      ((t.core c).queue e).idleUntil = (s.core c).cyc + BitVec.ofNat 64 (idleCount x.words) ∧
      (FlagsQuiet (s.core c) → ∀ n, n < 64 → (t.core c).flag n =
        ((s.core c).flag n && !(idleWait x.words && cmdBit x.words 0 12 && n == cmdField x.words 0 16 6))) ∧
      { t with cores := s.cores, regs := s.regs } = s) ∧
    (∀ d ds, s.hasCore c = true → s.freezeDue c = false → ((s.core c).queue e).idleRuns = d :: ds →
      d.toNat ≤ (s.core c).cyc.toNat → ∃ t, exec (.idleComplete c e) s = .next t ∧ OnlyCore s t c ∧
      (t.core c).queue e = { (s.core c).queue e with idleRuns := ds } ∧
      ∀ q, q < 4 → q ≠ e → (t.core c).queue q = (s.core c).queue q)

/-- Format of the operand of an MMA that a member takes: its own tile's on the edge of its span, else the one that comes through the
operand network (R151). -/
def takenFmt (s : State) (c : Nat) (isA : Bool) (d : Desc) : Nat :=
  let p := s.local c
  let own := if isA then p.1 else p.2
  let band := if isA then p.2 else p.1
  if own = 0 then d.fmt else (((s.spanOf c).bind fun a => a.wave (s.core c).mmaSeq isA band).map fun w => w.op.fmt).getD d.fmt

/-- R112, R114, R130, R131 and R151: the start of MMA, once its operands are at hand, where the array has done the work of this
cycle, with the cycles for which it takes the array and after which it completes. An MMA with K = 0 and CLEAR leaves the cleared bank. -/
def MmaStarts : Prop :=
  ∀ (s : State) (c : Nat) (x : QCmd) (rest : List QCmd), Heads s c 0 x rest → cmdCode x.words = 1 →
    Settled s c (s.core c).array →
    let k := s.core c
    let n := cmdField x.words 3 0 24
    let bn := cmdField x.words 0 13 1
    let da := s.mmaDesc c (cmdField x.words 2 0 12) (if cmdBit x.words 0 11 then 1 else 0)
    let db := s.mmaDesc c (cmdField x.words 2 12 12) (if cmdBit x.words 0 12 then 0 else 1)
    let copy := if cmdBit x.words 0 10 then decide (2 ≤ cmdField x.words 0 14 2) else (k.bank bn).copybook
    (s.mmaFed c n = true → ∃ t, exec (.mma c none) s = .next t ∧ Started s t c 0 rest ∧ (t.core c).mmaSeq = k.mmaSeq + 1 ∧
      (t.core c).pond = k.pond ∧ (t.core c).path = k.path ∧ (t.core c).bank (1 - bn) = k.bank (1 - bn) ∧
      (n = 0 → Runs s c k.array (t.core c).array x 1 1) ∧
      (n ≠ 0 → let occ := passes (takenFmt s c true da) (takenFmt s c false db) copy * (32 * ((n + 31) / 32))
        Runs s c k.array (t.core c).array x occ (occ + 100)) ∧
      ((t.core c).bank bn).inflight = (k.bank bn).inflight + 1 ∧ ((t.core c).bank bn).copybook = copy ∧
      (n = 0 → cmdBit x.words 0 10 = true → ((t.core c).bank bn).elems = [] ∧ ((t.core c).bank bn).valid = true) ∧
      (n = 0 → cmdBit x.words 0 10 = false → ((t.core c).bank bn).elems = (k.bank bn).elems)) ∧
    (s.mmaFed c n = false → exec (.mma c none) s = .next s)

/-- R126 to R131: the starts of DRAIN, WSTORE and WLOAD, with the cycles for which they take the drain path and after which they
complete. A drain changes no bank; a WLOAD gives its bank the tile, or adds it, and that it does so at its start is the model's
choice (log 56). -/
def PathStarts : Prop :=
  ∀ (s : State) (c : Nat) (x : QCmd) (rest : List QCmd), Heads s c 0 x rest →
    let k := s.core c
    let ws := x.words
    let bn := cmdField ws 0 10 1
    let d := s.drainOut c ws
    let w := ((s.desc c (reqHandle (cmdField ws 2 0 12))).inPond).withFmt [11]
    let fn := cmdField ws 0 16 3
    let shared := d.scaled && (match s.spanOf c with | some a => a.sharesBlock d (clamp48 (d.e 1)) (clamp48 (d.e 0)) | none => false)
    let begun := fun t : State => Started s t c 0 rest ∧ (t.core c).pond = k.pond ∧ (t.core c).array = k.array ∧
      (t.core c).pathSeq = k.pathSeq + 1
    (cmdCode ws = 2 → ∃ t, exec (.drain c) s = .next t ∧ begun t ∧
      (t.core c).bank0 = k.bank0 ∧ (t.core c).bank1 = k.bank1 ∧
      (d.count = 0 → Runs s c k.path (t.core c).path x 1 1) ∧
      (d.count ≠ 0 → let occ := clamp48 (d.e 1) * drainWidth d.fmt
        Runs s c k.path (t.core c).path x occ (occ + 14 + (if fn = 0 then 0 else 8) +
          (if cmdBit ws 0 12 then 4 else 0) + (if d.scaled then 40 else 0) + (if shared then 10 else 0)))) ∧
    (cmdCode ws = 4 → ∃ t, exec (.wstore c) s = .next t ∧ begun t ∧
      (t.core c).bank0 = k.bank0 ∧ (t.core c).bank1 = k.bank1 ∧
      (w.count = 0 → Runs s c k.path (t.core c).path x 1 1) ∧
      (w.count ≠ 0 → Runs s c k.path (t.core c).path x (8 * clamp48 (w.e 1)) (8 * clamp48 (w.e 1) + 14))) ∧
    (cmdCode ws = 3 → ∃ t, exec (.wload c none) s = .next t ∧ begun t ∧ (t.core c).bank (1 - bn) = k.bank (1 - bn) ∧
      (w.count = 0 → Runs s c k.path (t.core c).path x 1 1) ∧
      (w.count ≠ 0 → Runs s c k.path (t.core c).path x (8 * clamp48 (w.e 1)) (8 * clamp48 (w.e 1) + 10)) ∧
      (w.count = 0 ∨ s.takesPart c w = false → (t.core c).bank bn = k.bank bn) ∧
      (w.count ≠ 0 → s.takesPart c w = true → let b := (t.core c).bank bn
        b.copybook = false ∧ b.inflight = (k.bank bn).inflight ∧
        (cmdBit ws 0 11 = true → (k.bank bn).copybook = false →
          b.anchor = (k.bank bn).anchor ∧ b.valid = (k.bank bn).valid) ∧
        (cmdBit ws 0 11 = false ∨ (k.bank bn).copybook = true → b.anchor = w.anchor ∧ b.valid = true ∧
          (k.writing bn = [] → ∀ i j, i < 48 → j < 48 →
            if i < clamp48 (w.e 1) ∧ j < clamp48 (w.e 0) then
              let e := w.read (pondReader k.pond) [j, i, 0, 0, 0]
              (b.elem i j).special = Special.ofCode (e.tag % 4) ∧ (b.elem i j).sat = bitOf e.tag 2 ∧
              (b.elem i j).grid = bitOf e.tag 3 ∧ (b.elem i j).poison = e.poison ∧
              (e.tag % 4 = 0 → (b.elem i j).n = BitVec.ofInt 160 (signedOf 128 e.bits))
            else b.elem i j = Elem.zero))))

/-- R112, R114, R126 to R131 and R151: the starts of the matrix engine's commands, in a span or out of one. That a WLOAD's bank
has the tile from its start is the model's choice (log 56). -/
def Obligations.MatrixStarts : Prop := MmaStarts ∧ PathStarts

/-- A run of core `c` whose completion cycle is reached, while no freeze is in effect or due, and the first of its code to be due;
`others` are the runs that stay. -/
def Due (s : State) (c code : Nat) (u : EUnit) (r : Run) (others : List Run) : Prop :=
  s.hasCore c = true ∧ s.freezeDue c = false ∧ r.code = code ∧ r.due.toNat ≤ (s.core c).cyc.toNat ∧
  ∃ before after, u.runs = before ++ r :: after ∧ others = before ++ after ∧
    (∀ x ∈ before, x.code = code → r.due.toNat < x.due.toNat) ∧ (∀ x ∈ after, x.code = code → r.due.toNat ≤ x.due.toNat)

/-- A completion in core `c` leaves the control core, the queues, the other cores and device memory as they were. -/
def Completed (s t : State) (c : Nat) : Prop :=
  ControlSame (s.core c) (t.core c) ∧ (t.core c).queues = (s.core c).queues ∧ (t.core c).flags = (s.core c).flags ∧
  (∀ d, d ≠ c → t.core d = s.core d) ∧ t.mem = s.mem

/-- R131, R132, R137 and R138: the ends of the matrix engine's commands, where the array and the drain path have done the work of
this cycle. DRAIN is stated for a tile whose blocks no other member shares, and the span-wide record for a span of one member. That
a WLOAD's end leaves the bank as its start made it is the model's choice (log 56). -/
def Obligations.MatrixCompletions : Prop :=
  ∀ (s : State) (c : Nat) (r : Run) (rs : List Run),
    let k := s.core c
    let pathEnds := fun t : State => Completed s t c ∧ (t.core c).path.runs = rs ∧ (t.core c).bank0 = k.bank0 ∧
      (t.core c).bank1 = k.bank1
    let stores := fun t : State => pathEnds t ∧ (t.core c).pond = k.pond.apply r.write (fun a => a < 196608) ∧
      t.reg (cw c 0x81080) = s.reg (cw c 0x81080) + BitVec.ofNat 64 r.counts.sat ∧
      t.reg (cw c 0x81098) = s.reg (cw c 0x81098) + BitVec.ofNat 64 r.counts.nan
    (Due s c 1 k.array r rs → Settled s c k.array → ∃ t, exec (.mmaComplete c) s = .next t ∧ Completed s t c ∧ (t.core c).pond = k.pond ∧
      (t.core c).array.runs = rs ∧
      (t.core c).bank r.bank = { k.bank r.bank with inflight := (k.bank r.bank).inflight - 1 }) ∧
    (Due s c 2 k.path r rs → Settled s c k.path → r.outs = [] → ∃ t, exec (.drainComplete c) s = .next t ∧ stores t) ∧
    (Due s c 4 k.path r rs → Settled s c k.path → ∃ t, exec (.wstoreComplete c) s = .next t ∧ stores t) ∧
    (Due s c 3 k.path r rs → ∃ t, exec (.wloadComplete c) s = .next t ∧ pathEnds t ∧ (t.core c).pond = k.pond) ∧
    (∀ a y m p, s.hasCore c = true → s.freezeDue c = false → s.spanOf c = some a →
      a.drains.find? (fun z => z.left == 0) = some y → y.due.toNat ≤ k.cyc.toNat → y.addrs = [(m, p)] →
      ∃ t, exec (.drainRecordComplete c) s = .next t ∧
        (t.core m).pond = (s.core m).pond.write p ((y.counts.bytes ++
          (List.range 66).flatMap (fun i => leBytes 4 (y.bins.getD i 0)) ++ leBytes 2 (toSigned 16 y.anchor) ++ leBytes 6 0).take
            (196608 - p)) ∧
        (∀ d, d ≠ m → t.core d = s.core d) ∧ { t with cores := s.cores, active := s.active } = s ∧
        ∀ b ∈ t.active, b.corner = a.corner → ∀ z ∈ b.drains, z.seq ≠ y.seq)

/-- R166 and R192: the starts of VOP, VRED, UPD and RNG FILL, and the effect of RNG KEY, BIND and SEEK on their stream slot. A
command whose output tile is empty takes its unit for one cycle and writes nothing (R285). -/
def Obligations.VectorStarts : Prop :=
  ∀ (s : State) (c : Nat) (x : QCmd) (rest : List QCmd), Heads s c 1 x rest →
    let k := s.core c
    let ws := x.words
    let a := cmdField ws 3 0 18
    let n := cmdField ws 0 16 4
    let bytes := fun b m => s.slotBytes c b m
    let begun := fun t : State => Started s t c 1 rest ∧ (t.core c).array = k.array ∧ (t.core c).path = k.path ∧
      (t.core c).bank0 = k.bank0 ∧ (t.core c).bank1 = k.bank1 ∧ ∃ due, runNames (t.core c).vec = runNames k.vec ++ [(cmdCode ws, ws, due)]
    let slotted := fun t : State => Started s t c 1 rest ∧ (t.core c).pond = k.pond ∧ (t.core c).vec.runs = k.vec.runs ∧
      ∀ m : Fin 16, m.val ≠ n → (t.core c).slots[m] = k.slots[m]
    (cmdCode ws = 0x10 → ∃ t, exec (.vop c) s = .next t ∧ begun t ∧
      (((s.desc c (reqHandle (cmdField ws 2 0 12))).inPond).count = 0 → Runs s c k.vec (t.core c).vec x 1 1 ∧
        (Settled s c k.vec → (t.core c).pond = k.pond))) ∧
    (cmdCode ws = 0x11 → ∃ t, exec (.vred c) s = .next t ∧ begun t) ∧
    (cmdCode ws = 0x13 → ∃ t, exec (.upd c) s = .next t ∧ begun t) ∧
    (cmdCode ws = 0x12 → cmdField ws 0 10 2 = 0 → ∃ t, exec (.rngFill c) s = .next t ∧ begun t) ∧
    (cmdCode ws = 0x12 → cmdField ws 0 10 2 = 1 → ∃ t, exec (.rngKey c) s = .next t ∧ slotted t ∧
      (t.core c).vec.busyUntil = k.cyc + 4 ∧
      (t.core c).slot n = { k.slot n with
        k0 := BitVec.ofNat 32 (bytes (a / 16 * 16) 4), k1 := BitVec.ofNat 32 (bytes (a / 16 * 16 + 4) 4),
        k2 := BitVec.ofNat 32 (bytes (a / 16 * 16 + 8) 4), free := bytes (a / 16 * 16 + 12) 1 % 2 == 1 }) ∧
    (cmdCode ws = 0x12 → cmdField ws 0 10 2 = 2 → ∃ t, exec (.rngBind c) s = .next t ∧ slotted t ∧
      (t.core c).vec.busyUntil = k.cyc + 1 ∧
      (t.core c).slot n = { k.slot n with mbatch := BitVec.ofNat 24 (cmdField ws 3 0 24) }) ∧
    (cmdCode ws = 0x12 → cmdField ws 0 10 2 = 3 → ∃ t, exec (.rngSeek c) s = .next t ∧ slotted t ∧
      (t.core c).vec.busyUntil = k.cyc + 1 ∧
      (t.core c).slot n = { k.slot n with cursor := BitVec.ofNat 64 (bytes (a / 8 * 8) 8) })

/-- R189 and R198: the ends of the vector engine's commands, where the unit has done the work of this cycle: the run leaves, its
counts are added, its draws advance the slot's cursor, and its count record is due 4 cycles later. -/
def Obligations.VectorCompletions : Prop :=
  ∀ (s : State) (c : Nat) (r : Run) (rs : List Run),
    ∀ p ∈ [(Instr.vopComplete c, 0x10), (.vredComplete c, 0x11), (.rngFillComplete c, 0x12), (.updComplete c, 0x13)],
    let k := s.core c
    Due s c p.2 k.vec r rs → Settled s c k.vec → ∃ t, exec p.1 s = .next t ∧ Completed s t c ∧
      (t.core c).vec.runs = rs ∧ (t.core c).array = k.array ∧ (t.core c).path = k.path ∧ (t.core c).pond = k.pond ∧
      (r.record = none → (t.core c).records = k.records) ∧
      (∀ a, r.record = some a → (t.core c).records = k.records ++ [(k.cyc + 4, a, r.counts.bytes)]) ∧
      (r.cursor = none → (t.core c).slots = k.slots) ∧
      (∀ n v, r.cursor = some (n, v) → n < 16 → ((t.core c).slot n).cursor = v) ∧
      t.reg (cw c 0x81410) = s.reg (cw c 0x81410) + BitVec.ofNat 64 r.counts.sat ∧
      t.reg (cw c 0x81428) = s.reg (cw c 0x81428) + BitVec.ofNat 64 r.counts.nan

/-- A stream command began a transfer: it stands last among those outstanding, with the next identity, and CLRF cleared its
flag (R267, R275). -/
def Transfers (s t : State) (c : Nat) (x : QCmd) : Prop :=
  (∃ y : Xfer, (t.core c).xfers = (s.core c).xfers ++ [y] ∧ y.id = (s.core c).nextXfer ∧ y.code = cmdCode x.words ∧
    y.words = x.words) ∧ (t.core c).nextXfer = (s.core c).nextXfer + 1 ∧
  (FlagsQuiet (s.core c) →
    ∀ n, n < 64 → (t.core c).flag n = ((s.core c).flag n && !(cmdBit x.words 0 11 && n == cmdField x.words 0 16 6)))

/-- R267, R271, R272 and R275: the starts of the stream engine's transfers, none of which waits for the data. That errors found in
the core itself (R484) act with an LDT is the model's choice (log 53). SEND and COLL may put frames on the module's own wires at once, and a RECV takes what has
come of its message, which the answer then delivers. -/
def Obligations.StreamStarts : Prop :=
  ∀ (s : State) (c : Nat) (x : QCmd) (rest : List QCmd), Heads s c 2 x rest → (s.core c).outstanding ≤ 32 →
    let ws := x.words
    (cmdCode ws = 0x20 → ∃ t, exec (.ldt c []) s = .next t ∧ Started s t c 2 rest ∧ Transfers s t c x ∧
      (t.core c).pond = (s.core c).pond ∧
      ∀ es, (∀ e ∈ es, foundBy c false e = true) → exec (.ldt c es) s = .next (es.foldl State.memError t)) ∧
    (cmdCode ws = 0x21 → ∃ t, exec (.stt c) s = .next t ∧ Started s t c 2 rest ∧ Transfers s t c x ∧
      (t.core c).pond = (s.core c).pond ∧ t.mem = s.mem) ∧
    (cmdCode ws = 0x22 → cmdBit ws 0 12 = false → ∃ t, exec (.prf c) s = .next t ∧ Started s t c 2 rest ∧ Transfers s t c x ∧
      (t.core c).pond = (s.core c).pond ∧ t.mem = s.mem) ∧
    (cmdCode ws = 0x22 → cmdBit ws 0 12 = true → ∃ t, exec (.prfScan c) s = .next t ∧ Started s t c 2 rest ∧
      Transfers s t c x ∧ (t.core c).pond = (s.core c).pond ∧ t.mem = s.mem) ∧
    (cmdCode ws = 0x23 → ∃ u, exec (.send c) s = .next u.settle ∧ Started s u c 2 rest ∧ Transfers s u c x ∧
      (u.core c).pond = (s.core c).pond ∧ u.mem = s.mem) ∧
    (cmdCode ws = 0x24 → ∃ u, exec (.recv c) s = .next u.settle ∧ Started s u c 2 rest ∧ Transfers s u c x ∧
      (u.core c).pond = (s.core c).pond ∧ u.mem = s.mem) ∧
    ∀ p ∈ [(Instr.collReduceScatter c, 0), (.collAllGather c, 1), (.collAllReduce c, 2), (.collBroadcast c, 3)],
      cmdCode ws = 0x25 → collOp ws = p.2 → ∃ u, exec p.1 s = .next u.settle ∧ ((u.core c).queue 2).cmds = rest ∧
        Transfers s u c x ∧ ControlSame (s.core c) (u.core c) ∧
        (bitOf (s.collConfig (collChan ws) (s.chanSeq (collChan ws) c)) 45 = true →
          bitsOf (s.collConfig (collChan ws) (s.chanSeq (collChan ws) c)) 36 6 = s.coreJob c → u.chanSeq (collChan ws) c = s.chanSeq (collChan ws) c + 1)

/-- An outstanding transfer of core `c`. -/
def Outstanding (s : State) (c code id : Nat) (x : Xfer) : Prop :=
  s.hasCore c = true ∧ (s.core c).xfers.find? (fun y => y.id == id && y.code == code) = some x

/-- A transfer ended: it is no longer outstanding, and SETF set its flag (R270, R272). -/
def Ended (s t : State) (c : Nat) (x : Xfer) : Prop :=
  (t.core c).xfers = (s.core c).xfers.filter (fun y => y.id != x.id) ∧ ControlSame (s.core c) (t.core c) ∧
  (t.core c).queues = (s.core c).queues ∧
  (FlagsQuiet (s.core c) →
    ∀ n, n < 64 → (t.core c).flag n = ((s.core c).flag n || (cmdBit x.words 0 10 && n == cmdField x.words 0 16 6)))

/-- R156, R267 to R272, R310 and R414: the ends of the stream engine's transfers. LDT and STT copy their tile where they move one,
each after the earlier ones of its core to the same lines, and a COLL that waited for them goes on; a PRF and a SEND change no
pond; a RECV writes the next message of its flow as the image of its tile; a COLL ends once its result is ready; a member joins a
scan once, and the scan ends in every member of its span at once, with the last of them, and writes the anchor there. SEND, RECV
and COLL end without effect where their flow carries no traffic of the job any more. That LDT, STT and a scan read and write at
their end, that their order is that of their starts, that a member whose operands have no element joins without exponents, and
that SPACE is read as 0 for SEND and RECV, are the model's choices (logs 5, 59, 60, 61). -/
def Obligations.StreamCompletions : Prop :=
  ∀ (s : State) (c k : Nat) (x : Xfer),
    let f := s.sendFlow c x.words
    let usable := s.flowUsable f (s.coreJob c)
    let moves := fun (i : Instr) (moved : State) => ∃ u, exec i s = .next (u.resumeColls c) ∧ Ended s u c x ∧
      (u.core c).pond = ((if x.empty then s else moved).core c).pond ∧ u.mem = (if x.empty then s else moved).mem ∧
      (∀ d, d ≠ c → u.core d = s.core d) ∧ ((∀ y ∈ s.colls, y.core = c → y.late = false) → u.resumeColls c = u)
    (Outstanding s c 0x20 k x → s.inOrder c x = true → moves (.ldtComplete c k) (s.loadTile c x.words)) ∧
    (Outstanding s c 0x21 k x → s.inOrder c x = true → moves (.sttComplete c k) (s.storeTile c x.words)) ∧
    (∀ code, (code = 0x20 ∨ code = 0x21) → Outstanding s c code k x → s.inOrder c x = false →
      exec (if code = 0x20 then .ldtComplete c k else .sttComplete c k) s = .next s) ∧
    (Outstanding s c 0x22 k x → x.scan = none → ∃ t, exec (.prfComplete c k) s = .next t ∧ Ended s t c x ∧
      (t.core c).pond = (s.core c).pond ∧ ∀ d, d ≠ c → t.core d = s.core d) ∧
    (∀ a q, Outstanding s c 0x22 k x → x.scan = some q → s.spanOf c = some a → a.x0 + a.w ≤ 32 →
      let joined := ((a.scans.find? fun z => z.seq == q).map fun z => z.joined).getD 0
      (∀ y, x.done = true → a.scans.find? (fun z => z.seq == q) = some y → y.joined = a.w * a.h → ∃ t, exec (.prfComplete c k) s = .next t ∧
        t.mem = s.mem ∧ (∀ m, m ∉ a.members → t.core m = s.core m) ∧
        ∀ m ∈ a.members, ∀ z, (s.core m).xfers.find? (fun z => z.scan == some q) = some z → Ended s t m z ∧
          (t.core m).pond = (s.core m).pond ∧
          (z.empty = false → t.fld (cw m (0x81020 + 8 * cmdField z.words 0 22 3)) 0 11 =
            toSigned 11 (scanAnchor (max 1 (cmdField z.words 7 0 24)) y.blocks) % 2 ^ 11)) ∧
      (x.done = true → joined ≠ a.w * a.h → exec (.prfComplete c k) s = .next s) ∧
      (x.done = false → s.inOrder c x = false → exec (.prfComplete c k) s = .next s) ∧
      (x.done = false → s.inOrder c x = true → joined + 1 < a.w * a.h → ∃ t, exec (.prfComplete c k) s = .next t ∧
        t.core c = { s.core c with xfers := (s.core c).xfers.map fun z => if z.id = x.id then { z with done := true } else z } ∧
        (∀ d, d ≠ c → t.core d = s.core d) ∧
        ∃ b ∈ t.active, b.corner = a.corner ∧ ∃ z ∈ b.scans, z.seq = q ∧ z.joined = joined + 1) ∧
      (x.done = false → s.inOrder c x = true → joined + 1 = a.w * a.h → ∃ t, exec (.prfComplete c k) s = .next t ∧
        (∀ m, m ∉ a.members → t.core m = s.core m) ∧ (∀ m ∈ a.members, (t.core m).pond = (s.core m).pond) ∧
        ∀ m ∈ a.members, ∀ z, (s.core m).xfers.find? (fun z => z.scan == some q) = some z →
          (t.core m).xfers = ((s.core m).xfers.filter fun w => w.id != z.id).map fun w =>
            if m = c ∧ w.id = x.id then { w with done := true } else w)) ∧
    (Outstanding s c 0x23 k x → (x.empty = true ∨ usable = false ∨ ∀ y ∈ (s.flow f).txq, y.2 ≠ some (c, k)) →
      ∃ t, exec (.sendComplete c k) s = .next t ∧ Ended s t c x ∧ OnlyCore s t c ∧ (t.core c).pond = (s.core c).pond) ∧
    (Outstanding s c 0x24 k x → x.empty = true ∨ usable = false →
      ∃ t, exec (.recvComplete c k) s = .next t ∧ Ended s t c x ∧ OnlyCore s t c ∧ (t.core c).pond = (s.core c).pond) ∧
    (∀ bytes bad, Outstanding s c 0x24 k x → x.empty = false → usable = true → s.mayTake f = true →
      s.peekMessage f = some (bytes, bad) → s.recvFirst c f k = true →
      ∃ u, exec (.recvComplete c k) s = .next u.settle ∧ Ended s u c x ∧
        (u.core c).pond = (s.core c).pond.apply ((s.sendTile c x.words).imageWrite (bytes.zip bad)) (fun a => a < 196608) ∧
        ∀ d, d ≠ c → u.core d = s.core d) ∧
    (Outstanding s c 0x25 k x → x.empty = true → ∃ t, exec (.collComplete c k) s = .next t ∧ Ended s t c x ∧ OnlyCore s t c ∧
      (t.core c).pond = (s.core c).pond) ∧
    (∀ y, Outstanding s c 0x25 k x → x.empty = false → s.colls.find? (fun z => z.core == c && z.xfer == k) = some y →
      (y.empty = false → s.collCut y = true → ∃ u, exec (.collComplete c k) s = .next u.settle ∧ Ended s u c x ∧
        u = (s.collEnded { y with empty := true, sum := Summary.none }).endXfer c x) ∧
      (y.empty = true ∨ s.collCut y = false → y.stage = 4 → y.waiting = false → y.empty = true ∨ s.inOrder c x = true →
        ∃ u, exec (.collComplete c k) s = .next u.settle ∧ Ended s u c x ∧
          u = (if y.empty then s.collEnded y else s.finishColl y).endXfer c x))

/-- R274: FLAG WAIT, SET, CLR and CTRADD, at once where nothing is outstanding, and kept behind what is. -/
def FlagCommands : Prop :=
  ∀ (s : State) (c : Nat) (x : QCmd) (rest : List QCmd), Heads s c 2 x rest → (s.core c).outstanding ≤ 32 →
    cmdCode x.words = 0x26 → FlagsQuiet (s.core c) →
    let ws := x.words
    let n := cmdField ws 0 16 6
    let o := cmdField ws 2 0 14
    let add := BitVec.ofInt 64 (signedOf 32 (cmdField ws 3 0 32))
    let mine := s.objKind o = 1 ∧ s.objJob o = s.coreJob c ∧ (s.objSecure o = true → s.streamSecure c = true)
    let kept := fun t : State => Started s t c 2 rest ∧ (t.core c).flags = (s.core c).flags ∧
      (∀ m, t.obj m = s.obj m) ∧ ∃ y : Xfer, (t.core c).xfers = (s.core c).xfers ++ [y] ∧ y.id = (s.core c).nextXfer ∧
        y.words = ws
    (cmdField ws 0 10 2 = 0 → ∃ t, exec (.flagWait c) s = .next t ∧ Started s t c 2 rest ∧
      ∀ b, b < 64 → (t.core c).flag b = ((s.core c).flag b && !(cmdBit ws 0 12 && b == n))) ∧
    (cmdField ws 0 10 2 = 1 → (s.core c).xfers = [] → ∃ t, exec (.flagSet c) s = .next t ∧ Started s t c 2 rest ∧
      ∀ b, b < 64 → (t.core c).flag b = ((s.core c).flag b || b == n)) ∧
    (cmdField ws 0 10 2 = 2 → (s.core c).xfers = [] → ∃ t, exec (.flagClr c) s = .next t ∧ Started s t c 2 rest ∧
      ∀ b, b < 64 → (t.core c).flag b = ((s.core c).flag b && b != n)) ∧
    (cmdField ws 0 10 2 = 3 → (s.core c).xfers = [] → mine → ∃ t, exec (.flagCtradd c) s = .next t ∧
      Started s t c 2 rest ∧ (t.core c).flags = (s.core c).flags ∧
      t.obj o = { s.obj o with value := (s.obj o).value + add } ∧ ∀ m, m ≠ o → t.obj m = s.obj m) ∧
    ((s.core c).xfers ≠ [] →
      (cmdField ws 0 10 2 = 1 → ∃ t, exec (.flagSet c) s = .next t ∧ kept t) ∧
      (cmdField ws 0 10 2 = 2 → ∃ t, exec (.flagClr c) s = .next t ∧ kept t) ∧
      (cmdField ws 0 10 2 = 3 → ∃ t, exec (.flagCtradd c) s = .next t ∧ kept t))

/-- R274: a kept action acts once every stream command that started before it has completed; a CTRADD acts in the stream engine's
world (R315, R378). -/
def KeptFlagActions : Prop :=
  ∀ (s : State) (c k : Nat) (x : Xfer) (xs : List Xfer), s.hasCore c = true →
    (s.core c).xfers = x :: xs → x.id = k → x.code = 0x26 → FlagsQuiet (s.core c) →
    let n := cmdField x.words 0 16 6
    let o := cmdField x.words 2 0 14
    ∃ t, exec (.flagActionDue c k) s = .next t ∧ (t.core c).xfers = xs.filter (fun y => y.id != k) ∧
      (∀ d, d ≠ c → t.core d = s.core d) ∧ (t.core c).pond = (s.core c).pond ∧
      (cmdField x.words 0 10 2 = 1 → OnlyCore s t c ∧ ∀ b, b < 64 → (t.core c).flag b = ((s.core c).flag b || b == n)) ∧
      (cmdField x.words 0 10 2 = 2 → OnlyCore s t c ∧ ∀ b, b < 64 → (t.core c).flag b = ((s.core c).flag b && b != n)) ∧
      (3 ≤ cmdField x.words 0 10 2 → s.objKind o = 1 → s.objJob o = s.coreJob c →
        (s.objSecure o = true → s.streamSecure c = true) →
        (t.obj o).value = (s.obj o).value + BitVec.ofInt 64 (signedOf 32 (cmdField x.words 3 0 32)))

/-- R274: the FLAG commands of the stream engine, at once or kept behind what is outstanding. -/
def Obligations.FlagCommandsAct : Prop := FlagCommands ∧ KeptFlagActions

/-- R331 to R340: the reservoir's commands, where the unit has done the work of this cycle: a push takes units of the staging area
that are free for its entry, writes the trailer and the first 256 bytes of the tile there and raises DEPTH, a pop at depth 0 writes
a zero tile and counts in RV_EMPTY, a pop takes the staged top entry, their ends, and the ends of the path's writes and fetches.
Which bytes of the tile a push reads in a cycle, and that any free units may be taken, are the model's choices (logs 5, 62). -/
def Obligations.ReservoirMoves : Prop :=
  ∀ (s : State) (c : Nat) (x : QCmd) (rest : List QCmd) (r : Run) (rs : List Run),
    let k := s.core c
    let d := s.rsvTile c x.words
    let ch := rsvChan x.words
    let depth := s.fld (rvChan c ch) 32 32
    let stage := s.fld (rvStage c) 18 18
    let sec := s.streamSecure c
    (Heads s c 3 x rest → cmdCode x.words = 0x30 → ∃ t, exec (.rsvpush c) s = .next t ∧ Started s t c 3 rest ∧
      (d.count ≠ 0 → s.takesPart c d = true → d.padded + 64 ≤ stage →
        (∃ y : Staged, (t.core c).staged = k.staged ++ [y] ∧ y.chan = ch ∧ y.addr = s.fld (rvChanBase c ch) 0 40 + depth ∧
          y.size = d.padded + 64 ∧ y.st = .pushed ∧ y.copying = true ∧ y.popped = false ∧ (∀ u ∈ y.units, u ∈ s.freeStage c) ∧
          (Settled s c k.rsv → k.pond.wf → d.padded + 64 ≤ 64 * (s.freeStage c).length → ∀ n, n < d.padded + 64 →
            n < 256 ∨ d.padded ≤ n → (t.stageRead c y).1.getD n 0 =
              if n < d.padded then ((s.rsvData c x.words).getD n (0, false)).1
              else (rsvTrailer d.padded (rsvLayer x.words) (rsvMbatch x.words) d.fmt (s.fld (vxStep c) 0 48)).getD (n - d.padded) 0)) ∧
        t.fld (rvChan c ch) 32 32 = (depth + d.padded + 64) % 2 ^ 32 ∧
        Runs s c k.rsv (t.core c).rsv x (rsvCycles d) (rsvCycles d + 4))) ∧
    (Heads s c 3 x rest → cmdCode x.words = 0x31 → depth = 0 → d.count ≠ 0 → s.takesPart c d = true →
      ∃ t, exec (.rsvpop c) s = .next t ∧ Started s t c 3 rest ∧ (t.core c).pond = k.pond ∧
        t.reg (rvCount c 0) = s.reg (rvCount c 0) + 1 ∧
        ∃ y : Run, (t.core c).rsv.runs = k.rsv.runs ++ [y] ∧ y.write = d.zeroTile ∧ y.words = x.words) ∧
    (∀ y, Heads s c 3 x rest → cmdCode x.words = 0x31 → depth ≠ 0 → d.count ≠ 0 → s.takesPart c d = true →
      s.entrySize c ch depth ≤ stage → d.padded ≤ stage → s.topStaged c ch = some y → y.size ≤ depth →
      ∃ t, exec (.rsvpop c) s = .next t ∧ Started s t c 3 rest ∧ (t.core c).pond = k.pond ∧
        t.fld (rvChan c ch) 32 32 = (depth - y.size) / 64 * 64 ∧ Runs s c k.rsv (t.core c).rsv x (rsvCycles d) (rsvCycles d + 4) ∧
        ∀ z ∈ (t.core c).staged, z.chan = ch → z.addr + z.size = s.fld (rvChanBase c ch) 0 40 + depth → z.popped = true) ∧
    (Due s c 0x30 k.rsv r rs → Settled s c k.rsv → ∃ t, exec (.rsvpushComplete c) s = .next t ∧ Completed s t c ∧
      (t.core c).pond = k.pond ∧ (t.core c).rsv.runs = rs ∧
      ((k.staged.filter r.copies).length ≤ 1 → ∀ y ∈ (t.core c).staged, r.copies y = false)) ∧
    (Due s c 0x31 k.rsv r rs → ∃ t, exec (.rsvpopComplete c) s = .next t ∧ Completed s t c ∧
      (t.core c).pond = k.pond.apply r.write (fun a => a < 196608) ∧ (t.core c).rsv.runs = rs ∧
      ∀ y ∈ (t.core c).staged, y.popped = true → y.st = .staged → y.chan = r.bank → y.addr + 1 ≠ r.seq) ∧
    (∀ y, s.hasCore c = true → k.staged.find? (fun z => z.st == .writing) = some y →
      let m := (s.stageRead c y).1
      ∃ t, exec (.rsvEntryWritten c) s = .next t ∧ (y.popped = false → (t.core c).staged = k.staged.filter (fun z => z != y)) ∧
        (t.core c).pond = k.pond ∧ (∀ e, e ≠ c → t.core e = s.core e) ∧ ControlSame k (t.core c) ∧
        (s.mem.wf → (∀ p ∈ pieces y.addr m.length, s.reach sec p.1 = .ok) → ∀ a, t.mem.byte a =
          if y.addr ≤ a ∧ a < y.addr + m.length then m.getD (a - y.addr) 0 else s.mem.byte a)) ∧
    (∀ y, s.hasCore c = true → k.staged.find? (fun z => z.st == .fetching) = some y → y.popped = false →
      ∃ t, exec (.rsvEntryStaged c) s = .next t ∧ ControlSame k (t.core c) ∧ (∀ e, e ≠ c → t.core e = s.core e) ∧
        (t.core c).staged = k.staged.map (fun z => if z = y then { z with st := .staged } else z) ∧
        (k.pond.wf → y.units.Nodup → y.size = 64 * y.units.length → (t.stageRead c y).1 = s.devBytes sec y.addr y.size))

/-- R289, R291, R312 and R313: a descriptor arrives in the cache, and a trained tracker fills a line of the lake: the first predicted
one that can be read, carries no poison and is not held, which is the model's choice (log 46). -/
def Obligations.CachesFill : Prop :=
  ∀ (s : State) (c h n : Nat),
    let k := s.core c
    let q := s.coreHq c
    let base := s.fld (hqDt q) 0 40 + 64 * h
    (s.hasCore c = true → k.dcache.any (fun e => e.hq == q && e.handle == h && e.desc.isNone) = true →
      ∃ t, exec (.descriptorFetch c h) s = .next t ∧ ControlSame k (t.core c) ∧ (t.core c).pond = k.pond ∧
        (t.core c).queues = k.queues ∧ (∀ d, d ≠ c → t.core d = s.core d) ∧
        (∀ e ∈ (t.core c).dcache, e.hq = q → e.handle = h →
          e.desc = some (BitVec.ofNat 512 (leNat (s.devBytes (s.hqSecure q) base 64)))) ∧
        (s.devBad (s.hqSecure q) base 64 ≠ [] → s.coreJob c ≠ 0 → (s.job (s.coreJob c)).killLatch = none →
          ∃ a, (t.job (s.coreJob c)).killLatch = some (5, c, 0, a))) ∧
    (∀ y l, s.hasCore c = true → k.trackers[n]? = some y → y.trained = true → s.fld (cw c 0x81820) 0 1 = 1 →
      (s.predicted c y).find? (fun z => s.reach (s.trackSecure c y) (z * 256) == .ok && !s.mem.badRange (z * 256) 256 &&
        !mhas s.lake z) = some l →
      ∃ t, exec (.prefetchFill c n) s = .next t ∧ mhas t.lake l = true ∧
        t.lakeLine l = { prefetched := true, dirty := false } ∧ (∀ a, t.mem.byte a = s.mem.byte a) ∧ ∀ d, t.core d = s.core d)

/-- R159 to R162, R241 and R503: a freeze is raised, takes effect and ends, each member then executing the cycle in which the freeze
held it, with the governor's setting from that cycle on; and a core arrives at its step boundary. That the governor gives a waking
span its setting at once, between two evaluations, is the model's choice (log 39). -/
def Obligations.FreezesAndArrivals : Prop :=
  ∀ (s : State) (c : Nat) (a : ActiveSpan), s.spanOf c = some a → s.hasCore c = true →
    let k := s.core c
    let f := 5 * a.diameter
    let idle := fun x : Core => x.array.runs = [] ∧ x.path.runs = [] ∧ x.vec.runs = [] ∧ x.rsv.runs = [] ∧ x.records = []
    (a.freeze = none → s.condsNow c f ≠ [] → ∃ t, exec (.freezeRaise c) s = .next t ∧
      ((∀ x, (k.queue 3).cmds.head? = some x → cmdCode x.words ≠ 0x30) → { t with active := s.active } = s) ∧
      (∀ d, ControlSame (s.core d) (t.core d) ∧ (t.core d).queues = (s.core d).queues) ∧ ∃ b ∈ t.active, b.span = a.span ∧ ∃ z, b.freeze = some z ∧
        z.effect = k.cyc + BitVec.ofNat 64 f ∧ z.active = false ∧ z.conds = (s.condsNow c f).map fun e => (c, e)) ∧
    (∀ z, a.freeze = some z → z.active = false → z.effect.toNat ≤ k.cyc.toNat → ∃ t, exec (.freezeEffect c) s = .next t ∧
      { t with active := s.active } = s ∧ ∃ b ∈ t.active, b.span = a.span ∧
        b.freeze = some { z with active := true, effectTick := s.ticks }) ∧
    (∀ z n, a.freeze = some z → z.active = true → z.conds = [] → z.clearTick = some n → n + f ≤ s.ticks →
      z.effectTick < s.ticks → ∃ t, exec (.freezeEnd c) s = .next t ∧ (∃ b ∈ t.active, b.span = a.span ∧ b.freeze = none) ∧
        (∀ m, (t.core m).queues = (s.core m).queues ∧ (t.core m).cyc = (s.core m).cyc ∧ ∀ r, (t.core m).rg r = (s.core m).rg r) ∧
        ((∀ m ∈ a.members, idle (s.core m)) → a.x0 + a.w ≤ 32 → t.mem = s.mem ∧ (∀ r, r ≠ pmGovStat → t.reg r = s.reg r) ∧
          (∃ b ∈ t.active, b.span = a.span ∧ b.freeze = none ∧ b.stretch = t.stretchNow a.corner) ∧
          (∀ m ∈ a.members, t.core m = (s.core m).stepOn) ∧ ∀ m, m ∉ a.members → t.core m = s.core m)) ∧
    (a.freeze = none → k.stall = .stepWait false → k.quiet = true → ∃ t, exec (.stepArrival c) s = .next t ∧
      (t.core c).stall = .stepWait true ∧ (∀ d, d ≠ c → t.core d = s.core d) ∧
      { t with cores := s.cores, active := s.active } = s ∧ ∃ b ∈ t.active, b.span = a.span ∧ ∃ z, b.freeze = some z ∧
        z.conds = (List.range 4).map fun e => (c, e + 4))

/-! ## Host queues, launches and steps -/

/-- The entry that the dispatcher takes next from queue `q`: its 128 bytes are `m`, unpoisoned, its span is one of the queue's
and its job is not 0 (R463, R464). -/
def Entry (s : State) (q : Nat) (m : List Byte) : Prop :=
  s.takesEntry q = true ∧ s.entryRefused q m = false ∧
  s.devBytes (s.hqSecure q) (s.fld (hqCfg q) 0 40 + 128 * s.fld (hqPtr q) 16 16) 128 = m ∧
  s.devBad (s.hqSecure q) (s.fld (hqCfg q) 0 40 + 128 * s.fld (hqPtr q) 16 16) 128 = []

/-- The entry was taken: HEAD moved on by one in its ring, and no control core changed (R463). -/
def Taken (s t : State) (q : Nat) : Prop :=
  t.fld (hqPtr q) 16 16 = (s.fld (hqPtr q) 16 16 + 1) % 2 ^ s.fld (hqCfg q) 40 5 % 2 ^ 16 ∧ ∀ c, t.core c = s.core c

/-- R463, R464, R465: a STEP entry sets its job's commit limit, a NOP and a FENCE with nothing running only complete, a FENCE
behind a launch waits and later completes, a LAUNCH is held for its span. -/
def QueueEntriesTaken : Prop :=
  ∀ (s : State) (q : Nat) (m : List Byte), Quiet s →
    let j := s.hqJob q
    (Entry s q m → entryKind m = 4 → ∃ t, exec (.nopEntry q) s = .next t ∧ Taken s t q ∧ t.jobs = s.jobs ∧
      t.active = s.active) ∧
    (Entry s q m → entryKind m = 2 → ∃ t, exec (.stepEntry q) s = .next t ∧ Taken s t q ∧
      (t.job j).limit = msgField m 8 6 ∧ (msgField m 14 1 % 2 = 1 → msgField m 8 6 ∈ (t.job j).ckSteps) ∧
      (∀ i, i ≠ j → t.job i = s.job i)) ∧
    (Entry s q m → entryKind m = 1 → ∃ t, exec (.launch q) s = .next t ∧ Taken s t q ∧ (t.hq q).held = .launch m ∧
      t.active = s.active) ∧
    (Entry s q m → entryKind m = 3 → entryOp m = 5 → (∀ a ∈ s.active, a.hq ≠ q) → ∃ t, exec (.fence q) s = .next t ∧
      Taken s t q ∧ (t.hq q).held = .none) ∧
    (Entry s q m → entryKind m = 3 → entryOp m = 5 → (∃ a ∈ s.active, a.hq = q) → ∃ t, exec (.fence q) s = .next t ∧
      Taken s t q ∧ (t.hq q).held = .fence m) ∧
    ((s.hq q).held = .fence m → (∀ a ∈ s.active, a.hq ≠ q) → s.roleUp 4 = true → ∃ t, exec (.fence q) s = .next t ∧
      (t.hq q).held = .none ∧ ∀ c, t.core c = s.core c)

/-- R409, R415, R417, R465, R478 and R480: the CONTROL entries on flows, and RESUME of an orphaned job. An isolated flow (state 3) stays
isolated: only a reset ends that. -/
def ControlEntriesAct : Prop :=
  ∀ (s : State) (q : Nat) (m : List Byte), Quiet s → Entry s q m → entryKind m = 3 →
    let j := s.hqJob q
    let f := entryFlow m
    (entryOp m = 0 → s.roleUp 1 = true → s.flowState f ≠ 3 → ∃ t, exec (.flowOpen q) s = .next t ∧ Taken s t q ∧ t.flow f = Flow.reset ∧
      t.flowState f = 1 ∧ t.flowJob f = j ∧ t.peerRank f = msgField m 11 2 % 4096 ∧ t.peerFlow f = min (msgField m 13 2 % 4096) 3071 ∧
      t.txNext f = 0 ∧ t.txAcked f = 0 ∧ t.climit f = 512 ∧ t.rxExpect f = 0 ∧ t.rxGrant f = 512 ∧
      ∀ g, g ≠ f → t.flow g = s.flow g) ∧
    (entryOp m = 1 → s.roleUp 1 = true → s.flowState f ≠ 3 → ∃ t, exec (.flowClose q) s = .next t ∧ Taken s t q ∧
      t.flow f = Flow.reset ∧ t.flowState f = 0 ∧ ∀ g, g ≠ f → t.flow g = s.flow g) ∧
    (∀ x ∈ [Instr.flowOpen q, Instr.flowClose q], entryOp m = (if x = .flowOpen q then 0 else 1) → s.roleUp 1 = true →
      s.flowState f = 3 → ∃ t, exec x s = .next t ∧ Taken s t q ∧ t.flowState f = 3 ∧ ∀ g, t.flow g = s.flow g) ∧
    (entryOp m = 2 → s.roleUp 1 = true → ∃ t, exec (.flowReset q) s = .next t ∧ Taken s t q ∧ t.flow f = Flow.reset ∧
      t.flowState f = 1 ∧ t.flowJob f = s.flowJob f ∧ t.peerRank f = s.peerRank f ∧ t.peerFlow f = s.peerFlow f ∧
      t.txNext f = 0 ∧ t.rxExpect f = 0 ∧ t.climit f = 512 ∧ ∀ g, g ≠ f → t.flow g = s.flow g) ∧
    (entryOp m = 4 → Hold.orphaned ∈ (s.job j).holds → (s.job j).lapsing = false → ∃ u : State, exec (.resume q) s = .next u.settle ∧
      Hold.orphaned ∉ (u.job j).holds ∧
      u.fld (hqPtr q) 16 16 = (s.fld (hqPtr q) 16 16 + 1) % 2 ^ s.fld (hqCfg q) 40 5 % 2 ^ 16)

/-- What a kill leaves of a job (R322, R326, R497): no active span, its cores halted and outside any launch, no live flow,
PARKED shown, and no consumption latched. -/
def Killed (s u : State) (j : Nat) : Prop :=
  u.jobSpans j = [] ∧ (∀ c ∈ s.jobCores j, (u.core c).mode = .halted ∧ (u.core c).launch = none) ∧
  (∀ f, f < 3072 → u.flowLive f = true → u.flowJob f = j → (s.flows.map Prod.fst).contains f = false) ∧
  u.fld (fbJobpol j) 45 1 = 1 ∧ (u.job j).killLatch = none ∧ Hold.killed ∈ (u.job j).holds

/-- R322, R326 and R465: a KILL entry, and a latched consumption that the steward serves. -/
def KillsEndJobs : Prop :=
  ∀ (s : State) (q j : Nat) (m : List Byte), s.roleUp 2 = true →
    (Entry s q m → entryKind m = 3 → entryOp m = 3 → ∃ u : State, exec (.kill q) s = .next u.settle ∧ Killed s u (s.hqJob q)) ∧
    (∀ x, j < 64 → (s.job j).killLatch = some x → ∃ u : State, exec (.poisonKill j) s = .next u.settle ∧ Killed s u j)

/-- R322, R326, R409, R415, R463 to R465 and R478: the entries of a host queue that start no launch and load no program, and
the kill of a job. -/
def Obligations.EntriesAct : Prop := QueueEntriesTaken ∧ ControlEntriesAct ∧ KillsEndJobs

/-- No byte of a range carries poison, and none is hidden behind a line that the lake holds (R303, R309). -/
def Unpoisoned (s : State) (sec : Bool) (a n : Nat) : Prop :=
  s.devBad sec a n = [] ∧ ∀ g ∈ s.hidden, 32 * g + 32 ≤ a ∨ a + n ≤ 32 * g

/-- The cores of `cs` hold the words of a block under epoch `e`, from word `first` on. -/
def Holds (t : State) (cs : List Nat) (first : Nat) (ws : List Word) (e : BitVec 16) : Prop :=
  ∀ c ∈ cs, ∀ i, i < ws.length → mget (t.core c).imem (0, 0) (first + i) = (ws.getD i 0, e)

/-- R247, R248 and R464: a PROGRAM entry reads its words and chooses the epoch of its block; the words are then written, each under
that epoch, which is never 0, into the cores of the span, and no other word changes. A block for which the epochs of its cores must
wrap is held as epoch 0 until no launch runs on them, which with the epoch that it then takes is the model's choice (log 71). -/
def Obligations.ProgramsLoad : Prop :=
  ∀ (s : State) (q : Nat) (m : List Byte),
    let code := msgField m 8 5 / 4 * 4
    let n := progCount m
    (Entry s q m → entryKind m = 0 → Quiet s → Unpoisoned s (s.hqSecure q) code (4 * n) →
      ∃ t cs e ws, exec (.program q) s = .next t ∧ (t.hq q).held = .program m cs e ws ∧ cs = s.spanCores (entrySpan m) ∧
        ws.length = n ∧
        (∀ i, i < n → ws.getD i 0 = BitVec.ofNat 32 (leNat ((s.devBytes (s.hqSecure q) code (4 * n)).drop (4 * i) |>.take 4))) ∧
        (∀ c, (t.core c).imem = (s.core c).imem) ∧
        (if e = 0 then s.topEpoch cs = 0xFFFF ∧ ∀ c, t.core c = s.core c else ∀ c ∈ cs, (t.core c).imemEpoch = e)) ∧
    (∀ cs e ws, (s.hq q).held = .program m cs e ws → s.roleUp 4 = true →
      if e = 0 ∧ ∃ c ∈ cs, (s.core c).launch.isSome = true then exec (.programComplete q) s = .next s
      else ∃ t e', exec (.programComplete q) s = .next t ∧ (t.hq q).held = .none ∧ e' ≠ 0 ∧ (e ≠ 0 → e' = e) ∧
        Holds t cs (progFirst m) ws e' ∧
        (∀ c ∈ cs, ∀ i, i < progFirst m ∨ progFirst m + ws.length ≤ i →
          (mget (t.core c).imem (0, 0) i).1 = (mget (s.core c).imem (0, 0) i).1 ∧
          (e ≠ 0 → mget (t.core c).imem (0, 0) i = mget (s.core c).imem (0, 0) i)) ∧
        (∀ c, c ∉ cs → t.core c = s.core c) ∧ ∀ c, (t.core c).pond = (s.core c).pond)

/-- R146, R164, R201, R246 and R250: a launch whose span is invalid is refused with EV_SPAN_INVALID; one whose cores are all free,
its job not held by a kill and no marker of a later attempt waiting, starts them as R201 says, with their flags clear (R367) and their descriptor caches invalid (R289); a launch ends once every member has halted with its queues empty. -/
def Obligations.LaunchesStartAndEnd : Prop :=
  ∀ (s : State) (q : Nat) (m : List Byte), s.roleUp 4 = true →
    let k := entrySpan m
    let job := s.hqJob q
    let cs := (s.newSpan k 0 0 0 0).members
    ((s.hq q).held = .launch m → s.spanValid k = false → ∃ t, exec (.spanActivate q) s = .next t ∧ (t.hq q).held = .none ∧
      t.active = s.active ∧ ∀ c, t.core c = s.core c) ∧
    ((s.hq q).held = .launch m → s.spanValid k = true → s.fld nwCapacity 24 1 = 0 → s.roleUp 0 = true →
      s.killHeld job = false → cs.all s.coreFree = true → (∀ f, (s.flow f).heldMarkers = []) → ∃ u : State, exec (.spanActivate q) s = .next u.settle ∧ (u.hq q).held = .none ∧
        (u.active.map fun a => a.span) = (s.active.map fun a => a.span) ++ [k] ∧
        (∀ c ∈ cs, (u.core c).mode = .running ∧ (u.core c).pc.toNat = msgField m 8 2 % 16384 ∧ (u.core c).cyc = 0 ∧
          (u.core c).preds = 1 ∧ (u.core c).loops = [] ∧ (u.core c).c = Vector.replicate 8 0 ∧
          (u.core c).lc = Vector.replicate 4 0 ∧ (u.core c).flags = 0 ∧ (u.core c).dcache = [] ∧ (∀ d : Fin 4, ((u.core c).dues[d]).2 = false) ∧
          (u.core c).launch.map (fun l => (l.span, l.hq, l.job)) = some (k, q, job) ∧
          (∀ r : BitVec 5, 1 ≤ r.toNat → r.toNat ≤ 8 → (u.core c).rg r = BitVec.ofNat 64 (msgField m (56 + 8 * r.toNat) 8)) ∧
          ∀ r : BitVec 5, 9 ≤ r.toNat → (u.core c).rg r = 0) ∧
        ∀ c, c ∉ cs → (u.core c).pc = (s.core c).pc ∧ (u.core c).pond = (s.core c).pond) ∧
    (∀ sp a, s.active.find? (fun b => b.span == sp && b.members.all fun c => (s.core c).ended) = some a →
      (s.job a.job).killLatch = none → (s.job a.job).carried = false → a.drains = [] →
      ∃ t, exec (.launchEnd sp) s = .next t ∧ (∀ b ∈ t.active, b.corner ≠ a.corner) ∧
        (∀ c ∈ a.members, (t.core c).mode = .halted ∧ (t.core c).launch = none ∧
          ((s.core c).stores = [] → (s.core c).records = [] → (t.core c).pond = (s.core c).pond) ∧ ∀ r, (t.core c).rg r = (s.core c).rg r) ∧
        ∀ c, c ∉ a.members → t.core c = s.core c)

/-- R508: a job all of whose spans have arrived enters the commit exchange; on a channel of one rank the step commits at once, and
where no marker of the next step waits the step number of every core counts 1, SX_FP and SX_FPPOISON are 0 and the attempt number
returns to 0 (R243, R287, R509). With more ranks the first vector is sent
and the exchange is held. -/
def Obligations.StepsCommit : Prop :=
  ∀ (s : State) (j : Nat), j < 64 → s.jobSpans j ≠ [] → (s.jobSpans j).all s.spanArrived = true → (s.job j).holds = [] →
    (s.job j).exchange = none → (s.job j).killLatch = none → (s.job j).abortDue = none → s.chanUsable (s.stepChan j) j = true → s.limitAllows j = true →
    (s.job j).carried = false → (∀ c ∈ s.jobCores j, c < 1024) → (s.jobCores j).Nodup →
    (s.chanRanks (s.stepChan j) = 1 → (∀ f, (s.flow f).heldMarkers = []) → ∃ u : State,
      exec (.commitExchangeEnter j) s = .next u.settle ∧ u.jobAttempt j = 0 ∧
      (∀ c ∈ s.jobCores j, u.fld (vxStep c) 0 48 = (s.fld (vxStep c) 0 48 + 1) % 2 ^ 48) ∧
      (∀ c ∈ s.jobCores j, ∀ n, n < 16 → u.reg (sxFp c n) = 0) ∧ ∀ c ∈ s.jobCores j, u.reg (sxFpPoison c) = 0) ∧
    (s.chanRanks (s.stepChan j) ≠ 1 → ∃ (u : State) (e : _), exec (.commitExchangeEnter j) s = .next u.settle ∧
      (u.job j).exchange = some e ∧ e.own = s.ownVector j ∧ e.acc = s.ownVector j ∧ e.t = 0 ∧ ∀ c, u.core c = s.core c)

/-- R431, R432, R433, R447 and R508: a whole message that waits on a flow, and may be taken, leaves it and goes to the COLL or to the
exchange that waits for it. One of another step or attempt is discarded; a partial sum whose header is as expected is added to
the COLL's own words and passed on, while the ring has further steps, and the COLL counts one step. -/
def Obligations.CollectiveMessagesTaken : Prop :=
  ∀ (s : State) (f : Nat) (b : List Byte) (bad : List Bool), s.flowLive f = true → s.mayTake f = true →
    s.peekMessage f = some (b, bad) →
    (∀ x, s.colls.find? (fun y => (y.waitsOn f).isSome) = some x → ∃ u : State, exec (.collMessage f) s = .next u.settle ∧
      u = (s.dropMessage f).collMessage x f b ∧
      (s.msgCurrent x.job b = false → u = s.dropMessage f ∧ u.colls = s.colls ∧ (u.flow f).part = [] ∧ ∀ c, u.core c = s.core c) ∧
      (s.msgCurrent x.job b = true → x.stage = 0 → headDiffers b (s.collHead x 0 x.t x.sum) = none → x.t + 2 < x.n →
        let sum := x.ownSum.join (msgSummary b)
        let r := (x.rank + 2 * x.n - x.t - 2) % x.n
        let y := { x with sum := if x.pass then { sum with overRange := false } else sum, t := x.t + 1 }
        let ws := addWords (wordBits x.word) (unpackWords (wordBits x.word) (shardOf x.e x.n r).2 (b.drop 32)) (cutShard x.e x.n r x.own)
        u = ((s.dropMessage f).putColl y).sendShard y 0 sum ws ∧
        u.colls = s.colls.map (fun z => if z.core = x.core ∧ z.xfer = x.xfer then y else z) ∧ ∀ c, u.core c = s.core c)) ∧
    (∀ x, s.colls.find? (fun y => (y.waitsOn f).isSome) = none → (s.job (s.flowJob f)).exchange = some x →
      f = ringRx x.base 0 → ∃ u : State, exec (.collMessage f) s = .next u.settle ∧
        u = (s.dropMessage f).exchangeMessage (s.flowJob f) x f b)

/-- R238, R239, R382, R383 and R384: the timeouts of waits. A wait of the control core goes on with g[rd] = 1, its flag, counter
or sluice unchanged, or with 0 and no timeout when what it waits for has come by then; an engine's wait and a round of tokens keep waiting; each counts in SY_TIMEOUTS. -/
def WaitsTimeOut : Prop :=
  ∀ (s : State) (c n e : Nat) (rd : BitVec 5),
    let k := s.core c
    let goesOn := fun (v : Reg) (t : State) => (∀ r, (t.core c).rg r = if r = 0 then 0 else if r = rd then v else k.rg r) ∧
      (t.core c).stall = .none ∧ (t.core c).flags = k.flags ∧ (∀ m, t.obj m = s.obj m) ∧
      (∀ d, d ≠ c → t.core d = s.core d) ∧ t.reg syTimeouts = s.reg syTimeouts + v
    (k.stall = .flag n rd → k.haltNext = false → k.flag n = true → ∃ t, exec (.flagTimeout c none) s = .next t ∧ goesOn 0 t) ∧
    (k.stall = .flag n rd → k.haltNext = false → k.flag n = false → k.stallTick + s.syTicks 0 ≤ s.ticks →
      ∃ t, exec (.flagTimeout c none) s = .next t ∧ goesOn 1 t) ∧
    (∀ v, k.stall = .counter n rd v → k.haltNext = false → s.waitMet c = true →
      ∃ t, exec (.counterTimeout c) s = .next t ∧ goesOn 0 t ∧ ∀ w ∈ t.waiters, w.1 ≠ c) ∧
    (∀ v, k.stall = .counter n rd v → k.haltNext = false → s.waitMet c = false → k.stallTick + s.syTicks 1 ≤ s.ticks →
      ∃ t, exec (.counterTimeout c) s = .next t ∧ goesOn 1 t ∧ ∀ w ∈ t.waiters, w.1 ≠ c) ∧
    (∀ v, k.stall = .sluice n rd v → k.haltNext = false → s.waitMet c = true →
      ∃ t, exec (.sluiceTimeout c) s = .next t ∧ goesOn 0 t ∧ ∀ w ∈ t.waiters, w.1 ≠ c) ∧
    (∀ v, k.stall = .sluice n rd v → k.haltNext = false → s.waitMet c = false → k.stallTick + s.syTicks 2 ≤ s.ticks →
      ∃ t, exec (.sluiceTimeout c) s = .next t ∧ goesOn 1 t ∧ ∀ w ∈ t.waiters, w.1 ≠ c) ∧
    (∀ x tick, e < 4 → s.hasCore c = true → (k.queue e).waitTick = some tick → (k.queue e).head = some x →
      x.flagWait = some n → tick + s.syTicks 0 ≤ s.ticks → (k.queue e).timedOut = false →
      ∃ t, exec (.flagTimeout c (some e)) s = .next t ∧ ((t.core c).queue e) = { k.queue e with timedOut := true } ∧
        (t.core c).flags = k.flags ∧ t.reg syTimeouts = s.reg syTimeouts + 1) ∧
    (s.objKind n = 2 → (s.obj n).remote = true → (s.obj n).timedOut = false →
      ∃ t, exec (.tokenTimeout n) s = .next t ∧ t.obj n = { s.obj n with timedOut := true } ∧
        (∀ m, m ≠ n → t.obj m = s.obj m) ∧ (∀ d, t.core d = s.core d) ∧ t.reg syTimeouts = s.reg syTimeouts + 1)

/-- R445, R448 and R510: the step barrier timer aborts the attempt of a job that has arrived and is not in the exchange: the
attempt number counts 1, no rank is blamed, and its queues are empty. Within the exchange it parks the job. -/
def StepBarrierTimesOut : Prop :=
  ∀ (s : State) (j : Nat), j < 64 → (s.jobSpans j).any s.spanArrived = true → (s.job j).holds = [] →
    (s.job j).killLatch = none → s.limitAllows j = true →
    ((s.job j).exchange = none → s.roleUp 4 = true → s.jobAttempt j + 1 ≤ s.fld (fbJobpol j) 0 3 →
      ∃ u : State, exec (.stepBarrierTimeout j) s = .next u.settle ∧ u.jobAttempt j = s.jobAttempt j + 1 ∧
        u.fld (fbJobpol j) 32 13 = 0x1000 ∧
        ∀ c ∈ s.jobCores j, ∀ e, e < 4 → ((u.core c).queue e).cmds = []) ∧
    (∀ x, (s.job j).exchange = some x → s.roleUp 4 = true → ∃ u : State, exec (.stepBarrierTimeout j) s = .next u.settle ∧
      u.fld (fbJobpol j) 45 1 = 1 ∧ u.fld (fbJobpol j) 32 13 = s.peerRank (ringRx x.base 0) % 2 ^ 13 ∧
      (u.job j).exchange = none)

/-- R238, R239, R382 to R384, R445, R448 and R510: the timeouts of waits and of the step barrier. -/
def Obligations.TimeoutsAct : Prop := WaitsTimeOut ∧ StepBarrierTimesOut

/-! ## The optical fabric -/

/-- A sequenced flit that fabric port `p` takes: the port is linked, the flit has the expected LSEQ and acknowledges nothing
new (R393, R394). -/
def LinkTakes (s : State) (p : Nat) (f : Flit) : Prop :=
  p < 8 ∧ s.portLinked p = true ∧ f.lseq = (s.port p).rxExpect ∧
    f.ackseq + 1 = (s.port p).txNext - BitVec.ofNat 12 (s.port p).replay.length

/-- A flit as it goes on in the module: without the count of the decoder. -/
def Arrived (f : Flit) : Flit := { f with fixed := 0 }

/-- A frame for flow context `x` of this module that arrives on the ACTIVE port `p` and breaks no rule (R396, R406, R417). -/
def FrameFor (s : State) (p : Nat) (f : Flit) (x : Nat) : Prop :=
  LinkTakes s p f ∧ s.portActive p = true ∧ f.dst.toNat = s.selfAddr ∧
    ((s.port p).localGot - (s.port p).localTold).toNat < 256 ∧ ((s.port p).localGot - (s.port p).localFreed).toNat < 256 ∧ f.flow.toNat = x ∧ x < 3072 ∧ s.flowLive x = true ∧
    f.src.toNat = s.rankAddr (s.peerRank x) ∧ 1 ≤ f.len.toNat ∧ f.len.toNat ≤ 240 ∧ (f.len.toNat = 240 ∨ f.last = true)

/-- A link management flit of kind `k` that port `p` takes, and that has not acted before its turn; on port 8 the messages of lane
swaps stand outside the sequence. -/
def LmgtFor (s : State) (p : Nat) (f : Flit) (k : Nat) : Prop :=
  f.type.toNat = 5 ∧ lmgtKind f = k ∧ f.lseq ∉ (s.port p).early ∧ ((p = 8 ∧ s.portLinked 8 = true) ∨ LinkTakes s p f)

/-- A link management flit of kind `k` whose LSEQ lies ahead of the expected one, while flits before it are missing. -/
def LmgtAhead (s : State) (p : Nat) (f : Flit) (k : Nat) : Prop :=
  f.type.toNat = 5 ∧ lmgtKind f = k ∧ f.lseq ∉ (s.port p).early ∧ p < 8 ∧ s.portLinked p = true ∧
    f.lseq ≠ (s.port p).rxExpect ∧ (f.lseq - (s.port p).rxExpect).toNat < 2048 ∧
    f.ackseq + 1 = (s.port p).txNext - BitVec.ofNat 12 (s.port p).replay.length

/-- Nothing differs but ports, and the count of symbols that the decoder of port `p` corrected (R389). -/
def OnlyPorts (s u : State) (p : Nat) : Prop :=
  { u with ports := s.ports, regs := s.regs } = s ∧ ∀ a, a ≠ fbPfec p → u.reg a = s.reg a

/-- R389, R406, R407, R410, R411, R412, R446 and R447: a DATA flit in its position joins the receive side of its flow, behind a
marker that is held there, an IDLE flit only acknowledges (R394), a TOKEN flit and an
attempt marker go to the module, a FACK acknowledges and moves the credit limit, and a frame for another module goes on with one
hop less. No control core and no other flow changes. That the FLIT_DATA row brings IDLE too is the model's choice (log 15). -/
def Obligations.FramesArrive : Prop :=
  ∀ (s : State) (p x : Nat) (f : Flit),
    let others := fun u : State => (∀ g, g ≠ x → u.flow g = s.flow g) ∧ ∀ c, u.core c = s.core c
    (FrameFor s p f x → f.type = 1 → f.fseq.toNat = s.rxExpect x → s.staleFlow x = false →
      ∃ u : State, exec (.flitData p f) s = .next u.settle ∧
        ((s.flow x).heldMarkers = [] → (u.flow x).rx = (s.flow x).rx ++ [Arrived f]) ∧
        (∀ ms h, (s.flow x).heldMarkers = ms ++ [h] → (u.flow x).rx = (s.flow x).rx ∧
          (u.flow x).heldMarkers = ms ++ [{ h with behind := h.behind ++ [Arrived f] }]) ∧
        u.rxExpect x = (s.rxExpect x + 1) % 4096 ∧ (u.port p).rxExpect = (s.port p).rxExpect + 1 ∧
        u.fld (fbPfec p) 0 64 = (s.fld (fbPfec p) 0 64 + f.fixed.toNat) % 2 ^ 64 ∧ others u) ∧
    (p < 8 → s.portActive p = true → f.type = 0 → (s.port p).waiting = [] →
      let d := (f.ackseq + 1 - ((s.port p).txNext - BitVec.ofNat 12 (s.port p).replay.length)).toNat
      d ≤ (s.port p).replay.length → ∃ u : State, exec (.flitData p f) s = .next u.settle ∧ OnlyPorts s u p ∧
        (u.port p).replay = (s.port p).replay.drop d ∧ (u.port p).rxExpect = (s.port p).rxExpect) ∧
    (FrameFor s p f x → f.type = 3 → flitByte f 3 ≠ 0xFF → f.fseq.toNat = s.rxExpect x →
      ∃ u : State, exec (.flitToken p f) s = .next u.settle ∧ u.tokensIn = s.tokensIn ++ [(x, some p, Arrived f)] ∧
        u.rxExpect x = (s.rxExpect x + 1) % 4096 ∧ others u) ∧
    (FrameFor s p f x → f.type = 3 → flitByte f 3 = 0xFF → f.fseq.toNat = s.rxExpect x →
      ∃ u : State, exec (.attemptMarker p f) s = .next u.settle ∧ u.tokensIn = s.tokensIn ++ [(x, some p, Arrived f)] ∧
        u.rxExpect x = (s.rxExpect x + 1) % 4096 ∧ others u) ∧
    (FrameFor s p f x → f.type = 2 →
      let e := flitField f 0 2 % 4096
      let cl := flitField f 2 2 % 4096
      let d := mod12 e (s.txAcked x)
      d ≤ mod12 (s.txNext x) (s.txAcked x) → d < 2048 → mod12 cl (s.climit x) < 2048 →
      ∃ u : State, exec (.flitFack p f) s = .next u.settle ∧ u.txAcked x = e ∧ u.climit x = cl ∧
        (s.flow x).rtx.drop d <+: (u.flow x).rtx ∧ u.flowState x = (if d = 0 then s.flowState x else 1) ∧ others u) ∧
    (∀ r, LinkTakes s p f → s.portActive p = true → f.dst.toNat ≠ s.selfAddr → f.type = 1 →
      ((s.port p).relayGot - (s.port p).relayTold).toNat < 256 → (∀ w ∈ (s.port p).waiting, w.2 ≠ some p) → s.fld fbCfg 16 1 = 1 → s.route f.dst.toNat = r → r < 8 →
      s.portTakes r = true → f.hops ≠ 0 →
      ∃ u : State, exec (.flitData p f) s = .next u.settle ∧ (∀ g, u.flow g = s.flow g) ∧ (∀ c, u.core c = s.core c) ∧
        ∃ g ∈ (u.port r).wire ++ (u.port r).waiting.map Prod.fst,
          g = { Arrived f with hops := f.hops - 1, lseq := g.lseq, ackseq := g.ackseq })

/-- R393 to R396: replay, LNAK and link credit. A replay counts in FB_PERR and sends again what is not acknowledged; a flit with a
bad CRC counts and is answered with one LNAK, which waits while a swap of the receive direction is pending; at the interval a credit
message tells the totals freed, unless one waits to leave; one that comes sets the totals that the partner has freed. That the NACK
row brings the reserved kinds too, and how often an LNAK is sent, are the model's choices (logs 15, 6). -/
def Obligations.LinksReplay : Prop :=
  ∀ (s : State) (p : Nat) (f : Flit),
    let x := s.port p
    let h := s.hostLink
    let oldest := x.txNext - BitVec.ofNat 12 x.replay.length
    let again := fun k => x.wire ++ (x.replay.drop k).map fun g => { g with ackseq := x.rxExpect - 1 }
    (p < 8 → s.portActive p = true → f.type = 4 → f.ackseq + 1 = oldest → (f.lseq - oldest).toNat < x.replay.length →
      x.replays + 1 < s.fld fbToLink 8 4 →
      ∃ u : State, exec (.flitLnak p f) s = .next u.settle ∧ again (f.lseq - oldest).toNat <+: (u.port p).wire ∧
        x.replay <+: (u.port p).replay ∧ u.fld (fbPerr p) 32 32 = satAdd 32 (s.fld (fbPerr p) 32 32) 1 ∧
        (x.waiting = [] → (u.port p).wire = again (f.lseq - oldest).toNat ∧ (u.port p).replay = x.replay ∧
          ∀ q, q ≠ p → u.port q = s.port q)) ∧
    (p < 8 → s.portActive p = true → x.replay ≠ [] → x.replays + 1 < s.fld fbToLink 8 4 →
      ∃ t, exec (.linkReplayTimeout p) s = .next t ∧ (t.port p).wire = again 0 ∧ (t.port p).replay = x.replay ∧
        t.fld (fbPerr p) 32 32 = satAdd 32 (s.fld (fbPerr p) 32 32) 1 ∧ ∀ q, q ≠ p → t.port q = s.port q) ∧
    (s.portActive 8 = true → h.replay ≠ [] → h.replays + 1 < s.fld fbToLink 8 4 →
      ∃ t, exec (.linkReplayTimeout 8) s = .next t ∧ t.ports = s.ports ∧
        t.hostLink.wire = h.wire ++ h.replay.map (fun g => { g with ackseq := h.rxExpect - 1 })) ∧
    (p < 8 → s.portActive p = true → (∀ w ∈ x.swaps, w.transmit = true) → x.lnakSent = false →
      ∃ t g, exec (.flitCrcFail p) s = .next t ∧ (t.port p).wire = x.wire ++ [g] ∧ g.type = 4 ∧ g.lseq = x.rxExpect ∧
        (t.port p).lnakSent = true ∧ t.fld (fbPerr p) 0 32 = satAdd 32 (s.fld (fbPerr p) 0 32) 1 ∧
        ∀ q, q ≠ p → t.port q = s.port q) ∧
    (p < 9 → s.portActive p = true → (∃ w ∈ x.swaps, w.transmit = false) →
      ∃ t, exec (.flitCrcFail p) s = .next t ∧ (p < 8 → t.port p = { x with nakDue := true, failed := true } ∧ t.hostLink = h) ∧
        (p = 8 → t.port p = { x with nakDue := true } ∧ t.hostLink = { h with failed := true }) ∧
        t.fld (fbPerr p) 0 32 = satAdd 32 (s.fld (fbPerr p) 0 32) 1 ∧ ∀ q, q ≠ p → t.port q = s.port q) ∧
    (s.portActive 8 = true → (∀ w ∈ (s.port 8).swaps, w.transmit = true) → h.lnakSent = false →
      ∃ t g, exec (.flitCrcFail 8) s = .next t ∧ t.hostLink.wire = h.wire ++ [g] ∧ g.type = 7 ∧ g.lseq = h.rxExpect ∧
        t.hostLink.lnakSent = true ∧ t.fld (fbPerr 8) 0 32 = satAdd 32 (s.fld (fbPerr 8) 0 32) 1) ∧
    (p < 8 → s.portActive p = true → (∃ w ∈ x.waiting, isLcredit w.1 = true) → exec (.lcreditInterval p) s = .next s) ∧
    (p < 8 → s.portActive p = true → x.replay.length < 2048 → (∀ w ∈ x.waiting, isLcredit w.1 = false) →
      ∃ t g, exec (.lcreditInterval p) s = .next t ∧ (t.port p).wire = x.wire ++ [g] ∧ g.type = 5 ∧
        g.payload = leBytes 1 0 ++ (leBytes 2 x.relayFreed.toNat ++ leBytes 2 x.localFreed.toNat) ∧
        (t.port p).relayTold = x.relayFreed ∧ (t.port p).localTold = x.localFreed ∧ { t with ports := s.ports } = s) ∧
    (s.portActive 8 = true → (∃ w ∈ h.waiting, w.type = 6) → exec (.lcreditInterval 8) s = .next s) ∧
    (s.portActive 8 = true → (∀ w ∈ h.waiting, w.type ≠ 6) → ∃ t, exec (.lcreditInterval 8) s = .next t ∧
      { t with hostLink := h } = s ∧ (h.waiting = [] → h.replay.length < 2048 →
        t.hostLink.postedTold = h.postedGot ∧ t.hostLink.requestTold = h.requestGot ∧
        ∃ g, t.hostLink.wire = h.wire ++ [g] ∧ g.type = 6)) ∧
    (LmgtFor s p f 0 → p < 8 → s.portActive p = true →
      ∃ u : State, exec (.lcredit p f) s = .next u.settle ∧ (u.port p).relayIn = BitVec.ofNat 16 (flitField f 1 2) ∧
        (u.port p).localIn = BitVec.ofNat 16 (flitField f 3 2) ∧ OnlyPorts s u p) ∧
    (LmgtFor s p f 6 → p < 8 →
      ∃ u : State, exec (.nack p f) s = .next u.settle ∧ (u.port p).rxExpect = x.rxExpect + 1 ∧
        x.replay <+: (u.port p).replay ∧ x.wire <+: (u.port p).wire ∧ OnlyPorts s u p) ∧
    (LmgtFor s p f (lmgtKind f) → 7 ≤ lmgtKind f → p < 8 →
      ∃ u : State, exec (.nack p f) s = .next u.settle ∧ u.fld (fbPviol p 5) 0 32 = satAdd 32 (s.fld (fbPviol p 5) 0 32) 1)

/-- R395, R397, R398, R404 and R455: how a port trains, each direction at its own width; a WIDTH of the partner narrows the direction
that the partner sends, which is the receive direction here (log 66), and a HELLO in alignment acts though flits before it are
missing. In recovery mode the sources of a bank that start-up has not powered are good at the end of LASER (R537). Port states: 0 OFF, 2 LASER, 3 TUNE, 4 EQ, 5 ALIGN, 6 ACTIVE, 7 RETRAIN, 8 DOWN. -/
def Obligations.PortsTrain : Prop :=
  ∀ (s : State) (p : Nat) (f : Flit) (v : BitVec 64), p < 9 → s.roleUp 1 = true →
    let n := ((if s.firm.recovery = true ∧ s.reg (fbPlaser p) = 0 then s.bankUp p else s).txUsable p).length
    let tries := s.fld (fbPstate p) 27 2 + 1
    let moves := fun (c : Instr) (k : Nat) => ∃ t, exec c s = .next t ∧ t.portState p = k ∧ ∀ d, t.core d = s.core d
    let goes := fun (c : Instr) (k : Nat) (post : State → Prop) => ∃ u : State, exec c s = .next u.settle ∧ u.portState p = k ∧
      post u ∧ ∀ d, u.core d = s.core d
    (s.portMode p = 2 → halfLanes p ≤ n → goes (.trainingStateComplete p) 3 fun u =>
      (u.port p).txLanes = (if n < fullLanes p then halfLanes p else (s.port p).txLanes) ∧ (u.port p).rxLanes = (s.port p).rxLanes) ∧
    (s.portMode p = 2 → n < halfLanes p → goes (.trainingStateComplete p) 8 fun _ => True) ∧
    (s.portMode p = 3 → moves (.trainingStateComplete p) 4) ∧
    (s.portMode p = 4 → moves (.trainingStateComplete p) 5) ∧
    (s.portMode p ∈ [5, 7] → (s.port p).hello = true → goes (.trainingStateComplete p) 6 fun u =>
      u.fld (fbPstate p) 4 5 = s.mapLanes true p ∧ u.fld (fbPstate p) 9 5 = s.mapLanes false p ∧ u.fld (fbPstate p) 27 2 = 0) ∧
    (s.portMode p ∈ [5, 7] → (s.port p).hello = false → exec (.trainingStateComplete p) s = .next s) ∧
    (s.portMode p ∈ [2, 3, 4, 5, 7] → tries < 3 → goes (.trainingStateTimeout p) 2 fun u => u.fld (fbPstate p) 27 2 = tries) ∧
    (s.portMode p ∈ [2, 3, 4, 5, 7] → 3 ≤ tries → goes (.trainingStateTimeout p) 8 fun _ => True) ∧
    (s.portMode p = 8 → s.portEnabled p = true → ∃ t, exec (.downRetry p) s = .next t ∧ t.portState p = 2 ∧
      t.fld (fbPstate p) 27 2 = 0 ∧ (t.port p).txLanes = fullLanes p ∧ (t.port p).rxLanes = fullLanes p) ∧
    (LmgtFor s p f 3 → p < 8 → s.portActive p = true → flitByte f 1 ∈ [8, 16] →
      goes (.lmgtWidth p f) 7 fun u => (u.port p).rxLanes = flitByte f 1 ∧ (u.port p).txLanes = (s.port p).txLanes) ∧
    (LmgtFor s p f 3 → p < 8 → s.portMode p ∈ [5, 7] → flitByte f 1 ∈ [8, 16] → flitByte f 1 ≤ (s.rxUsable p).length →
      goes (.lmgtWidth p f) (s.portState p) fun u => s.mapLanes false p ≠ flitByte f 1 → u.mapLanes false p = flitByte f 1) ∧
    (LmgtFor s p f 4 → p < 8 → s.portActive p = true → goes (.lmgtRetrain p f) 7 fun _ => True) ∧
    (LmgtAhead s p f 5 → s.portMode p ∈ [5, 7] → ∃ u : State, exec (.hello p f) s = .next u.settle ∧
      u.fld (fbPstate p) 14 12 = flitField f 1 2 % 4096 ∧ (u.port p).hello = true ∧ (u.port p).rxExpect = (s.port p).rxExpect) ∧
    (LmgtFor s p f 5 → p < 8 → s.portActive p = false → ∃ u : State, exec (.hello p f) s = .next u.settle ∧
      u.fld (fbPstate p) 14 12 = flitField f 1 2 % 4096 ∧ (u.port p).hello = true ∧ u.portState p = s.portState p) ∧
    (s.portPresent p = true → s.portState p = 0 → s.fld fwStatus 8 1 = 1 → bitOf v.toNat 0 = true →
      goes (.portEnable true p v) 2 fun u => u.fld (fbPctl p) 0 1 = 1) ∧
    (s.portPresent p = true → s.portState p ≠ 0 → bitOf v.toNat 0 = false →
      goes (.portEnable true p v) 0 fun u => u.fld (fbPctl p) 0 1 = 0) ∧
    (s.portActive p = true → bitOf v.toNat 0 = true → bitOf v.toNat 1 = true → goes (.portRetrain true p v) 7 fun _ => True)

/-- R400 to R404: lanes move to spare wavelengths, planned or abruptly, one swap of a direction at a time; a laser source fails and the
spare source takes its place, or the spare source itself fails. A SWAP_ACK for an abrupt swap acts though flits before it are missing.
The bytes of HELLO and WIDTH, that lane swaps on port 8 come outside the host link's sequence, and that a swap without a spare is
dropped are the model's choices (log 41). -/
def Obligations.LanesMove : Prop :=
  ∀ (s : State) (p lane w old : Nat) (f : Flit) (z : Swap), p < 9 →
    let x := s.port p
    let flitLane := flitByte f 1
    let flitWave := flitByte f 2
    let ask := fun (planned acked : Bool) => (
      { lane := flitLane, wavelength := flitWave, planned := planned, transmit := !planned, acked := acked, asked := !acked } : Swap)
    (s.portActive p = true → lane < 16 → (s.laneWave true p lane).isSome = true → s.spareWave true p = some w →
      (∀ y ∈ x.swaps, y.transmit = false) → ∃ t, exec (.ringMarginLow p lane) s = .next t ∧
        (t.port p).swaps = x.swaps ++ [{ lane := lane, wavelength := w, planned := true, transmit := true, acked := false, asked := false }] ∧
        t.regs = s.regs) ∧
    (s.portActive p = true → lane < 16 → (s.laneWave false p lane).isSome = true → s.spareWave false p = some w →
      (∀ y ∈ x.swaps, y.transmit = true) → ∃ u : State, exec (.abruptLoss p lane) s = .next u.settle ∧
        (u.port p).swaps = x.swaps ++ [{ lane := lane, wavelength := w, planned := false, transmit := false, acked := false, asked := false }] ∧
        u.regs = s.regs) ∧
    (s.portActive p = true → lane < 16 → s.laneWave false p lane = some old → s.spareWave false p = none →
      (∀ y ∈ x.swaps, y.transmit = true) → ∃ u : State, exec (.abruptLoss p lane) s = .next u.settle ∧ u.wave false p old = 17) ∧
    (LmgtFor s p f 1 → s.portActive p = true → flitByte f 3 % 2 = 1 → flitWave < portWaves p → s.wave false p flitWave = 16 →
      (∀ y ∈ x.swaps, y.transmit = true) → ∃ u : State, exec (.swapReq p f) s = .next u.settle ∧ OnlyPorts s u p ∧
        (u.port p).swaps = x.swaps ++ [ask true true]) ∧
    (∀ planned, LmgtFor s p f 1 → s.portActive p = true → flitByte f 3 % 2 = bitNat planned →
      x.swaps.find? (fun y => y.transmit == !planned) = some z → z.begun = true →
      ∃ u : State, exec (.swapReq p f) s = .next u.settle ∧ OnlyPorts s u p ∧ (u.port p).swaps = x.swaps ++ [ask planned false]) ∧
    (LmgtFor s p f 1 → s.portActive p = true → flitByte f 3 % 2 = 0 → flitWave < portWaves p → flitLane < 16 →
      s.wave true p flitWave = 16 → s.laneWave true p flitLane = some old → (∀ y ∈ x.lost, y.1 ≠ flitLane) →
      (∀ y ∈ x.swaps, y.transmit = false) → ∃ u : State, exec (.swapReq p f) s = .next u.settle ∧ u.wave true p flitWave = flitLane ∧
        u.wave true p old = (if s.sourceOk p old then 16 else 17)) ∧
    (LmgtFor s p f 2 → s.portActive p = true → z.planned = true →
      x.swaps.find? (fun y => y.lane = flitLane && y.wavelength = flitWave && !y.acked && !y.asked) = some z →
      ∃ u : State, exec (.swapAck p f) s = .next u.settle ∧ OnlyPorts s u p ∧
        (u.port p).swaps = x.swaps.map fun y => if y = z then { y with acked := true } else y) ∧
    (LmgtFor s p f 2 ∨ LmgtAhead s p f 2 → s.portActive p = true → z.planned = false → z.transmit = false → flitLane < 16 →
      x.swaps.find? (fun y => y.lane = flitLane && y.wavelength = flitWave && !y.acked && !y.asked) = some z →
      (∀ y ∈ x.swaps, y.transmit = false → y = z) → s.laneWave false p flitLane = some old →
      ∃ u : State, exec (.swapAck p f) s = .next u.settle ∧ u.wave false p flitWave = flitLane ∧ z ∉ (u.port p).swaps ∧
        (u.port p).nakDue = false ∧ (if p = 8 then u.hostLink.lnakSent = true else (u.port p).lnakSent = true)) ∧
    (s.portActive p = true → x.swaps.find? (fun y => y.planned && y.begun) = some z →
      (∀ y ∈ x.swaps, y.transmit = z.transmit → y = z) → z.lane < 16 → s.laneWave z.transmit p z.lane = some old →
      (∀ y ∈ x.lost, y.1 ≠ z.lane) → ∃ u : State, exec (.swapSwitch p) s = .next u.settle ∧ z ∉ (u.port p).swaps ∧
        (z.acked = true → u.wave z.transmit p z.wavelength = z.lane) ∧ (z.acked = false → u.regs = s.regs)) ∧
    (s.portActive p = true → s.roleUp 1 = true → (∃ y ∈ x.swaps, y.begun = true) →
      ∃ u : State, exec (.laneSwapTimeout p) s = .next u.settle ∧ u.portState p = 7 ∧ (u.port p).swaps = []) ∧
    (w < portWaves p → s.fld (fbPlaser p) w 1 = 1 → ∃ u : State, exec (.sourceFailure p w) s = .next u.settle ∧
      u.fld (fbPlaser p) w 1 = 0 ∧ u.wave true p w = 17 ∧
      (s.fld (fbPlaser p) 18 2 = 1 → x.spareTuning = none → (u.port p).spareTuning = some w)) ∧
    (s.fld (fbPlaser p) 18 1 = 1 → ∃ u : State, exec (.sourceFailure p (portWaves p)) s = .next u.settle ∧
      u.fld (fbPlaser p) 18 1 = 0 ∧ (u.port p).spareTuning = none) ∧
    (x.spareTuning = some w → w < portWaves p → s.roleUp 1 = true → ∃ t, exec (.spareTuningComplete p) s = .next t ∧
      t.fld (fbPlaser p) 19 1 = 1 ∧ t.fld (fbPlaser p) 20 5 = w ∧ t.wave true p w = (if s.portMode p ∈ [4, 5, 6, 7] then 16 else 18) ∧
      (t.port p).spareTuning = none) ∧
    (x.spareTuning = some w → s.roleUp 1 = true → ∃ t, exec (.spareTuningTimeout p) s = .next t ∧
      t.fld (fbPlaser p) 18 1 = 0 ∧ (t.port p).spareTuning = none ∧ ∀ q, q ≠ p → t.port q = s.port q)

/-- R412, R413, R416, R445, R447 and R550: the timers of a flow (a message that may not be taken yet ends no wait), and a rank map
entry that changes once its flows allow it. What a STALLED flow still carries, and that the pilot makes the change with keeper up
once every flow to the rank is closed or reset, are the model's choices (logs 42, 34). -/
def Obligations.FlowTimersExpire : Prop :=
  ∀ (s : State) (f : Nat), f < 3072 → s.rankValid (s.peerRank f) = true →
    let x := s.flow f
    let sent := mod12 (s.txNext f) (s.txAcked f)
    (s.flowLive f = true → sent ≠ 0 → x.tries + 1 < s.fld fbToFlow 8 4 →
      ∃ u : State, exec (.flowRetransmitTimeout f) s = .next u.settle ∧ (u.flow f).tries = x.tries + 1 ∧
        u.flowState f = s.flowState f ∧ u.fld (fcWord f 7) 0 32 = satAdd 32 (s.fld (fcWord f 7) 0 32) 1 ∧
        u.fld (fcWord f 5) 0 64 = (s.fld (fcWord f 5) 0 64 + min sent x.rtx.length) % 2 ^ 64) ∧
    (s.flowState f = 1 → sent ≠ 0 → s.fld fbToFlow 8 4 ≤ x.tries + 1 →
      ∃ u : State, exec (.flowRetransmitTimeout f) s = .next u.settle ∧ u.flowState f = 2) ∧
    (s.flowLive f = true → sent < x.rtx.length → s.climit f = s.txNext f →
      ∃ u : State, exec (.flowProbeTimeout f) s = .next u.settle ∧ (u.flow f).told = BitVec.ofNat 12 (s.rxGrant f) ∧
        (u.flow f).acceptedSince = 0 ∧ (∀ g, g ≠ f → u.flow g = s.flow g) ∧ ∀ c, u.core c = s.core c) ∧
    (s.flowLive f = true → (s.mayTake f && (s.peekMessage f).isSome) = false → s.lateColl f = none → s.recvWaits f = true → x.latePosted = false →
      ∃ u : State, exec (.flowLateTimeout f) s = .next u.settle ∧ (u.flow f).latePosted = true ∧
        u.fld (fcWord f 7) 32 32 = satAdd 32 (s.fld (fcWord f 7) 32 32) 1 ∧ ∀ c, u.core c = s.core c) ∧
    (∀ y, s.flowLive f = true → (s.mayTake f && (s.peekMessage f).isSome) = false → s.lateColl f = some y → y.job < 64 → s.jobSpans y.job ≠ [] →
      (s.job y.job).killLatch = none → Hold.parked ∉ (s.job y.job).holds → s.roleUp 4 = true →
      s.jobAttempt y.job + 1 ≤ s.fld (fbJobpol y.job) 0 3 →
      ∃ u : State, exec (.flowLateTimeout f) s = .next u.settle ∧ u.jobAttempt y.job = s.jobAttempt y.job + 1 ∧
        u.fld (fbJobpol y.job) 32 13 = (if x.heard then 0x1000 else s.peerRank f)) ∧
    (∀ k w, k < 4096 → s.firm.keeper = some w → w.waitRank = some k → w.addr = fbRankmap k → s.roleUp 1 = true → s.keeperUp = true →
      (∀ g ∈ s.openFlows, s.peerRank g = k → s.flowState g = 1 ∧ g ∈ w.resets) →
      ∃ u : State, exec (.rankRemapApply k) s = .next u.settle ∧ u.fld (fbRankmap k) 0 13 = w.value.toNat % 2 ^ 13 ∧
        u.firm.keeper = none ∧ u.fld fwKctl 1 2 = 2 ∧ ∀ c, u.core c = s.core c)

/-! ## Checkpoints and restores -/

/-- A whole message `b` of one flit is on its way on flow `f`. -/
def Sends (u : State) (f : Nat) (b : List Byte) : Prop :=
  ∃ y, (y ∈ (u.flow f).rtx ∨ y ∈ (u.flow f).txq.map Prod.fst) ∧ y.type = 1 ∧ y.last = true ∧ y.payload = b

/-- Memory holds the bytes of `m`, and its marks too unless a line that leaves the lake shows poison that it hid (R303, R309). -/
def MemIs (s u : State) (m : Mem) : Prop := u.mem.bytes = m.bytes ∧ (s.hidden = [] → u.mem = m)

/-- R520, R522, R525, R526 and R574: the messages of checkpoint flows. Data and end of data join the restore that waits for them, else
the copy in the hold region, whose commit record is written once every byte has come; an acknowledgement ends the copy, a restore
request is answered, and a holder without the step answers absent; a copy that exceeds half of SIZE fails. All of it waits while the scribe
is down. Model's choices: the sizes and the fingerprint that messages carry, and that a holder tells a failing copy by a message of KIND 4
(log 22), and that the waiting messages act by the command that names them (log 15). -/
def Obligations.CheckpointMessagesTaken : Prop :=
  ∀ (s : State) (f : Nat) (m : List Byte) (bad : List Bool), s.flowLive f = true → s.peekMessage f = some (m, bad) →
    let j := s.flowJob f
    let kind := msgField m 0 1
    let rank := msgField m 2 2
    let step := msgField m 4 6
    let off := msgField m 16 8
    let data := m.drop 32
    let sec := s.flowSecure f
    let held := fun k => recordValid (s.holdRecord j f k) && msgField (s.holdRecord j f k) 8 2 = rank &&
      msgField (s.holdRecord j f k) 0 6 = step
    (s.roleUp 3 = false → ∀ c ∈ [Instr.ckptData f, .ckptEndOfData f, .ckptAck f, .ckptRestoreRequest f, .ckptAbsent f],
      exec c s = .next s) ∧
    (s.roleUp 3 = true →
    (5 ≤ kind → ∃ u : State, exec (.ckptData f) s = .next u.settle ∧ u = s.dropMessage f) ∧
    (kind = 0 → s.restoreWants j m = true → ∃ u : State, exec (.ckptData f) s = .next u.settle ∧ u.mem = s.mem ∧
      (u.job j).restoreIn = (s.job j).restoreIn ++ [(off, data, bad.drop 32)]) ∧
    (∀ h, kind = 0 → s.restoreWants j m = false → s.holdAccepts j m = true → (s.job j).holdIn = some h → h.rank = rank →
      h.step = step → h.size = none → (∀ b ∈ bad, b = false) → off + data.length ≤ s.holdHalf j →
      let a := s.holdSlot j h.slot + 4096 + off
      (∀ p ∈ pieces a data.length, s.reach sec p.1 = .ok) → ∃ u : State, exec (.ckptData f) s = .next u.settle ∧
        (u.job j).holdIn = some { h with got := h.got + data.length } ∧ MemIs s u (s.devPut sec a data).mem) ∧
    (kind = 1 → s.restoreWants j m = true → ∃ u : State, exec (.ckptEndOfData f) s = .next u.settle ∧
      (u.job j).restoreSize = some (msgField m 24 8) ∧ u.mem = s.mem) ∧
    (∀ h, kind = 1 → s.restoreWants j m = false → s.holdAccepts j m = true → (s.job j).holdIn = some h → h.rank = rank →
      h.step = step → ((s.holdHalf j < msgField m 24 8 ∨ s.holdHalf j = 0) → ∃ u : State, exec (.ckptEndOfData f) s = .next u.settle ∧
        (u.job j).holdIn = none ∧ MemIs s u s.mem ∧ Sends u f (s.ckHeader 4 rank step 0 0 false)) ∧
      (msgField m 24 8 ≤ s.holdHalf j → s.holdHalf j ≠ 0 →
      (h.got < msgField m 24 8 → ∃ u : State, exec (.ckptEndOfData f) s = .next u.settle ∧ u.mem = s.mem ∧
        (u.job j).holdIn = some { h with size := some (msgField m 24 8) }) ∧
      (msgField m 24 8 ≤ h.got → (∀ p ∈ pieces (s.holdSlot j h.slot) 64, s.reach sec p.1 = .ok) →
        let p := dataPrint (s.devBytes sec (s.holdSlot j h.slot + 4096) (msgField m 24 8))
        ∃ u : State, exec (.ckptEndOfData f) s = .next u.settle ∧ (u.job j).holdIn = none ∧
          MemIs s u (s.devPut sec (s.holdSlot j h.slot) (commitRecord step j rank h.feed h.correlated (msgField m 24 8) p)).mem ∧
          Sends u f (s.ckHeader 2 rank step 0 p h.correlated)))) ∧
    (kind = 2 → (s.job j).ck = .partnerCopy step → (s.job j).killLatch = none →
      let correlated := bitOf (msgField m 1 1) 4
      (correlated = false ∨ s.fld (fwCkcfg j) 29 1 = 0) →
      ((s.job j).snapshotDue step = true → s.stateSetBad j = false ∧ s.hidden = []) → ∃ u : State, exec (.ckptAck f) s = .next u.settle ∧
        (u.job j).ck = .idle ∧ u.fld (fwCkstat j) 3 4 = 0 ∧ u.fld (fwCkstep j) 0 32 = step % 2 ^ 32 ∧
        u.fld (fwCkstat j) 7 1 = bitNat correlated) ∧
    (∀ st, kind = 2 → (s.job j).ck = .restoring st 2 → ∃ u : State, exec (.ckptAck f) s = .next u.settle ∧
      (u.job j).restorePrint = some (msgField m 24 8) ∧ u.mem = s.mem) ∧
    (kind = 3 → s.fld (fwCkhold j) 52 10 = 0 → ∃ u : State, exec (.ckptRestoreRequest f) s = .next u.settle ∧ u.mem = s.mem ∧
      Sends u f (s.ckHeader 4 rank step 0 0 false)) ∧
    (kind = 3 → s.fld (fwCkhold j) 52 10 ≠ 0 → [0, 1].find? held = none →
      ∃ u : State, exec (.ckptRestoreRequest f) s = .next u.settle ∧ MemIs s u s.mem ∧
        Sends u f (s.ckHeader 4 rank step 0 0 false)) ∧
    (∀ k, kind = 3 → s.fld (fwCkhold j) 52 10 ≠ 0 → [0, 1].find? held = some k →
      let r := s.holdRecord j f k
      ∃ u : State, exec (.ckptRestoreRequest f) s = .next u.settle ∧ MemIs s u s.mem ∧
        Sends u f (s.ckHeader 1 rank step 0 (msgField r 16 8) false) ∧
        Sends u f (s.ckHeader 2 rank step 0 (msgField r 24 8) false)) ∧
    (kind = 4 → (s.job j).ck = .restoring step 2 → ∃ u : State, exec (.ckptAbsent f) s = .next u.settle ∧
      (u.job j).ck = .idle ∧ u.fld (fwCkstat j) 3 4 = 3) ∧
    (kind = 4 → (s.job j).ck = .partnerCopy step → (s.job j).killLatch = none →
      ∃ u : State, exec (.ckptAbsent f) s = .next u.settle ∧ (u.job j).ck = .idle ∧ u.fld (fwCkstat j) 3 4 = 2))

/-- R519, R523, R524, R526, R527 and R574: checkpoints and restores that FW_CKCTL asks for, and the ends of copies and restores. They
wait while the scribe is down. Model's choices: what a restore's data carries (log 22), and that the job leaves the boundary in one command
(log 42). -/
def Obligations.CheckpointsRun : Prop :=
  ∀ (s : State) (sec : Bool) (j : Nat) (v : BitVec 64), j < 64 →
    let x := s.job j
    let op := bitsOf v.toNat 0 4
    let step := bitsOf v.toNat 4 48
    let result := fun (u : State) => u.fld (fwCkstat j) 3 4
    let free := s.admits sec true (fwCkctl j) = .ok ∧ x.ck = .idle ∧ s.jobSpans j = []
    (s.roleUp 3 = false → (∀ c ∈ [Instr.snapshotCopyComplete j, .flashWriteComplete j 0, .ckptRestoreDataDone j], exec c s = .next s) ∧
      (free → ∀ c ∈ [(Instr.restoreFromPartner sec j v, 2), (.restoreFromFlash sec j v, 3), (.restoreFromSnapshot sec j v, 4)],
        op = c.2 → ∃ u : State, exec c.1 s = .next u.settle ∧ (u.job j).ck = .restoreAsked step op)) ∧
    (s.admits sec true (fwCkctl j) = .ok → op = 1 → x.ck = .idle → s.hidden = [] → Hold.checkpoint ∉ x.holds →
      (Hold.parked ∈ x.holds ∨ Hold.orphaned ∈ x.holds) → s.jobSpans j ≠ [] → s.roleUp 3 = true → s.stateSetBad j = false →
      (∀ f ∈ s.ckFlows j, s.flowUsable f j = true) → ∃ u : State, exec (.checkpointNow sec j v) s = .next u.settle ∧
        (u.job j).ck = .partnerCopy ((s.jobStep j + (2 ^ 48 - 1)) % 2 ^ 48) ∧ Hold.checkpoint ∈ (u.job j).holds) ∧
    (s.admits sec true (fwCkctl j) = .ok → op = 1 → Hold.parked ∉ x.holds → Hold.orphaned ∉ x.holds →
      ∃ u : State, exec (.checkpointNow sec j v) s = .next u.settle ∧ result u = 5 ∧ u.jobs = s.jobs) ∧
    (free → op = 2 → s.roleUp 3 = true → ∃ u : State, exec (.restoreFromPartner sec j v) s = .next u.settle ∧
      (s.flowUsable (s.fld (fwCkcfg j) 12 12) j = true → (u.job j).ck = .restoring step 2) ∧
      (s.flowUsable (s.fld (fwCkcfg j) 12 12) j = false → result u = 1 ∧ (u.job j).ck = .idle)) ∧
    (free → op = 3 → s.roleUp 3 = true → ∃ u : State, exec (.restoreFromFlash sec j v) s = .next u.settle ∧
      ((∃ g ∈ x.gens, g.step = step) → (u.job j).ck = .restoring step 3) ∧
      ((∀ g ∈ x.gens, g.step ≠ step) → result u = 3 ∧ (u.job j).ck = .idle)) ∧
    (free → op = 4 → s.roleUp 3 = true → let r := s.devBytes (s.jobSecure j) (s.fld (fwCksnap j) 0 40) 64
      ∃ u : State, exec (.restoreFromSnapshot sec j v) s = .next u.settle ∧
        (recordValid r = true → msgField r 0 6 = step → (u.job j).ck = .restoring step 4) ∧
        (recordValid r = false → result u = 3 ∧ (u.job j).ck = .idle)) ∧
    (s.admits sec true (fwCkctl j) = .ok → op = 5 → x.snapshotHeld = true → ∃ u : State,
      exec (.releaseSnapshot sec j v) s = .next u.settle ∧ u.job j = { x with snapshotHeld := false } ∧
      ∀ i, i ≠ j → u.job i = s.job i) ∧
    (∀ st, x.ck = .partnerCopy st → x.snapshotDue st = true → x.killLatch = none → s.roleUp 3 = true → s.stateSetBad j = false →
      s.hidden = [] →
      ∃ t, exec (.snapshotCopyComplete j) s = .next t ∧ (t.job j).snapshot = some st ∧ (t.job j).snapshotFilled = true ∧
        (t.job j).ck = x.ck ∧ ∀ c, t.core c = s.core c) ∧
    (∀ st, x.flashWriting = some st → x.ck = .idle → s.fld flStatus 1 1 = 0 → s.roleUp 3 = true →
      ∃ u : State, exec (.flashWriteComplete j 0) s = .next u.settle ∧ (u.job j).flashWriting = none ∧
        u.fld (fwCkstep j) 32 32 = st % 2 ^ 32 ∧ (u.job j).snapshotHeld = (s.fld (fwCkcfg j) 30 1 == 1) ∧
        ∃ g, (u.job j).gens = g :: x.gens ∧ g.step = st) ∧
    (∀ st, x.flashWriting = some st → x.ck = .idle → s.fld flStatus 1 1 = 1 → s.roleUp 3 = true →
      ∃ u : State, exec (.flashWriteComplete j 0) s = .next u.settle ∧ (u.job j).flashWriting = none ∧ result u = 6 ∧
        (u.job j).gens = x.gens ∧ (u.job j).snapshotHeld = (s.fld (fwCkcfg j) 30 1 == 1)) ∧
    (∀ st o d bad p, x.ck = .restoring st o → s.restoreReady j st o = some (d, bad, p) → s.roleUp 3 = true → dataPrint d ≠ p →
      ∃ t, exec (.ckptRestoreDataDone j) s = .next t ∧ (t.job j).ck = .idle ∧ result t = 4 ∧ MemIs s t s.mem) ∧
    (∀ st o d bad p, x.ck = .restoring st o → s.restoreReady j st o = some (d, bad, p) → s.roleUp 3 = true → dataPrint d = p →
      ∃ t, exec (.ckptRestoreDataDone j) s = .next t ∧ (t.job j).ck = .idle ∧ result t = 0 ∧
        ∀ i, i < msgField d 0 8 % 1025 → t.fld (vxStep (msgField d (8 + coreBlockBytes * i) 8 % 1024)) 0 48 = (st + 1) % 2 ^ 48)

/-! ## The host link -/

/-- A flit of the adapter that the host port takes: expected LSEQ where its type has one, that of no flit which has acted already,
nothing newly acknowledged, and credit for its class (R393, R394, R457). -/
def HostTakes (s : State) (f : HFlit) : Prop :=
  s.portLinked 8 = true ∧ (f.type ≠ 7 → f.lseq = s.hostLink.rxExpect) ∧ f.lseq ∉ s.hostLink.early ∧
    f.ackseq + 1 = s.hostLink.txNext - BitVec.ofNat 12 s.hostLink.replay.length ∧
    (s.hostLink.postedGot - s.hostLink.postedTold).toNat < 512 ∧ (s.hostLink.requestGot - s.hostLink.requestTold).toNat < 256

/-- The whole of a management message in one fragment of kind `k` with `n` bytes (Table: Management fragments). -/
def OneFragment (s : State) (f : HFlit) (k n : Nat) : Prop :=
  f.type = 8 ∧ hflitField f 0 1 = k ∧ hflitField f 1 1 = 3 ∧ hflitField f 2 2 = n ∧ n ≤ 236 ∧ hflitLenGood f = true ∧
    s.hostLink.fragKind = none

/-- R455 to R463: what the adapter's flits do. A write reaches device memory inside an enabled window, a read is answered with its
bytes and its tag, a doorbell moves a queue's tail, credit and LNAK act on the link, and management messages set buffers and narrow the direction that the adapter sends, which is the receive
direction here (log 66). -/
def Obligations.HostFlitsAct : Prop :=
  ∀ (s : State) (f : HFlit), HostTakes s f →
    let a := f.addr.toNat
    let n := f.len.toNat
    let h := s.hostLink
    (f.type = 1 → s.portActive 8 = true → hflitLenGood f = true → s.inWindow a n true = true → a + n ≤ coreBase → s.flrRuns = false →
      (∀ p ∈ pieces a n, s.reach false p.1 = .ok) → ∃ u : State, exec (.mwr f) s = .next u.settle ∧
        MemIs s u (s.devPut false a (hflitData f)).mem ∧ u.hostLink.rxExpect = h.rxExpect + 1 ∧ ∀ c, u.core c = s.core c) ∧
    (f.type = 1 → s.portActive 8 = true → hflitLenGood f = true → s.inWindow a n true = false → ∃ u : State, exec (.mwr f) s = .next u.settle ∧
      u.fld (hiViol 10) 0 32 = satAdd 32 (s.fld (hiViol 10) 0 32) 1 ∧ ∀ c, u.core c = s.core c) ∧
    (f.type = 2 → s.portActive 8 = true → 1 ≤ n → n ≤ 4096 → s.inWindow a n false = true → a + n ≤ coreBase → s.flrRuns = false →
      (∀ g ∈ h.waiting, ¬ (g.type = 3 ∧ g.tag = f.tag)) → ∃ u : State, exec (.mrd f) s = .next u.settle ∧
        (∀ i, 240 * i < n → ∃ g ∈ u.hostLink.wire ++ u.hostLink.waiting, g.type = 3 ∧ g.tag = f.tag ∧
          g.addr = BitVec.ofNat 40 (a + 240 * i) ∧ g.payload = ((s.devBytes false a n).drop (240 * i)).take 240 ∧
          (g.last = true ↔ n ≤ 240 * (i + 1)) ∧ g.status = (if s.devBad false a n = [] then 0 else 1)) ∧
        ∀ c, u.core c = s.core c) ∧
    (f.type = 4 → s.portActive 8 = true → hflitLenGood f = true → let q := hflitField f 0 1
      s.admits false true (hqPtr q) = .ok → s.fld (hqCfg q) 59 1 = 1 → s.fld (hqCfg q) 60 1 = 0 →
      ∃ u : State, exec (.dbell f) s = .next u.settle ∧
        u.fld (hqPtr q) 0 16 = min (hflitField f 1 2) (2 ^ s.fld (hqCfg q) 40 5 - 1) ∧ (u.hq q).violRun = 0 ∧
        u.fld (hqPtr q) 16 48 = s.fld (hqPtr q) 16 48) ∧
    (f.type = 6 → s.portActive 8 = true → hflitLenGood f = true → ∃ u : State, exec (.hostCredit f) s = .next u.settle ∧
      u.hostLink.freedIn = BitVec.ofNat 16 (hflitField f 0 2) ∧ OnlyPorts s { u with hostLink := h } 8) ∧
    (f.type = 7 → s.portActive 8 = true → let k := (f.lseq - (h.txNext - BitVec.ofNat 12 h.replay.length)).toNat
      k < h.replay.length → h.replays + 1 < s.fld fbToLink 8 4 → ∃ u : State, exec (.hostLnak f) s = .next u.settle ∧
        h.wire ++ (h.replay.drop k).map (fun g => { g with ackseq := h.rxExpect - 1 }) <+: u.hostLink.wire ∧
        h.replay <+: u.hostLink.replay ∧ (h.waiting = [] → u.hostLink.replay = h.replay)) ∧
    (∀ k, OneFragment s f 0 k → 6 ≤ k → ∃ u : State, exec (.linkid f) s = .next u.settle ∧
      u.hostLink.postedBuf = hflitField f 6 2 ∧ u.hostLink.requestBuf = hflitField f 8 2 ∧ (u.port 8).hello = true) ∧
    (∀ k, OneFragment s f 2 k → s.portActive 8 = true → 1 ≤ k → hflitField f 4 1 ∈ [4, 8] → s.roleUp 1 = true →
      ∃ u : State, exec (.mgmtWidth f) s = .next u.settle ∧ u.portState 8 = 7 ∧
        (u.port 8).txLanes = (s.port 8).txLanes ∧ (u.port 8).rxLanes = hflitField f 4 1)

/-- R481, R482, R539 and R546: keeper's answers to SPDM requests. A request changes nothing but the line of requests, the answers and
the flits that carry them; it waits while keeper is down. In recovery mode ROM answers Busy, and measurements wait for the end of
start-up. A request that comes in a management flit is answered alike (log 15 lets the SPDM rows bring a whole message). The layouts and
codes of DSP0274 are the model's choice (log 70), and so are the free signatures (log 7). -/
def Obligations.SpdmAnswers : Prop :=
  ∀ (s : State) (slot off len index code : Nat) (signed : Bool) (nonce : List Byte) (f : HFlit),
    let replies := fun (c : Instr) (r : SpdmReply) =>
      exec c s = .next ((fragments 1 true 18 r.message).foldl State.hostSend
        { s with firm := { s.firm with replies := s.firm.replies ++ [r] } })
    let asks : List (Instr × SpdmRequest) := [(.getVersion, .version), (.getCapabilities, .capabilities),
      (.negotiateAlgorithms, .algorithms), (.getDigests, .digests), (.getCertificate slot off len, .certificate slot off len),
      (.challenge slot nonce, .challenge slot nonce), (.getMeasurements index signed nonce, .measurements index signed nonce),
      (.spdmUnsupportedRequest code, .other code)]
    (s.firm.recovery = true → s.firm.asked = [] → ∀ c ∈ asks, replies c.1 .errorBusy) ∧
    (s.firm.recovery = false → s.keeperUp = false → ∀ c ∈ asks,
      exec c.1 s = .next { s with firm := { s.firm with asked := s.firm.asked ++ [c.2] } }) ∧
    (∀ k, OneFragment s f 1 k → HostTakes s f → s.firm.asked = [] → s.firm.recovery = false →
      let r := spdmRequest (((f.payload ++ List.replicate 240 0).drop 4).take k)
      ∃ u : State, exec (.linkid f) s = .next u.settle ∧
        (s.keeperUp = false → u.firm = { s.firm with asked := [r] }) ∧
        (s.keeperUp = true → u.firm = { s.firm with replies := s.firm.replies ++ [s.spdmReply r] })) ∧
    (s.firm.recovery = false → s.keeperUp = true → s.firm.asked = [] →
      replies .getVersion .version ∧ replies .getCapabilities .capabilities ∧ replies .negotiateAlgorithms .algorithms ∧
      replies .getDigests (.digests (digestBytes (Config.sha384 s.certChain))) ∧
      replies (.getCertificate slot off len)
        (if slot = 0 ∧ off < 0x10000 then .certificate ((s.certChain.drop off).take len) else .errorInvalid) ∧
      replies (.challenge slot nonce) (if slot = 0 then .challengeAuth nonce (Config.identitySignature nonce) else .errorInvalid) ∧
      replies (.spdmUnsupportedRequest code) .errorUnsupported ∧
      (s.fld fwStatus 8 1 = 0 → replies (.getMeasurements index signed nonce) .errorBusy) ∧
      (s.fld fwStatus 8 1 = 1 → 1 ≤ index → index ≤ 4 → index ≤ s.firm.measurements.length →
        let v := s.firm.measurements.getD (index - 1) 0
        replies (.getMeasurements index signed nonce) (.measurements index [v] nonce
          (if signed then some (Config.identitySignature (nonce ++ digestBytes v)) else none))) ∧
      (s.fld fwStatus 8 1 = 1 → replies (.getMeasurements 255 false nonce) (.measurements 255 s.firm.measurements nonce none)) ∧
      (s.fld fwStatus 8 1 = 1 → replies (.getMeasurements 0 false nonce) (.measurements 0 [] nonce none)) ∧
      (s.fld fwStatus 8 1 = 1 → 5 ≤ index → index ≠ 255 → replies (.getMeasurements index signed nonce) .errorInvalid))

/-! ## Register space -/

/-- The world and the register of a command that writes a register. -/
def regWritten : Instr → Option (Bool × Nat)
  | .attach sec _ => some (sec, 0x8100200010)
  | .renew sec _ => some (sec, 0x8100200018)
  | .hqptrWrite sec q _ => some (sec, hqPtr q)
  | .hqcfgWrite sec q _ => some (sec, hqCfg q)
  | .evptrWrite sec _ => some (sec, evPtr)
  | .logptrWrite sec _ => some (sec, logPtr)
  | .srptrWrite sec j _ => some (sec, fwSrptr j)
  | .slogptrWrite sec _ => some (sec, slogPtr)
  | .ringConfigWrite sec a _ => if isRingConfig a then some (sec, a) else none
  | .syOcfgWrite sec n _ => some (sec, syOcfg n)
  | .syOvalWrite sec n _ => some (sec, syOcfg n)
  | .syOaddWrite sec n _ => some (sec, syOcfg n + 16)
  | .nwSpanWrite sec k _ => some (sec, nwSpan k)
  | .rvChanbaseWrite sec c ch _ => some (sec, rvChanBase c ch)
  | .rvChanWrite sec c ch _ => some (sec, rvChan c ch)
  | .rvStageWrite sec c _ => some (sec, rvStage c)
  | .fbProfileWrite sec _ => some (sec, fbProfile)
  | .fbRouteWrite sec n _ => some (sec, fbRoute n)
  | .fbRankmapWrite sec n _ => some (sec, fbRankmap n)
  | .portEnable sec p _ => some (sec, fbPctl p)
  | .portRetrain sec p _ => some (sec, fbPctl p)
  | .fbCcfgWrite sec ch _ => some (sec, fbCcfg ch)
  | .release sec j _ => some (sec, fbJobpol j)
  | .checkpointNow sec j _ => some (sec, fwCkctl j)
  | .restoreFromPartner sec j _ => some (sec, fwCkctl j)
  | .restoreFromFlash sec j _ => some (sec, fwCkctl j)
  | .restoreFromSnapshot sec j _ => some (sec, fwCkctl j)
  | .releaseSnapshot sec j _ => some (sec, fwCkctl j)
  | .invalidate sec _ => some (sec, 0x8100900008)
  | .functionLevelReset sec _ => some (sec, 0x8100900018)
  | .perCoreReset sec _ => some (sec, fwCorerst)
  | .imageUpdateGo sec _ => some (sec, fwUpdlen)
  | .keeperRequest sec _ => some (sec, fwKctl)
  | .nwFencereq sec _ => some (sec, nwFencereq)
  | .recoveryWrite sec _ => some (sec, flRecovctl)
  | .recoveryFinish sec _ => some (sec, flRecovctl)
  | .swRegionWrite sec a _ => if isWorldReg a then some (sec, a) else none
  | .registerWrite sec a _ => some (sec, if 0x8300000000 ≤ a ∧ a < 0x8300100000 ∧ a % 64 = 8 then a - 8 else a)
  | _ => none

/-- The object whose SY_OVAL a command writes. -/
def ovalWritten : Instr → Option Nat
  | .syOvalWrite _ n _ => some n
  | .registerWrite _ a _ => if 0x8300000000 ≤ a ∧ a < 0x8300100000 ∧ a % 64 = 8 then some ((a - 0x8300000000) / 64) else none
  | _ => none

/-- R13, R317, R386 and R587: a write that its world blocks changes no register but SW_BLOCKED, which counts 1, and the secure log; a
write that is ignored, or of an address without a register, changes nothing, and neither does a write of SY_OVAL of an object that is
no counter, which is counted nowhere. -/
def Obligations.WritesAreAdmitted : Prop :=
  ∀ (i : Instr) (s : State) (sec : Bool) (a : Nat), Quiet s → regWritten i = some (sec, a) →
    (s.admits sec true a = .blocked → (∀ n, ovalWritten i = some n → s.objKind n = 1) → ∃ t, exec i s = .next t ∧ t.reg swBlocked = s.reg swBlocked + 1 ∧ BesidesRecords s t) ∧
    (∀ n, ovalWritten i = some n → s.objKind n ≠ 1 → exec i s = .next s) ∧
    (s.admits sec true a = .ignored → exec i s = .next s) ∧
    (s.admits sec true a = .reserved → exec i s = .next s)

/-- Registers of register space whose write does more than set fields (their rows have statements of their own). -/
def acts (a : Nat) : Bool :=
  (isWindow a && ((decide (0x82500 ≤ winOff a) && decide (winOff a < 0x82700) && winOff a % 16 == 0) || winOff a == 0x82408)) ||
    isRingConfig a || isWorldReg a || isRankmapReg a ||
    [0x8100200010, 0x8100200018, evPtr, logPtr, fbProfile, 0x8100900008, 0x8100900018, fwCorerst, fwUpdlen, slogPtr, fwKtoken,
      fwKctl, flStatus, flRecovctl, nwFencereq].contains a ||
    (decide (0x8100210000 ≤ a) && decide (a < 0x8100212000) && (a % 32 == 0 || a % 32 == 24)) ||
    (decide (0x8100301000 ≤ a) && decide (a < 0x8100301900) && a % 0x100 == 0) ||
    (decide (0x8100314000 ≤ a) && decide (a < 0x8100314200)) ||
    (decide (0x8100908000 ≤ a) && decide (a < 0x810090A000) && (a % 0x80 == 0x10 || a % 0x80 == 0x38)) ||
    (decide (0x8300000000 ≤ a) && decide (a < 0x8400000000))

/-- Register `a` takes a write of `v`: each field that the world may write holds the written bits, clamped as its class says, and
every other field and everything else stays. -/
def FieldsSet (s t : State) (sec : Bool) (a : Nat) (v : Reg) : Prop :=
  { t with regs := s.regs } = s ∧ (∀ b, b ≠ a → t.reg b = s.reg b) ∧
    ∀ d, regDesc a = some d → ∀ f ∈ d.fields, f.clamp ≠ .special → t.fld a f.lo f.w =
      if f.acc = .rw ∧ (sec = true ∨ f.secure = false) then s.clampField a d f 0 (bitsOf v.toNat f.lo f.w) % 2 ^ f.w
      else s.fld a f.lo f.w

/-- R335, R408, R454, R582 and R588: registers whose write sets their fields alone. A span entry stays inside the array (R145), a
channel's depth within its limit, and a collective channel's rank below its number of ranks. -/
def Obligations.RegisterFieldsSet : Prop :=
  ∀ (s : State) (sec : Bool) (a n c : Nat) (v : BitVec 64),
    (acts a = false → s.admits sec true a = .ok → (∀ d f, regDesc a = some d → f ∈ d.fields → f.acc ≠ .slot) →
      ∃ u : State, exec (.registerWrite sec a v) s = .next u.settle ∧ FieldsSet s u sec a v) ∧
    (s.admits sec true (nwSpan n) = .ok → n < 256 → 0 < s.width → ∃ t, exec (.nwSpanWrite sec n v) s = .next t ∧
      FieldsSet s t sec (nwSpan n) v ∧ t.spanFld n 0 5 + t.spanFld n 10 5 < s.width ∧ t.spanFld n 5 5 + t.spanFld n 15 5 < 32) ∧
    (s.admits sec true (rvChan c n) = .ok → n < 32 → c < 1024 → ∃ t, exec (.rvChanWrite sec c n v) s = .next t ∧
      FieldsSet s t sec (rvChan c n) v ∧ t.fld (rvChan c n) 32 32 ≤ t.fld (rvChan c n) 0 32) ∧
    (s.admits sec true (fbRoute n) = .ok → n < 256 → ∃ t, exec (.fbRouteWrite sec n v) s = .next t ∧
      FieldsSet s t sec (fbRoute n) v) ∧
    (s.admits sec true (fbCcfg n) = .ok → n < 1024 → ∃ t, exec (.fbCcfgWrite sec n v) s = .next t ∧
      FieldsSet s t sec (fbCcfg n) v ∧
      t.fld (fbCcfg n) 12 12 < if t.fld (fbCcfg n) 0 12 = 0 then 4096 else t.fld (fbCcfg n) 0 12)

/-- The HEAD of a ring after a write of `w`: records up to the tail can be freed, and no more (R468). -/
def headAfter (size head tail : Nat) (full : Bool) (w : Nat) : Nat :=
  let unread := if full then size else (tail + size - head) % size
  let freed := if full ∧ w % size = head then size else (w + size - head) % size
  if unread < freed then tail else w % size

/-- R463, R468, R470, R475 to R479, R515 and R575: doorbells, the heads and configurations of rings, and the lease. That a write of a
ring's configuration starts the ring at phase 1 and not full is the model's choice (log 32). -/
def Obligations.RingsAndLeaseWritten : Prop :=
  ∀ (s : State) (sec : Bool) (q j : Nat) (v : BitVec 64), q < 256 → j < 64 →
    let violates := fun (i : Instr) (c : Nat) => ∃ t, exec i s = .next t ∧ t.lease = s.lease ∧
      t.fld (hiViol c) 0 32 = satAdd 32 (s.fld (hiViol c) 0 32) 1 ∧ t.fld (hqPtr q) 0 16 = s.fld (hqPtr q) 0 16
    let token := if v = 0 then 1 else v
    (s.admits sec true (hqPtr q) = .ok → s.fld (hqCfg q) 59 1 = 1 → s.fld (hqCfg q) 60 1 = 0 →
      ∃ t, exec (.hqptrWrite sec q v) s = .next t ∧
        t.fld (hqPtr q) 0 16 = min (bitsOf v.toNat 0 16) (2 ^ s.fld (hqCfg q) 40 5 - 1) ∧
        t.fld (hqPtr q) 16 16 = s.fld (hqPtr q) 16 16 ∧ t.fld (hqPtr q) 32 16 = headAfter (2 ^ s.fld (hqCq q) 40 5)
          (s.fld (hqPtr q) 32 16) (s.fld (hqPtr q) 48 16) (s.hq q).cqFull (bitsOf v.toNat 32 16)) ∧
    (s.admits sec true (hqPtr q) = .ok → (s.fld (hqCfg q) 59 1 = 0 ∨ s.fld (hqCfg q) 60 1 = 1) → violates (.hqptrWrite sec q v) 8) ∧
    (s.admits sec true (hqCfg q) = .ok → ∃ t, exec (.hqcfgWrite sec q v) s = .next t ∧
      t.fld (hqCfg q) 0 40 = bitsOf v.toNat 0 40 / 4096 * 4096 ∧ t.fld (hqCfg q) 45 15 = bitsOf v.toNat 45 15 ∧
      (bitsOf v.toNat 59 1 = 1 → t.fld (hqCfg q) 60 1 = 0) ∧
      t.fld (hqPtr q) 0 32 = 0 ∧ ∀ c, t.core c = s.core c) ∧
    (s.admits sec true evPtr = .ok → s.pendRecs = [] → ∃ t, exec (.evptrWrite sec v) s = .next t ∧
      t.fld evPtr 0 24 = headAfter (2 ^ s.fld evRingReg 40 5) (s.fld evPtr 0 24) (s.fld evPtr 24 24) s.eventRing.full
        (bitsOf v.toNat 0 24) ∧ t.fld evPtr 24 40 = s.fld evPtr 24 40) ∧
    (s.admits sec true logPtr = .ok → s.pendRecs = [] → ∃ t, exec (.logptrWrite sec v) s = .next t ∧
      t.fld logPtr 0 24 = headAfter (2 ^ s.fld logRingReg 40 5) (s.fld logPtr 0 24) (s.fld logPtr 24 24) s.logRing.full
        (bitsOf v.toNat 0 24) ∧ t.fld logPtr 24 40 = s.fld logPtr 24 40) ∧
    (s.admits sec true (fwSrptr j) = .ok → (s.job j).heldRecords = [] → ∃ u : State, exec (.srptrWrite sec j v) s = .next u.settle ∧
      u.fld (fwSrptr j) 0 16 = headAfter (s.srSlots j) (s.fld (fwSrptr j) 0 16) (s.fld (fwSrptr j) 16 16) (s.job j).srFull
        (bitsOf v.toNat 0 16) ∧ u.fld (fwSrptr j) 16 48 = s.fld (fwSrptr j) 16 48) ∧
    (s.admits sec true slogPtr = .ok → ∃ t, exec (.slogptrWrite sec v) s = .next t ∧
      t.fld slogPtr 0 16 = headAfter 65536 (s.fld slogPtr 0 16) (s.fld slogPtr 16 16) s.secureLog.full (bitsOf v.toNat 0 16) ∧
      t.fld slogPtr 16 48 = s.fld slogPtr 16 48) ∧
    (s.admits sec true evRingReg = .ok → s.pendRecs = [] → ∃ u : State,
      exec (.ringConfigWrite sec evRingReg v) s = .next u.settle ∧ u.fld evRingReg 0 40 = bitsOf v.toNat 0 40 / 4096 * 4096 ∧
      u.fld evRingReg 57 1 = bitsOf v.toNat 57 1 ∧ u.fld evPtr 0 48 = 0 ∧
        u.eventRing.phase = true ∧ u.eventRing.full = false) ∧
    (s.admits sec true logRingReg = .ok → s.pendRecs = [] → ∃ u : State,
      exec (.ringConfigWrite sec logRingReg v) s = .next u.settle ∧ u.fld logRingReg 0 40 = bitsOf v.toNat 0 40 / 4096 * 4096 ∧
      u.fld logRingReg 57 1 = bitsOf v.toNat 57 1 ∧ u.fld logPtr 0 48 = 0 ∧
        u.logRing.phase = true ∧ u.logRing.full = false) ∧
    (s.admits sec true (fwSrring j) = .ok → (s.job j).heldRecords = [] → ∃ u : State,
      exec (.ringConfigWrite sec (fwSrring j) v) s = .next u.settle ∧
      u.fld (fwSrring j) 0 40 = bitsOf v.toNat 0 40 / 4096 * 4096 ∧ u.fld (fwSrptr j) 0 32 = 0 ∧ (u.job j).srPhase = true ∧
        (u.job j).srFull = false) ∧
    (s.admits sec true (hqCq q) = .ok → (s.hq q).pendingCpl = [] → ∃ u : State,
      exec (.ringConfigWrite sec (hqCq q) v) s = .next u.settle ∧ u.fld (hqCq q) 0 40 = bitsOf v.toNat 0 40 / 4096 * 4096 ∧
      u.fld (hqPtr q) 32 32 = 0 ∧ (u.hq q).cqPhase = true ∧ (u.hq q).cqFull = false) ∧
    (s.admits sec true 0x8100200010 = .ok → s.lease = .none → exec (.attach sec v) s = .next { s with lease := .held token }) ∧
    (s.admits sec true 0x8100200010 = .ok → s.lease = .held token → exec (.attach sec v) s = .next s) ∧
    (∀ u, s.admits sec true 0x8100200010 = .ok → s.lease = .held u → u ≠ token → violates (.attach sec v) 9) ∧
    (∀ u, s.admits sec true 0x8100200010 = .ok → s.lease = .lapsed u → (s.orphans = 0 ∨ u = token) →
      ∃ t, exec (.attach sec v) s = .next t ∧ t.lease = .held token ∧ t.jobs = s.jobs) ∧
    (s.admits sec true 0x8100200018 = .ok → s.lease = .held token → exec (.renew sec v) s = .next s) ∧
    (s.admits sec true 0x8100200018 = .ok → s.lease ≠ .held token → violates (.renew sec v) 9) ∧
    (∀ u, s.lease = .held u → ∃ t : State, exec .leaseExpiry s = .next t.settle ∧ t.lease = .lapsed u ∧
      (∀ f ∈ t.hostLink.waiting, f.type ≠ 5) ∧
      ∀ b ∈ s.active, if Hold.parked ∈ (s.job b.job).holds then Hold.orphaned ∈ (t.job b.job).holds
        else (t.job b.job).lapsing = true)

/-- R145, R249, R298, R319, R331, R345, R370, R372, R379 and R485: writes of sync objects, reservoir channels, regions, core windows
and fence requests. Model's choices: regions are zeroed one by one in the order in which they wait, and are secure until then (log 20);
the row's fence is pending from the moment a core of it is suspect (log 38). -/
def Obligations.BlocksWritten : Prop :=
  ∀ (s : State) (sec : Bool) (n c ch r off len : Nat) (v : BitVec 64) (w : BitVec 32) (d : List Byte),
    (s.admits sec true (syOcfg n) = .ok → n < 16384 → ∃ t, exec (.syOcfgWrite sec n v) s = .next t ∧ t.obj n = Obj.reset ∧
      FieldsSet s { t with objs := s.objs, waiters := s.waiters } sec (syOcfg n) v ∧ ∀ m, m ≠ n → t.obj m = s.obj m) ∧
    (s.admits sec true (syOcfg n) = .ok → s.objKind n = 1 → ∃ t, exec (.syOvalWrite sec n v) s = .next t ∧
      t.obj n = { s.obj n with value := v } ∧ (∀ m, m ≠ n → t.obj m = s.obj m) ∧ t.regs = s.regs) ∧
    (s.admits sec true (syOcfg n + 16) = .ok → s.objKind n = 1 → ∃ u : State, exec (.syOaddWrite sec n v) s = .next u.settle ∧
      u.obj n = { s.obj n with value := (s.obj n).value + v } ∧ (∀ m, m ≠ n → u.obj m = s.obj m) ∧ u.regs = s.regs) ∧
    (s.admits sec true (syOcfg n + 16) = .ok → s.objKind n = 2 → (s.obj n).arrived + 1 < s.objLocal n →
      ∃ u : State, exec (.syOaddWrite sec n v) s = .next u.settle ∧
        u.obj n = { s.obj n with arrived := (s.obj n).arrived + 1 } ∧ (∀ m, m ≠ n → u.obj m = s.obj m)) ∧
    (s.admits sec true (syOcfg n + 16) = .ok → s.objKind n = 0 → ∃ u : State, exec (.syOaddWrite sec n v) s = .next u.settle ∧
      u.fld syReject 0 32 = (s.fld syReject 0 32 + 1) % 2 ^ 32 ∧ u.objs = s.objs) ∧
    (s.admits sec true (rvChanBase c ch) = .ok → c < 1024 → ch < 32 → ∃ t, exec (.rvChanbaseWrite sec c ch v) s = .next t ∧
      t.fld (rvChanBase c ch) 0 40 = bitsOf v.toNat 0 40 / 64 * 64 ∧ t.fld (rvChan c ch) 32 32 = 0 ∧
      (t.core c).staged = (s.core c).staged.filter (fun x => x.chan != ch) ∧ ∀ k, k ≠ c → t.core k = s.core k) ∧
    (s.admits sec true (rvStage c) = .ok → c < 1024 → ∃ t, exec (.rvStageWrite sec c v) s = .next t ∧
      t.fld (rvStage c) 0 18 = bitsOf v.toNat 0 18 / 64 * 64 ∧ (t.core c).staged = [] ∧ ∀ k, k ≠ c → t.core k = s.core k) ∧
    (s.admits sec true (swRegion n) = .ok → s.roleUp 0 = true → n < 512 * s.cap64 →
      ∃ t, exec (.swRegionWrite sec (swRegion n) v) s = .next t ∧ t.reg (swRegion n) = s.reg (swRegion n) ||| v ∧
        (∀ b, b < 64 → (s.reg (swRegion n)).getLsbD b = true → v.getLsbD b = false → 64 * n + b ∈ t.zeroing) ∧
        (∀ b, b < 64 → v.getLsbD b = true → 64 * n + b ∉ t.zeroing) ∧ t.mem = s.mem) ∧
    (∀ rest, s.zeroing = r :: rest → r < 2 ^ 17 → ∃ t, exec .regionZeroingComplete s = .next t ∧ t.zeroing = rest ∧
      t.regionSecure (r * 0x200000) = false ∧
      ∀ a, (a / 0x200000 = r → t.mem.byte a = 0 ∧ t.mem.bad a = false) ∧
        (a / 0x200000 ≠ r → t.mem.byte a = s.mem.byte a ∧ t.mem.bad a = s.mem.bad a)) ∧
    (s.windowAdmits sec true c = .ok → n < 16384 → ∃ t, exec (.coreWindowImemWrite sec c n w) s = .next t ∧ OnlyCore s t c ∧
      ∀ i, mget (t.core c).imem (0, 0) i = if i = n then (w, 0) else mget (s.core c).imem (0, 0) i) ∧
    (s.windowAdmits sec true c = .ok → off < 0x30000 → ∃ t, exec (.coreWindowPondAccess sec c off len (some d)) s = .next t ∧
      OnlyCore s t c ∧ t.core c = { s.core c with pond := (s.core c).pond.write off ((d.take len).take (0x30000 - off)) }) ∧
    (s.windowAdmits sec false c = .ok → exec (.coreWindowPondAccess sec c off len none) s = .next s) ∧
    (s.windowAdmits sec true c = .blocked → n < 16384 →
      (∃ t, exec (.coreWindowImemWrite sec c n w) s = .next t ∧ t.reg swBlocked = s.reg swBlocked + 1 ∧ BesidesRecords s t) ∧
      ∃ t, exec (.coreWindowPondAccess sec c off len (some d)) s = .next t ∧ t.reg swBlocked = s.reg swBlocked + 1 ∧
        BesidesRecords s t) ∧
    (s.admits sec true nwFencereq = .ok → bitOf v.toNat 10 = true → let k := bitsOf v.toNat 0 10
      let p := s.physOf k
      s.hasCore k = true → s.fencedPhys p = false → bitOf (s.silReg p 0).toNat 44 = false →
      ∃ t, exec (.nwFencereq sec v) s = .next t ∧ bitsOf (t.silReg p 0).toNat 40 4 = 7 ∧ bitOf (t.silReg p 0).toNat 44 = true ∧
        (∃ f ∈ t.fences, f.row = k / 32 ∧ p ∈ f.fenced) ∧ { t with silicon := s.silicon, fences := s.fences } = s)

/-- R416, R448, R453, R498, R559 and R566 to R568: routes, ranks, releases, saved settings and the resets that registers ask for. A new
profile's routes are built by the pilot, and wait while it is down. Model's choices: the moments at which
a function-level reset discards and ends, and that waiting resets of single cores are kept (log 18), and that the module's own rank is the
lowest one that names it (log 30). -/
def Obligations.PoliciesAndResetsWritten : Prop :=
  ∀ (s : State) (sec : Bool) (n j : Nat) (v : BitVec 64), n < 4096 → j < 64 →
    (s.admits true true fbProfile = .ok → s.roleUp 1 = false → ∃ t, exec (.fbProfileWrite true v) s = .next t ∧
      t.firm.reroute = true ∧ ∀ a, t.route a = s.route a) ∧
    (s.admits true true fbProfile = .ok → s.roleUp 1 = true → s.ownRank ≠ 0x1000 → ∃ t, exec (.fbProfileWrite true v) s = .next t ∧
      ∀ p, s.rankValid n = true → t.profilePort s.ownRank n = some p → ∃ m q, n ≤ m ∧ m < 4096 ∧ s.rankValid m = true ∧
        s.rankAddr m = s.rankAddr n ∧ t.profilePort s.ownRank m = some q ∧ t.route (s.rankAddr n) = q) ∧
    (exec (.fbProfileWrite false v) s = .next s ∧ exec (.fbRankmapWrite false n v) s = .next s.settle) ∧
    (s.admits true true (fbRankmap n) = .ok → ∃ u : State, exec (.fbRankmapWrite true n v) s = .next u.settle ∧
      u.fld (fbRankmap n) 0 13 = v.toNat % 2 ^ 13 ∧ ∀ c, u.core c = s.core c) ∧
    (s.admits sec true (fbJobpol j) = .ok → bitOf v.toNat 4 = true → s.fld (fbJobpol j) 45 1 = 1 →
      (∀ f, (s.flow f).heldMarkers = []) → ∃ u : State, exec (.release sec j v) s = .next u.settle ∧
        u.fld (fbJobpol j) 45 1 = 0 ∧ u.jobAttempt j = 0 ∧ u.fld (fbJobpol j) 0 4 = bitsOf v.toNat 0 4 ∧
        Hold.parked ∉ (u.job j).holds ∧ Hold.killed ∉ (u.job j).holds) ∧
    (s.admits sec true 0x8100900008 = .ok → bitOf v.toNat 0 = true → ∃ t, exec (.invalidate sec v) s = .next t ∧
      t.firm.saved = none ∧ t.fld fwStatus 6 1 = 0 ∧ t.firm.flash = s.firm.flash ∧ t.firm.history = s.firm.history ∧
      ∀ w ∈ t.firm.writes, w ∈ s.firm.writes ∧ w ≠ .savedCrc ∧ ∀ a, w ≠ .savedBody a) ∧
    (s.admits sec true 0x8100900018 = .ok → bitOf v.toNat 0 = true → s.flrRuns = false → s.roleUp 0 = true →
      ∃ u : State, exec (.functionLevelReset sec v) s = .next u.settle ∧ u.fld fwStatus 5 1 = 1 ∧ u.lease = .none ∧
        u.pendRecs = [] ∧ (∀ q, q < 256 → s.hqSecure q = false → u.reg (hqCfg q) = regReset (hqCfg q) ∧ u.hq q = HQ.reset) ∧
        (∀ c, s.hasCore c = true → s.coreSecure c = false → (u.core c).mode = .halted ∧ ∀ r, (u.core c).rg r = 0) ∧
        (∀ i, 0 < i → i < 64 → s.jobSecure i = false → u.fld (fwSrring i) 50 1 = 0) ∧
        ∀ a ∈ u.active, a.job = 0 ∨ 64 ≤ a.job ∨ (s.jobSecure a.job = true ∧ Hold.orphaned ∉ (s.job a.job).holds)) ∧
    (s.flrRuns = true → ∃ t, exec .flrComplete s = .next t ∧ t.flrRuns = false ∧
      (∀ a, a < fwBase → s.regionSecure a = false → t.mem.byte a = 0 ∧ t.mem.bad a = false) ∧
      ∀ a, fwBase ≤ a ∨ s.regionSecure a = true → t.mem.byte a = s.mem.byte a) ∧
    (s.admits sec true fwCorerst = .ok → bitOf v.toNat 10 = true → let k := bitsOf v.toNat 0 10
      s.hasCore k = true → (sec = true ∨ s.coreSecure k = false) → (s.flrRuns = false ∨ s.coreSecure k = true) →
      (s.resetWaits k = true → ∃ u : State, exec (.perCoreReset sec v) s = .next u.settle ∧ k ∈ u.firm.resetsDue ∧
        ∀ c, u.core c = s.core c) ∧
      (s.resetWaits k = false → ∃ u : State, exec (.perCoreReset sec v) s = .next u.settle ∧
        (∀ c ∈ s.resetCores k, (u.core c).mode = .halted ∧ (u.core c).launch = none ∧ (∀ r, (u.core c).rg r = 0) ∧
          (u.core c).imem = (s.core c).imem ∧ (u.core c).flags = 0) ∧ ∀ a, s.spanOf k = some a → u.jobSpans a.job = []))

/-- R538, R540 to R542 and R547 to R549: image updates, recovery writes, and settings that the host asks keeper for. Model's choices:
the moments at which an image is read, its header erased and the rest written (log 35), and at which a request is checked and carried out
(log 34). -/
def Obligations.FirmwareRequestsAct : Prop :=
  ∀ (s : State) (sec : Bool) (v : BitVec 64),
    let erased := fun (t : State) (a : Nat) => flashByte t.firm.flash a = 0xFF
    let sorted := s.firm.flash.Pairwise fun x y => x.1 < y.1
    (s.admits sec true fwUpdlen = .ok → bitOf v.toNat 26 = true → s.fld fwUpdstat 0 3 ∉ [1, 2] → s.keeperUp = true →
      ∃ t, exec (.imageUpdateGo sec v) s = .next t ∧ t.fld fwUpdstat 0 3 = 1 ∧ t.fld fwUpdstat 3 4 = 0 ∧
        t.fld fwUpdlen 0 26 = min (bitsOf v.toNat 0 26) 50331648 ∧
        t.firm.updating = s.devBytes true (s.fld fwUpdate 0 40) (t.fld fwUpdlen 0 26) ∧ t.firm.flash = s.firm.flash) ∧
    (s.keeperUp = true → s.fld fwUpdstat 0 3 = 1 → s.firm.updating ≠ [] → ∃ t, exec .imageUpdateChecked s = .next t ∧
      (s.copyReason = 0 → t.fld fwUpdstat 0 3 = 2 ∧ (∀ a, a < 4096 → erased t a) ∧
        ∀ a, 4096 ≤ a → flashByte t.firm.flash a = flashByte s.firm.flash a) ∧
      (s.copyReason ≠ 0 → t.fld fwUpdstat 0 3 = 4 ∧ t.fld fwUpdstat 3 4 = s.copyReason ∧ t.firm.flash = s.firm.flash)) ∧
    (s.keeperUp = true → s.fld fwUpdstat 0 3 = 2 → sorted → ∃ t, exec .imageUpdateWritten s = .next t ∧
      t.fld fwUpdstat 0 3 = 3 ∧ ∀ a, flashByte t.firm.flash a =
        if a < s.firm.updating.length then s.firm.updating.getD a 0 else flashByte s.firm.flash a) ∧
    (s.admits sec true fwKctl = .ok → bitOf v.toNat 0 = true → s.fld fwKctl 1 2 ≠ 1 → s.keeperUp = true →
      let a := s.fld fwKaddr 0 40
      let x := s.reg fwKdata
      let r := s.keeperRefusal a x
      (r ≠ 0 → ∃ t, exec (.keeperRequest sec v) s = .next t ∧ t.fld fwKctl 1 2 = 3 ∧ t.fld fwKctl 3 4 = r ∧
        t.firm.keeper = none ∧ ∀ b, b ≠ fwKctl → t.reg b = s.reg b) ∧
      (r = 0 → ∃ t, exec (.keeperRequest sec v) s = .next t ∧ t.fld fwKctl 1 2 = 1 ∧
        ∃ w, t.firm.keeper = some w ∧ w.addr = a ∧ w.value = x ∧ w.admitted = true)) ∧
    (∀ w, s.firm.keeper = some w → w.admitted = true → w.waitRank = none → s.keeperUp = true →
      (w.addr = fbCfg → ∃ u : State, exec .keeperRequestDone s = .next u.settle ∧ u.fld fwKctl 1 6 = 2 ∧ u.firm.keeper = none ∧
        u.fld fbCfg 0 12 = w.value.toNat % 2 ^ 12 ∧ ∀ c, u.core c = s.core c) ∧
      (∀ n, n < 16 → w.addr = swWcore n → ∃ u : State, exec .keeperRequestDone s = .next u.settle ∧ u.fld fwKctl 1 6 = 2 ∧
        u.firm.keeper = none ∧ u.reg (swWcore n) = w.value ∧
        ∀ b, b < 64 → (s.reg (swWcore n)).getLsbD b = true → w.value.getLsbD b = false → s.hasCore (64 * n + b) = true →
          (u.core (64 * n + b)).pond = Mem.reset ∧ (u.core (64 * n + b)).imem = [] ∧ (u.core (64 * n + b)).mode = .halted)) ∧
    (s.admits sec true flRecovctl = .ok → bitOf v.toNat 43 = true → s.fld flRecovstat 0 2 = 1 →
      ∃ t, exec (.recoveryWrite sec v) s = .next t ∧ t.fld flRecovstat 0 2 = 2 ∧ (∀ a, a < 4096 → erased t a) ∧
        (∀ i, i < t.fld flRecovctl 26 17 → erased t (t.fld flRecovctl 0 26 + i)) ∧ t.firm.recov.isSome = true) ∧
    (s.fld flRecovstat 0 2 = 2 → sorted → let o := s.fld flRecovctl 0 26
      let buf := fun i : Nat => BitVec.ofNat 8 ((s.reg (flRecovbuf + 8 * (i / 8))).toNat / 2 ^ (8 * (i % 8)))
      ∃ t, exec .recoveryWriteDone s = .next t ∧ t.fld flRecovstat 0 2 = 1 ∧
        (∀ i, i < s.fld flRecovctl 26 17 → 4096 ≤ o + i → flashByte t.firm.flash (o + i) = buf i) ∧
        (o = 0 → ∀ i, i < s.fld flRecovctl 26 17 → i < 4096 → (t.firm.recov.getD []).getD i 0 = buf i)) ∧
    (s.admits sec true flRecovctl = .ok → bitOf v.toNat 43 = false → bitOf v.toNat 44 = true → s.fld flRecovstat 0 2 = 1 →
      let flash := match s.firm.recov with
        | some h => flashPut s.firm.flash 0 h
        | none => s.firm.flash
      let r := imageReason (flashByte flash) s.fuses.keyhash s.fuses.rollback
      ∃ t, exec (.recoveryFinish sec v) s = .next t ∧ t.firm.flash = flash ∧ t.firm.recov = none ∧
        (r ≠ 0 → t.fld flRecovstat 2 4 = r ∧ t.firm.recovery = s.firm.recovery) ∧
        (r = 0 → t.firm.recovery = false ∧ t.fld fwStatus 0 3 = 0 ∧ t.fld pmResetcause 0 2 = s.fld pmResetcause 0 2))

/-! ## Faults, power, firmware processors, resets and start-up -/

/-- R300, R303, R305, R306, R308, R484, R485, R489, R491, R492 and R494: a row fence shifts a row once its jobs are held and fences its
suspects when the shift ends, rows beside one another; mesh errors count at their router and decay; copies of a memory controller end; the
patrol scrub marks what it cannot correct, or hides it beneath a line that the lake holds (R309); an error in a core's own state counts,
one that cannot be corrected poisons its granule or is a consumption and makes the core suspect, and so does a parity error of a granule.
Model's choices: which suspects a shift takes and when (log 38), how poison hides beneath a line of the lake and which pages are retired
with it (log 50), the addresses that name where in a core an error lies and what each of them does (log 53), and that the address of a
consumption in instruction memory is its place in the core's window (log 12). -/
def Obligations.FaultsAreHandled : Prop :=
  ∀ (s : State) (y pc mc c o : Nat) (f : RowFence) (e : MemErr),
    (s.fences.find? (fun g => g.row == y && !g.shifting) = some f → s.roleUp 2 = true → (∀ g ∈ s.fences, g.row = y → g.shifting = false) →
      (∀ j ∈ s.fenceJobs y (s.fenceNarrows y (s.fenceTakes f)), s.fenceHeld j = true) → ∃ t, exec (.rowFence y) s = .next t ∧
        (∃ g ∈ t.fences, g.row = y ∧ g.shifting = true ∧ g.fenced = s.fenceTakes f) ∧ { t with fences := s.fences } = s) ∧
    (s.fences.find? (fun g => g.row == y && g.shifting) = some f → s.roleUp 2 = true →
      ∃ u : State, exec (.rowShiftComplete y) s = .next u.settle ∧ (∀ p ∈ f.fenced, u.fencedPhys p = true) ∧
        (∀ g ∈ u.fences, g.row = y → g.shifting = false) ∧ u.width = (if f.narrow = true ∧ s.fenceNarrows y f.fenced = true then s.width - 1 else s.width)) ∧
    (pc < 1152 → (∀ k, k < 4 → bitsOf (s.silReg pc 3).toNat (8 * k) 8 < 15) → ∃ t, exec (.meshLinkError pc) s = .next t ∧
      bitsOf (t.silReg pc 0).toNat 16 16 = satAdd 16 (bitsOf (s.silReg pc 0).toNat 16 16) 1 ∧
      { t with silicon := s.silicon, fences := s.fences, freeCtr := s.freeCtr } = s ∧
      (s.fld 0x8100B00008 16 16 ≤ satAdd 16 (bitsOf (s.silReg pc 0).toNat 16 16) 1 → s.fencedPhys pc = false →
        bitOf (t.silReg pc 0).toNat 44 = true)) ∧
    (s.roleUp 2 = true → (s.silicon.map Prod.fst).Nodup → ∃ t, exec .errorDecay s = .next t ∧
      { t with silicon := s.silicon } = s ∧ ∀ p, bitsOf (t.silReg p 0).toNat 0 16 = bitsOf (s.silReg p 0).toNat 0 16 / 2 ∧
        bitsOf (t.silReg p 0).toNat 16 16 = bitsOf (s.silReg p 0).toNat 16 16 / 2 ∧
        bitsOf (t.silReg p 0).toNat 32 32 = bitsOf (s.silReg p 0).toNat 32 32) ∧
    (∀ pch page, mc < 8 → (s.mc mc).copies = [.page pch page] → ∃ t, exec (.pageRetiredCopyDone mc) s = .next t ∧
      (t.mc mc).copies = [] ∧ t.fld (mcReg mc 0) 13 1 = 0 ∧ ∀ m, m ≠ mc → t.mc m = s.mc m) ∧
    (∀ pch, mc < 8 → (s.mc mc).copies = [.pch pch] → ∃ t, exec (.pchSpareCopyDone mc) s = .next t ∧
      (t.mc mc).copies = [] ∧ t.fld (mcReg mc 0) 13 1 = 0 ∧ ∀ m, m ≠ mc → t.mc m = s.mc m) ∧
    (mc < 8 → e.check = .hbm → lineStack e.addr = mc → e.addr < s.capacity →
      let calm := 1 < s.poolFree mc ∧ ∀ pch, ((s.mc mc).retired.filter fun r => r.1 == pch).length < s.fld (mcReg mc 0x18) 8 12
      ∃ t, exec (.patrolScrub mc [e]) s = .next t ∧ (calm → t.mem.bytes = s.mem.bytes) ∧
      (e.uncorrectable = true → t.fld (mcReg mc 8) 32 32 = satAdd 32 (s.fld (mcReg mc 8) 32 32) 1 ∧
        (calm → if mhas s.lake (e.addr / 256) then t.mem = s.mem ∧ e.addr / 32 ∈ t.hidden else t.mem.bad e.addr = true)) ∧
      (e.uncorrectable = false → t.fld (mcReg mc 8) 0 32 = satAdd 32 (s.fld (mcReg mc 8) 0 32) 1 ∧ (calm → t.mem = s.mem))) ∧
    (s.hasCore c = true → e.addr = cw c o → o < 196608 → e.check = .parity → foundBy c false e = true ∧
      let t := s.memError e
      let p := s.physOf c
      t.mem = s.mem ∧ (t.core c).pond.bytes = (s.core c).pond.bytes ∧ (t.core c).pond.bad o = true ∧
      bitsOf (t.silReg p 0).toNat 32 8 = satAdd 8 (bitsOf (s.silReg p 0).toNat 32 8) 1 ∧
      (s.fencedPhys p = false → bitOf (t.silReg p 0).toNat 44 = true)) ∧
    (s.hasCore c = true → e.addr = cw c o → o < 0x50000 → e.check = .coreEcc → foundBy c false e = true ∧
      let t := s.memError e
      let p := s.physOf c
      t.mem = s.mem ∧ (t.core c).pond.bytes = (s.core c).pond.bytes ∧
      (e.uncorrectable = true → (s.fencedPhys p = false → bitOf (t.silReg p 0).toNat 44 = true) ∧
        (o < 196608 → (t.core c).pond.bad o = true ∧
          bitsOf (t.silReg p 1).toNat 32 32 = satAdd 32 (bitsOf (s.silReg p 1).toNat 32 32) 1) ∧
        (0x40000 ≤ o → s.coreJob c ≠ 0 → (s.job (s.coreJob c)).killLatch = none →
          (t.job (s.coreJob c)).killLatch = some (7, c, 0, e.addr))) ∧
      (e.uncorrectable = false → t.core c = s.core c ∧
        bitsOf (t.silReg p 0).toNat 0 16 = satAdd 16 (bitsOf (s.silReg p 0).toNat 0 16) 1 ∧
        (o < 196608 → bitsOf (t.silReg p 1).toNat 0 32 = satAdd 32 (bitsOf (s.silReg p 1).toNat 0 32) 1)))

/-- R501 to R504, R552, R590 to R593, R596 and R600: the governor gives a unit that ramps alone the largest setting that keeps each rail
within one step of what it drew, and takes the cores under self-test as units in stage 3; the output contacts show alert, rails and trip; the thermal throttle follows the hottest sensor, and the power cap follows the input power. -/
def PowerIsManaged : Prop :=
  ∀ (s : State),
    (∀ a, s.active = [a] → s.testing = false → a.running = true → s.govN a < 16 → ∃ t, exec .governorInterval s = .next t ∧
      let n := t.govN a
      let allow := fun r : Nat => s.draw a r (s.govN a) + s.fld pmGovCfg 0 8 * 16000
      2 ≤ n ∧ n ≤ 16 ∧ (n ≠ 2 → ∀ r, r < 8 → a.railCores r ≠ 0 → s.draw a r n ≤ allow r) ∧
      (n ≠ 16 → ∃ r, r < 8 ∧ a.railCores r ≠ 0 ∧ allow r < s.draw a r (n + 1)) ∧
      t.power.railEnd = s.railLoads ∧
      t.active = [{ a with stretch := min n (min (s.fld pmStatus 0 5) (s.fld pmStatus 5 5)) }]) ∧
    (∀ a, s.active = [a] → s.testing = false → let t := s.wake a.corner
      let n := t.govN a
      let allow := fun r : Nat => s.allowance.getD r 0
      2 ≤ n ∧ n ≤ 16 ∧ (n ≠ 2 → ∀ r, r < 8 → a.railCores r ≠ 0 → s.draw a r n ≤ allow r) ∧
      (n ≠ 16 → ∃ r, r < 8 ∧ a.railCores r ≠ 0 ∧ allow r < s.draw a r (n + 1)) ∧
      t.fld pmGovStat 0 32 = (s.fld pmGovStat 0 32 + (if n < 16 then 1 else 0)) % 2 ^ 32 ∧
      t.active = [{ a with stretch := min n (min (s.fld pmStatus 0 5) (s.fld pmStatus 5 5)) }]) ∧
    (s.active = [] → s.testing = false →
      exec .governorInterval s = .next { s with power := { s.power with railEnd := List.replicate 8 0 } }) ∧
    (s.testing = true → ∃ t, exec .governorInterval s = .next t ∧ t.firm.bistTicks = s.firm.bistTicks + 1 ∧ t.cores = s.cores ∧
      t.active = s.active ∧ (∀ a, a ≠ pmGovStat → t.reg a = s.reg a) ∧
      ((∀ p, 2 ≤ s.bistN p ∧ s.bistN p ≤ 16) → ∀ p, 2 ≤ t.bistN p ∧ t.bistN p ≤ 16)) ∧
    s.alertLow = (decide (s.fld pmStatus 12 1 = 1) || s.heldInRom) ∧ s.pwrgd = s.power.rails ∧ s.thermtripLow = s.power.tripped ∧
    (∀ temps, s.power.rails = true → let s1 := s.sense temps
      let thr := s.fld pmThermCfg 0 8
      let hyst := s.fld pmThermCfg 8 4
      ∃ t, exec (.thermalEvaluation temps) s = .next t ∧ t.power = s1.power ∧
        (s1.power.temps.any Prod.snd = false → t.fld pmStatus 0 5 = 2 ∧ t.fld pmStatus 10 1 = 1) ∧
        (s1.power.temps.any Prod.snd = true → t.fld pmStatus 12 1 = bitNat (s.fld pmThermCfg 12 8 ≤ s1.tmax) ∧
          (thr ≤ s1.tmax → t.fld pmStatus 0 5 = max 2 (16 - 2 * (s1.tmax - thr + 1)) ∧ t.fld pmStatus 10 1 = 1) ∧
          (s1.tmax < thr → s1.tmax ≤ thr - hyst → t.fld pmStatus 0 5 = 16 ∧ t.fld pmStatus 10 1 = 0) ∧
          (s1.tmax < thr → thr - hyst < s1.tmax → t.fld pmStatus 0 5 = s.fld pmStatus 0 5 ∧
            t.fld pmStatus 10 1 = s.fld pmStatus 10 1))) ∧
    (∀ vin iin pin, s.power.rails = false → exec (.powerCapEvaluation vin iin pin) s = .next { s with power :=
      { s.power with vinMv := BitVec.ofNat 16 vin, iin := BitVec.ofNat 16 iin, pin := BitVec.ofNat 16 pin } }) ∧
    (∀ vin iin pin, s.power.rails = true → pin < 65536 → let watts := s.fld 0x8100100020 0 16
      let n := s.fld pmStatus 5 5
      ∃ t, exec (.powerCapEvaluation vin iin pin) s = .next t ∧ t.power.pin = BitVec.ofNat 16 pin ∧
        (s.fld 0x8100100020 16 1 = 0 → t.fld pmStatus 5 5 = 16 ∧ t.fld pmStatus 11 1 = 0) ∧
        (s.fld 0x8100100020 16 1 = 1 → watts < pin → t.fld pmStatus 5 5 = max 2 (n - 1)) ∧
        (s.fld 0x8100100020 16 1 = 1 → pin * 100 < watts * 95 → t.fld pmStatus 5 5 = min 16 (n + 1)) ∧
        (s.fld 0x8100100020 16 1 = 1 → pin ≤ watts → watts * 95 ≤ pin * 100 → t.fld pmStatus 5 5 = n))

/-- R604 and R605: the SMBus target answers each code with its bytes, least significant first, and their packet error code; a code or a
write that it does not have is NACKed. Nothing else of the device changes. The polynomial of the error code is that of SMBus 3.2
(log 40). -/
def SmbusTells (s : State) : Prop :=
    let answer := fun (i : Instr) (before d : List Byte) =>
      exec i s = .next { s with firm := { s.firm with smbus := some d, smbusPec := some (crc8 (before ++ d)) } }
    let replies := fun (i : Instr) (code : Byte) (d : List Byte) => answer i [0x94, code, 0x95] d
    answer .smbusReadIdentity [0x94, 0x00, 0x95, 16] ([0x45, 0x5A, 0xDA, 0x0A] ++ leBytes 1 s.fuses.stepping.toNat ++ leBytes 1 s.fuses.romver.toNat ++
      leBytes 2 0 ++ leBytes 8 s.fuses.serial.toNat) ∧
    replies .smbusReadStatus 1 (leBytes 2 (bitNat s.power.rails + 2 * bitNat (!s.power.good) + 4 * s.fld pmStatus 12 1 +
      8 * bitNat s.power.tripped + 16 * s.fld fwStatus 0 3 + 128 * s.fld fwStatus 8 1)) ∧
    replies .smbusReadTmax 2 (leBytes 2 (if s.power.rails then s.tmax % 256 else 0xFFFF)) ∧
    replies .smbusReadVin 3 (leBytes 2 s.power.vinMv.toNat) ∧ replies .smbusReadIin 4 (leBytes 2 s.power.iin.toNat) ∧
    replies .smbusReadPin 5 (leBytes 2 s.power.pin.toNat) ∧ replies .smbusReadResetcause 6 (leBytes 1 (s.fld pmResetcause 0 2)) ∧
    replies .smbusReadFeedId 7 (leBytes 1 s.power.feedId.toNat) ∧
    (s.fld pmStatus 12 1 = 1 → answer .smbusAlertResponse [0x19] [0x4A]) ∧
    (s.fld pmStatus 12 1 = 0 → exec .smbusAlertResponse s = .next s) ∧
    ∀ code write, (write = true ∨ 7 < code) → exec (.smbusNack code write) s =
      .next { s with firm := { s.firm with smbus := none, smbusPec := none, smbusNacks := s.firm.smbusNacks + 1 } }

/-- R605: the target answers whenever VIN is at 39.0 V or above, in reset or not. That it goes on below 39.0 V, down to 36.0 V, is the
model's choice (log 40). -/
def SmbusAnswers : Prop :=
  (∀ s : State, (s.power.vin = .ok ∨ s.power.vin = .low) → 3900 ≤ s.power.vinMv.toNat → SmbusTells s) ∧
  ∀ s : State, (s.power.vin = .ok ∨ s.power.vin = .low) → s.power.vinMv.toNat < 3900 → SmbusTells s

/-- R501 to R504, R590 to R593, R604 and R605: the governor, the throttles and the SMBus target. Model's choices: the moment of an interval
and of a wake (log 39), and what the target does below 39.0 V and how it checks packets (log 40). -/
def Obligations.PowerIsManagedAndTold : Prop := PowerIsManaged ∧ SmbusAnswers

/-- A device-wide reset with a cause (R566): every register at its reset value but the cause and the power cap, which starts at the
part number's TDP; every core, memory, span, lease and ring as after power-on; fuses, boot flash and the generations in
checkpoint flash kept, and the commands that wait; what keeper still had to write is cut off (R570). -/
def DeviceReset (s t : State) (cause : Nat) : Prop :=
  t.fld pmResetcause 0 2 = cause ∧ t.fld 0x8100100020 0 16 = s.partTdp ∧
    (∀ a, a ≠ pmResetcause → a ≠ 0x8100100020 → t.reg a = regReset a) ∧ (∀ c, t.core c = Core.reset) ∧ t.mem = Mem.reset ∧
    t.lake = [] ∧ t.hidden = [] ∧ t.colls = [] ∧ t.collDone = [] ∧ t.active = [] ∧ t.lease = .none ∧ t.pendRecs = [] ∧ t.flows = [] ∧ t.ports = [] ∧ t.objs = [] ∧ t.hqs = [] ∧
    t.fuses = s.fuses ∧ t.firm.flash = s.firm.flash ∧ t.firm.saved = s.firm.saved ∧ t.firm.history = s.firm.history ∧
    t.firm.writes = [] ∧ t.pending = s.pending ∧ t.width = s.partWidth ∧
    ((s.jobs.map Prod.fst).Nodup → ∀ j, t.job j = { Job.reset with gens := (s.job j).gens })

/-- R566, R590, R594, R596, R598, R600 to R602 and R610: the inputs that reset the device, and those that release it. The die rails are up
when RST_N is high, the reference and the lock stand, VIN is in range and no trip holds them; at a power-on reset VIN has still to rise to
40.0 V. After a trip RST_N moves its level and nothing else until VIN has been below 36.0 V. A reset makes every die sensor valid again,
and the input voltage reads in the range that the event names. What else the blades measure is free, and the moments of these events are
the model's choice (log 19). -/
def Obligations.InputsReset : Prop :=
  ∀ (s : State) (feed slot : Nat),
    let p := s.power
    let anew := p.temps.map fun t => (t.1, true)
    let inputs := fun (t : State) (q : Power) => { t.power with iin := p.iin, pin := p.pin } = q
    let reads := fun (t : State) (lo hi : Nat) (q : Power) => lo ≤ t.power.vinMv.toNat ∧ t.power.vinMv.toNat < hi ∧
      { t.power with vinMv := p.vinMv, iin := p.iin, pin := p.pin } = q
    let stays := fun (t : State) => { t with power := p, freeCtr := s.freeCtr } = s
    (∃ t, exec .powerOnReset s = .next t ∧ DeviceReset s t 0 ∧
      reads t 3900 4000 { p with vin := .low, tripped := false, rails := false, temps := anew }) ∧
    (p.rstIgnored = false → p.rstN = true → ∃ t, exec .rstNAssert s = .next t ∧ DeviceReset s t 1 ∧
      inputs t { p with rstN := false, rails := false, temps := anew }) ∧
    (p.rstIgnored = true → exec .rstNAssert s = .next { s with power := { p with rstN := false } } ∧
      exec (.rstNDeassert feed slot) s = .next { s with power := { p with rstN := true } }) ∧
    (p.rstIgnored = false → p.rstN = false → ∃ t, exec (.rstNDeassert feed slot) s = .next t ∧ stays t ∧
      inputs t { p with rstN := true, feedId := BitVec.ofNat 4 feed, slotId := BitVec.ofNat 6 slot,
                        rails := p.refOk && p.lock && (p.vin == .ok) && !p.tripped }) ∧
    (p.vin = .ok ∨ p.vin = .low → ∃ t, exec .vinLowTimeout s = .next t ∧ DeviceReset s t 3 ∧
      reads t 3600 4000 { p with vin := .low, rails := false, temps := anew }) ∧
    (p.vin = .low → ∃ t, exec .vinRestored s = .next t ∧ stays t ∧
      reads t 4000 5001 { p with vin := .ok, rails := p.rstN && p.refOk && p.lock && !p.tripped && !p.rstIgnored }) ∧
    (p.vin = .ok ∨ p.vin = .low → ∃ t, exec .vinBelow36 s = .next t ∧ DeviceReset s t (s.fld pmResetcause 0 2) ∧
      reads t 0 3600 { p with vin := .below36, rails := false, rstIgnored := false, temps := anew }) ∧
    (p.lock = true → ∃ t, exec .refclkLoss s = .next t ∧ DeviceReset s t 2 ∧ t.power.lock = false ∧ t.power.rails = false) ∧
    (p.lock = false → ∃ t, exec .refclkRestored s = .next t ∧ stays t ∧
      inputs t { p with lock := true, refOk := true, rails := p.rstN && (p.vin == .ok) && !p.tripped && !p.rstIgnored }) ∧
    (p.tripped = false → p.rails = true → ∃ t, exec .thermalTrip s = .next t ∧ DeviceReset s t (s.fld pmResetcause 0 2) ∧
      inputs t { p with tripped := true, rails := false, rstIgnored := true, temps := anew })

/-- R542, R557 and R571 to R573: firmware processors crash and restart. A crashed processor keeps its role, RESTARTS counts, the
role moves to FP5 when the restart fails, the copy of its component included, or when it crashed again within WINDOW, and a crash of keeper
during start-up starts the device again. Model's choices: that a copy which fails its digest counts as a failed self-test, how
the seconds of WINDOW are counted and where a start-up goes on after a crash (log 37). -/
def Obligations.ProcessorsRestart : Prop :=
  ∀ (s : State) (fp : Nat), fp < 6 →
    let crashes := fun (i : Instr) => ∃ t, exec i s = .next t ∧ t.fld (fwProc fp) 3 2 = 1 ∧ s.fld (fwProc fp) 0 3 = t.fld (fwProc fp) 0 3 ∧
      mget t.firm.crashLosses s.firm.losses fp = s.firm.losses ∧ (∀ a, a ≠ fwProc fp → t.reg a = s.reg a) ∧ ∀ c, t.core c = s.core c
    let again := fun (i : Instr) => ∃ t, exec i s = .next t ∧ t.stage = 0 ∧ t.complete? = false ∧
      t.fld (fwProc fp) 5 16 = satAdd 16 (s.fld (fwProc fp) 5 16) 1 ∧ t.active = []
    let dies := s.power.rails = true ∧ s.procState fp = 0
    (dies → s.procRole fp ∉ [0, 6] → crashes (.watchdogExpiry fp) ∧ crashes (.processorCrash fp)) ∧
    (dies → s.procRole fp = 0 → s.complete? = true → crashes (.watchdogExpiry fp) ∧ crashes (.processorCrash fp)) ∧
    (dies → s.procRole fp = 0 → s.complete? = false → again (.watchdogExpiry fp) ∧ again (.processorCrash fp)) ∧
    (s.procState fp = 1 → s.procRole fp ≠ 0 → s.keeperUp = true → s.complete? = true →
      s.copyGood (s.procRole fp) = true → s.crashedAgain fp = false →
      ∃ u : State, exec (.fwRestartComplete fp true) s = .next u.settle ∧ u.fld (fwProc fp) 3 2 = 0 ∧
        u.fld (fwProc fp) 0 3 = s.procRole fp ∧ u.fld (fwProc fp) 5 16 = satAdd 16 (s.fld (fwProc fp) 5 16) 1) ∧
    (∀ ok, s.procState fp = 1 → s.procRole fp ≠ 0 → s.keeperUp = true → s.complete? = true → fp < 5 → s.procRole 5 = 5 →
      s.procState 5 = 0 → (ok = false ∨ s.copyGood (s.procRole fp) = false ∨ s.crashedAgain fp = true) →
      ∃ u : State, exec (.fwRestartComplete fp ok) s = .next u.settle ∧ u.procRole fp = 6 ∧
        u.procState fp = 2 ∧ u.procRole 5 = s.procRole fp) ∧
    ((List.range 6).find? (fun p => s.procRole p = 0 && s.procState p = 1) = some fp → s.firm.recovery = false →
      let r := if s.fld fwUpdstat 0 3 = 2 then s.copyReason else s.flashReason
      ∃ t, exec .keeperRomRestartComplete s = .next t ∧
        (r = 0 → ∃ u : State, t = u.settle ∧ u.procState fp = 0 ∧ u.firm.inRom = false ∧
          u.fld (fwProc fp) 5 16 = satAdd 16 (s.fld (fwProc fp) 5 16) 1) ∧
        (r ≠ 0 → t.firm.recovery = true ∧ t.fld flRecovstat 0 2 = 1 ∧ t.fld flRecovstat 2 4 = r))

/-- R534 to R537 and R551 to R564: the stages of start-up, from the self-test of the firmware processors to the end, and the steps in which
keeper writes fuses and the boot flash, so that what a reset cuts off is no saved setting, copy of the history or mark of a core (R535,
R561, R563, R564, R570). Model's choices: the form of saved settings and history and the pace of their writes (log 36), and when ROM reads
the flash's parameter tables (log 69). -/
def Obligations.StartupStages : Prop :=
  ∀ (s : State) (k : Nat),
    let moves := fun (i : Instr) (st : Nat) (post : State → Prop) => ∃ t, exec i s = .next t ∧ t.stage = st ∧ post t ∧
      ∀ c, t.core c = s.core c
    let failedProc := fun (t : State) (p : Nat) => t.procRole p = 6 ∧ t.procState p = 2
    (∀ failed temp, s.inStage 0 = true → s.heldInRom = false →
      let bad := (List.range 6).filter fun p => failed.getD p false || s.fuses.fpbad.contains p
      (bad = [] → moves (.firmwareSelfTestDone failed temp) 1 fun t =>
        (∀ a, s.firm.saved = some a → a.crc = some (crc32 a.bytes) → a.serial = s.fuses.serial → t.fld fwStatus 6 1 = 1 ∧
          t.fld fwStatus 3 1 = bitNat (decide (a.temp - 15 ≤ temp) && decide ((temp : Int) ≤ a.temp + 15))) ∧
        ((∀ a, s.firm.saved = some a → a.crc = some (crc32 a.bytes) → a.serial ≠ s.fuses.serial) →
          t.fld fwStatus 6 1 = 0 ∧ t.fld fwStatus 3 1 = 0)) ∧
      (∀ p, bad = [p] → moves (.firmwareSelfTestDone failed temp) 1 fun t => failedProc t p ∧ (p < 5 → t.procRole 5 = p)) ∧
      (2 ≤ bad.length → moves (.firmwareSelfTestDone failed temp) 0 fun t => t.heldInRom = true ∧ ∀ p ∈ bad, failedProc t p)) ∧
    (s.inStage 1 = true → moves .imageCheckDone (if s.flashReason = 0 then 2 else 1) fun t =>
      (s.flashReason = 0 → t.firm.inRom = false ∧ t.fld fwStatus 16 7 = imageSvn (flashByte s.firm.flash) % 2 ^ 7 ∧
        t.firm.measurements.length = 3 ∧ t.firm.flashMode = s.readTables.firm.flashMode ∧ ∀ r, r < 6 → t.copyGood r = true) ∧
      (s.flashReason ≠ 0 → t.firm.recovery = true ∧ t.fld flRecovstat 0 2 = 1 ∧ t.fld flRecovstat 2 4 = s.flashReason)) ∧
    (s.inStage 2 = true → k = s.firm.wave → k < 16 → moves (.powerWave k) 2 fun t => t.firm.wave = k + 1) ∧
    (s.inStage 2 = true → s.firm.wave = 16 → k = s.firm.poweredStacks → k < 8 → moves (.stackPowerUp k) 2 fun t =>
      t.firm.poweredStacks = k + 1) ∧
    (s.inStage 2 = true → s.firm.poweredStacks = 8 → s.bankOrder[s.firm.banks]? = some k →
      moves (.laserBankPowerUp k) (if s.firm.banks + 1 = s.bankOrder.length then 3 else 2) fun t =>
        t.fld (fbPlaser k) 0 18 = 2 ^ portWaves k - 1 ∧ t.fld (fbPlaser k) 18 1 = 1 ∧ t.firm.banks = s.firm.banks + 1) ∧
    (∀ failures, s.inStage 3 = true → moves (.bistDone failures) 4 fun t => t.fuses = s.fuses ∧
      (∀ p ∈ failures, p < 1152 → t.fencedPhys p = true) ∧
      ∃ now twice : List Nat, (∀ p, p ∈ now ↔ p ∈ failures ∧ p < 1152 ∧ s.fuses.marks p = false) ∧
        (∀ p ∈ twice, p ∈ now ∧ p ∈ s.firm.lastFailures) ∧ twice.length + s.fuses.infield.length ≤ max 64 s.fuses.infield.length ∧
        (now.length + s.fuses.infield.length ≤ 64 → ∀ p ∈ now, p ∈ s.firm.lastFailures → p ∈ twice) ∧
        t.firm.writes = s.firm.writes ++ ((twice.flatMap fun p => [.infieldId p, .infieldValid p]) ++ [.historyBody now, .historyCrc])) ∧
    (∀ cold, s.inStage 4 = true → moves (.hbmTrainingDone cold) 5 fun t =>
      t.fld fwStatus 4 1 = if s.fastStart = true ∧ cold ≠ [] then 1 else s.fld fwStatus 4 1) ∧
    (∀ pages pchs uncorr, s.inStage 5 = true → k < 8 → k ∉ s.firm.tested →
      moves (.memoryTestDone k pages pchs uncorr) (if (insertNat s.firm.tested k).length = 8 then 6 else 5) fun t =>
        k ∈ t.firm.tested ∧ t.fld (mcReg k 0) 0 1 = 1) ∧
    (s.inStage 6 = true → (∀ p, p < 9 → s.portEnabled p = true → (s.port p).firstAttemptDone = true) →
      moves .opticalTuningDone 7 fun t => { t with regs := s.regs } = s) ∧
    (s.inStage 7 = true → moves .startupComplete 7 fun t => t.complete? = true ∧ t.width = s.startWidth ∧
      t.fld 0x8100800000 0 1 = 1 ∧ t.fld flStatus 0 1 = 1 ∧ t.fuses = s.fuses ∧
      t.firm.measurements.length = s.firm.measurements.length + 1 ∧
      (s.fuses.rollback < s.fld fwStatus 16 7 → .rollback (s.fld fwStatus 16 7) ∈ t.firm.writes) ∧
      (s.fastStart = false → s.allPortsFull = true → ∃ a, .savedBody a ∈ t.firm.writes ∧ a.serial = s.fuses.serial ∧ a.temp = (s.tmax : Int)) ∧
      (s.fastStart = true ∨ s.allPortsFull = false → ∀ a, .savedBody a ∈ t.firm.writes → .savedBody a ∈ s.firm.writes)) ∧
    (∀ w rest, s.firm.writes = w :: rest → let t := s.keeperStep
      (∀ p, w = .infieldId p → t.fuses.infield = s.fuses.infield ++ [(p, false)] ∧ ∀ q, t.fuses.marks q = s.fuses.marks q) ∧
      (∀ p b, w = .infieldValid p → (p, b) ∈ s.fuses.infield → t.fuses.marks p = true) ∧
      (∀ ids, w = .historyBody ids → t.firm.lastFailures = s.firm.lastFailures) ∧
      (∀ h l, w = .historyCrc → s.firm.history = h :: l → t.firm.lastFailures = h.ids) ∧
      (∀ a, w = .savedBody a → t.savedNow = none ∧ t.fld fwStatus 6 1 = 0) ∧
      (∀ a, w = .savedCrc → s.firm.saved = some a → a.serial = s.fuses.serial → t.savedNow.isSome = true ∧ t.fld fwStatus 6 1 = 1) ∧
      ∀ n, w = .rollback n → s.fuses.rollback < n → t.fuses.rollback = s.fuses.rollback + 1 ∧
        (s.fuses.rollback + 1 < n → t.firm.writes = .rollback n :: rest))
end

