-- ==== Sys2Proof/Laws/State.lean ====
section
/-! SUPPORT. Reading a field or a table of a state after an update of one table: one lemma per field per update, and the
read-after-write laws of the tables. -/

namespace Sys2Proof.Machine

open Sys2Proof

/-! ## Tables -/

@[simp] theorem mget_mput_same {α : Type} (m : Map α) (d v : α) (k : Nat) : mget (mput m k v) d k = v := by
  induction m with
  | nil => simp [mput, mget]
  | cons e m ih =>
    obtain ⟨k', v'⟩ := e
    unfold mput
    split
    · simp [mget]
    · split
      · simp [mget]
      · next h =>
        have hk : (k' == k) = false := by simpa using fun e : k' = k => h e.symm
        simpa [mget, List.find?, hk] using ih

theorem mget_mput_other {α : Type} (m : Map α) (d v : α) {k j : Nat} (h : j ≠ k) :
    mget (mput m k v) d j = mget m d j := by
  have hk : (k == j) = false := by simpa using fun e : k = j => h e.symm
  induction m with
  | nil => simp [mput, mget, hk]
  | cons e m ih =>
    obtain ⟨k', v'⟩ := e
    unfold mput
    split
    · simp [mget, List.find?, hk]
    · split
      · next e => subst e; simp [mget, List.find?, hk]
      · by_cases h' : k' = j
        · simp [mget, List.find?, h']
        · have hj : (k' == j) = false := by simpa using h'
          simpa [mget, List.find?, hj] using ih

/-- A table after a write, at any key. -/
theorem mget_mput {α : Type} (m : Map α) (d v : α) (k j : Nat) :
    mget (mput m k v) d j = if j = k then v else mget m d j := by
  split
  · next h => subst h; exact mget_mput_same m d v j
  · next h => exact mget_mput_other m d v h

theorem find_mdel {α : Type} (m : Map α) (k j : Nat) :
    (mdel m k).find? (fun e => e.1 == j) = if j = k then none else m.find? (fun e => e.1 == j) := by
  unfold mdel
  induction m with
  | nil => simp
  | cons e m ih =>
    by_cases h : e.1 = k
    · rw [List.filter_cons_of_neg (by simpa using h), ih]
      split
      · rfl
      · next hj =>
        have : (e.1 == j) = false := by simpa [h] using fun e : k = j => hj e.symm
        simp [List.find?, this]
    · rw [List.filter_cons_of_pos (by simpa using h), List.find?, ih]
      split
      · next e' => simp at e'; split <;> simp_all
      · next e' => simp [List.find?, e']

/-- A table after a key was taken out, at any key. -/
theorem mget_mdel {α : Type} (m : Map α) (d : α) (k j : Nat) : mget (mdel m k) d j = if j = k then d else mget m d j := by
  unfold mget
  rw [find_mdel]
  by_cases h : j = k <;> simp [h]

theorem find_mput {α : Type} (m : Map α) (k j : Nat) (v : α) :
    (mput m k v).find? (fun e => e.1 == j) = if j = k then some (k, v) else m.find? (fun e => e.1 == j) := by
  induction m with
  | nil =>
    by_cases h : j = k
    · simp [mput, h]
    · have hk : (k == j) = false := by simpa using fun e : k = j => h e.symm
      simp [mput, h, hk]
  | cons e m ih =>
    obtain ⟨k', v'⟩ := e
    unfold mput
    by_cases h : j = k
    · subst h
      rw [if_pos rfl] at ih ⊢
      split
      · simp
      · split
        · simp
        · next h =>
          have hk : (k' == j) = false := by simpa using fun e : k' = j => h e.symm
          simp [List.find?, hk, ih]
    · rw [if_neg h] at ih ⊢
      have hk : (k == j) = false := by simpa using fun e : k = j => h e.symm
      split
      · rw [List.find?]; simp [hk]
      · split
        · next e => subst e; simp [List.find?, hk]
        · simp only [List.find?, ih]

/-! ## Registers -/

/-- A register after a write, at any address. -/
theorem State.reg_setReg (s : State) (a b : Nat) (v : Reg) : (s.setReg a v).reg b = if b = a then v else s.reg b := by
  unfold State.reg State.setReg
  by_cases hv : v = regReset a
  · simp only [if_pos hv, find_mdel]
    by_cases h : b = a
    · simp only [h]; exact hv.symm
    · simp only [if_neg h]
  · simp only [if_neg hv, find_mput]
    by_cases h : b = a
    · simp only [if_pos h]
    · simp only [if_neg h]

@[simp] theorem State.reg_setReg_same (s : State) (a : Nat) (v : Reg) : (s.setReg a v).reg a = v := by
  rw [State.reg_setReg, if_pos rfl]

theorem State.reg_setReg_other (s : State) {a b : Nat} (v : Reg) (h : b ≠ a) : (s.setReg a v).reg b = s.reg b := by
  rw [State.reg_setReg, if_neg h]

@[simp] theorem State.core_setCore_same (s : State) (c : Nat) (k : Core) : (s.setCore c k).core c = k := mget_mput_same _ _ _ _

theorem State.core_setCore (s : State) (c : Nat) (k : Core) (i : Nat) : (s.setCore c k).core i = if i = c then k else s.core i := mget_mput _ _ _ _ _

@[simp] theorem State.job_setJob_same (s : State) (j : Nat) (x : Job) : (s.setJob j x).job j = x := mget_mput_same _ _ _ _

theorem State.job_setJob (s : State) (j : Nat) (x : Job) (i : Nat) : (s.setJob j x).job i = if i = j then x else s.job i := mget_mput _ _ _ _ _

@[simp] theorem State.hq_setHq_same (s : State) (q : Nat) (x : HQ) : (s.setHq q x).hq q = x := mget_mput_same _ _ _ _

theorem State.hq_setHq (s : State) (q : Nat) (x : HQ) (i : Nat) : (s.setHq q x).hq i = if i = q then x else s.hq i := mget_mput _ _ _ _ _

@[simp] theorem State.port_setPort_same (s : State) (p : Nat) (x : Port) : (s.setPort p x).port p = x := mget_mput_same _ _ _ _

theorem State.port_setPort (s : State) (p : Nat) (x : Port) (i : Nat) : (s.setPort p x).port i = if i = p then x else s.port i := mget_mput _ _ _ _ _

@[simp] theorem State.flow_setFlow_same (s : State) (f : Nat) (x : Flow) : (s.setFlow f x).flow f = x := mget_mput_same _ _ _ _

theorem State.flow_setFlow (s : State) (f : Nat) (x : Flow) (i : Nat) : (s.setFlow f x).flow i = if i = f then x else s.flow i := mget_mput _ _ _ _ _

@[simp] theorem State.obj_setObj_same (s : State) (n : Nat) (x : Obj) : (s.setObj n x).obj n = x := mget_mput_same _ _ _ _

theorem State.obj_setObj (s : State) (n : Nat) (x : Obj) (i : Nat) : (s.setObj n x).obj i = if i = n then x else s.obj i := mget_mput _ _ _ _ _

@[simp] theorem State.mc_setMc_same (s : State) (n : Nat) (x : MemCtl) : (s.setMc n x).mc n = x := mget_mput_same _ _ _ _

theorem State.mc_setMc (s : State) (n : Nat) (x : MemCtl) (i : Nat) : (s.setMc n x).mc i = if i = n then x else s.mc i := mget_mput _ _ _ _ _

/-! ## One lemma per field per update -/

@[simp] theorem State.setReg_pending (s : State) (a : Nat) (v : Reg) : (s.setReg a v).pending = s.pending := rfl
@[simp] theorem State.setReg_ticks (s : State) (a : Nat) (v : Reg) : (s.setReg a v).ticks = s.ticks := rfl
@[simp] theorem State.setReg_freeCtr (s : State) (a : Nat) (v : Reg) : (s.setReg a v).freeCtr = s.freeCtr := rfl
@[simp] theorem State.setReg_silicon (s : State) (a : Nat) (v : Reg) : (s.setReg a v).silicon = s.silicon := rfl
@[simp] theorem State.setReg_mem (s : State) (a : Nat) (v : Reg) : (s.setReg a v).mem = s.mem := rfl
@[simp] theorem State.setReg_cores (s : State) (a : Nat) (v : Reg) : (s.setReg a v).cores = s.cores := rfl
@[simp] theorem State.setReg_active (s : State) (a : Nat) (v : Reg) : (s.setReg a v).active = s.active := rfl
@[simp] theorem State.setReg_colls (s : State) (a : Nat) (v : Reg) : (s.setReg a v).colls = s.colls := rfl
@[simp] theorem State.setReg_collSeq (s : State) (a : Nat) (v : Reg) : (s.setReg a v).collSeq = s.collSeq := rfl
@[simp] theorem State.setReg_collCfg (s : State) (a : Nat) (v : Reg) : (s.setReg a v).collCfg = s.collCfg := rfl
@[simp] theorem State.setReg_collDone (s : State) (a : Nat) (v : Reg) : (s.setReg a v).collDone = s.collDone := rfl
@[simp] theorem State.setReg_jobs (s : State) (a : Nat) (v : Reg) : (s.setReg a v).jobs = s.jobs := rfl
@[simp] theorem State.setReg_hqs (s : State) (a : Nat) (v : Reg) : (s.setReg a v).hqs = s.hqs := rfl
@[simp] theorem State.setReg_spanEpoch (s : State) (a : Nat) (v : Reg) : (s.setReg a v).spanEpoch = s.spanEpoch := rfl
@[simp] theorem State.setReg_eventRing (s : State) (a : Nat) (v : Reg) : (s.setReg a v).eventRing = s.eventRing := rfl
@[simp] theorem State.setReg_logRing (s : State) (a : Nat) (v : Reg) : (s.setReg a v).logRing = s.logRing := rfl
@[simp] theorem State.setReg_secureLog (s : State) (a : Nat) (v : Reg) : (s.setReg a v).secureLog = s.secureLog := rfl
@[simp] theorem State.setReg_pendRecs (s : State) (a : Nat) (v : Reg) : (s.setReg a v).pendRecs = s.pendRecs := rfl
@[simp] theorem State.setReg_lease (s : State) (a : Nat) (v : Reg) : (s.setReg a v).lease = s.lease := rfl
@[simp] theorem State.setReg_hostLink (s : State) (a : Nat) (v : Reg) : (s.setReg a v).hostLink = s.hostLink := rfl
@[simp] theorem State.setReg_ports (s : State) (a : Nat) (v : Reg) : (s.setReg a v).ports = s.ports := rfl
@[simp] theorem State.setReg_flows (s : State) (a : Nat) (v : Reg) : (s.setReg a v).flows = s.flows := rfl
@[simp] theorem State.setReg_loopback (s : State) (a : Nat) (v : Reg) : (s.setReg a v).loopback = s.loopback := rfl
@[simp] theorem State.setReg_tokensIn (s : State) (a : Nat) (v : Reg) : (s.setReg a v).tokensIn = s.tokensIn := rfl
@[simp] theorem State.setReg_objs (s : State) (a : Nat) (v : Reg) : (s.setReg a v).objs = s.objs := rfl
@[simp] theorem State.setReg_objCopies (s : State) (a : Nat) (v : Reg) : (s.setReg a v).objCopies = s.objCopies := rfl
@[simp] theorem State.setReg_waiters (s : State) (a : Nat) (v : Reg) : (s.setReg a v).waiters = s.waiters := rfl
@[simp] theorem State.setReg_mcs (s : State) (a : Nat) (v : Reg) : (s.setReg a v).mcs = s.mcs := rfl
@[simp] theorem State.setReg_lake (s : State) (a : Nat) (v : Reg) : (s.setReg a v).lake = s.lake := rfl
@[simp] theorem State.setReg_hidden (s : State) (a : Nat) (v : Reg) : (s.setReg a v).hidden = s.hidden := rfl
@[simp] theorem State.setReg_zeroing (s : State) (a : Nat) (v : Reg) : (s.setReg a v).zeroing = s.zeroing := rfl
@[simp] theorem State.setReg_fuses (s : State) (a : Nat) (v : Reg) : (s.setReg a v).fuses = s.fuses := rfl
@[simp] theorem State.setReg_power (s : State) (a : Nat) (v : Reg) : (s.setReg a v).power = s.power := rfl
@[simp] theorem State.setReg_firm (s : State) (a : Nat) (v : Reg) : (s.setReg a v).firm = s.firm := rfl
@[simp] theorem State.setReg_fences (s : State) (a : Nat) (v : Reg) : (s.setReg a v).fences = s.fences := rfl
@[simp] theorem State.setReg_governor (s : State) (a : Nat) (v : Reg) : (s.setReg a v).governor = s.governor := rfl
@[simp] theorem State.setReg_fencedField (s : State) (a : Nat) (v : Reg) : (s.setReg a v).fencedField = s.fencedField := rfl
@[simp] theorem State.setReg_width (s : State) (a : Nat) (v : Reg) : (s.setReg a v).width = s.width := rfl
@[simp] theorem State.setReg_core_at (s : State) (a : Nat) (v : Reg) (i : Nat) : (s.setReg a v).core i = s.core i := rfl
@[simp] theorem State.setReg_job_at (s : State) (a : Nat) (v : Reg) (i : Nat) : (s.setReg a v).job i = s.job i := rfl
@[simp] theorem State.setReg_hq_at (s : State) (a : Nat) (v : Reg) (i : Nat) : (s.setReg a v).hq i = s.hq i := rfl
@[simp] theorem State.setReg_port_at (s : State) (a : Nat) (v : Reg) (i : Nat) : (s.setReg a v).port i = s.port i := rfl
@[simp] theorem State.setReg_flow_at (s : State) (a : Nat) (v : Reg) (i : Nat) : (s.setReg a v).flow i = s.flow i := rfl
@[simp] theorem State.setReg_obj_at (s : State) (a : Nat) (v : Reg) (i : Nat) : (s.setReg a v).obj i = s.obj i := rfl
@[simp] theorem State.setReg_mc_at (s : State) (a : Nat) (v : Reg) (i : Nat) : (s.setReg a v).mc i = s.mc i := rfl

@[simp] theorem State.setCore_pending (s : State) (c : Nat) (k : Core) : (s.setCore c k).pending = s.pending := rfl
@[simp] theorem State.setCore_ticks (s : State) (c : Nat) (k : Core) : (s.setCore c k).ticks = s.ticks := rfl
@[simp] theorem State.setCore_freeCtr (s : State) (c : Nat) (k : Core) : (s.setCore c k).freeCtr = s.freeCtr := rfl
@[simp] theorem State.setCore_regs (s : State) (c : Nat) (k : Core) : (s.setCore c k).regs = s.regs := rfl
@[simp] theorem State.setCore_silicon (s : State) (c : Nat) (k : Core) : (s.setCore c k).silicon = s.silicon := rfl
@[simp] theorem State.setCore_mem (s : State) (c : Nat) (k : Core) : (s.setCore c k).mem = s.mem := rfl
@[simp] theorem State.setCore_active (s : State) (c : Nat) (k : Core) : (s.setCore c k).active = s.active := rfl
@[simp] theorem State.setCore_colls (s : State) (c : Nat) (k : Core) : (s.setCore c k).colls = s.colls := rfl
@[simp] theorem State.setCore_collSeq (s : State) (c : Nat) (k : Core) : (s.setCore c k).collSeq = s.collSeq := rfl
@[simp] theorem State.setCore_collCfg (s : State) (c : Nat) (k : Core) : (s.setCore c k).collCfg = s.collCfg := rfl
@[simp] theorem State.setCore_collDone (s : State) (c : Nat) (k : Core) : (s.setCore c k).collDone = s.collDone := rfl
@[simp] theorem State.setCore_jobs (s : State) (c : Nat) (k : Core) : (s.setCore c k).jobs = s.jobs := rfl
@[simp] theorem State.setCore_hqs (s : State) (c : Nat) (k : Core) : (s.setCore c k).hqs = s.hqs := rfl
@[simp] theorem State.setCore_spanEpoch (s : State) (c : Nat) (k : Core) : (s.setCore c k).spanEpoch = s.spanEpoch := rfl
@[simp] theorem State.setCore_eventRing (s : State) (c : Nat) (k : Core) : (s.setCore c k).eventRing = s.eventRing := rfl
@[simp] theorem State.setCore_logRing (s : State) (c : Nat) (k : Core) : (s.setCore c k).logRing = s.logRing := rfl
@[simp] theorem State.setCore_secureLog (s : State) (c : Nat) (k : Core) : (s.setCore c k).secureLog = s.secureLog := rfl
@[simp] theorem State.setCore_pendRecs (s : State) (c : Nat) (k : Core) : (s.setCore c k).pendRecs = s.pendRecs := rfl
@[simp] theorem State.setCore_lease (s : State) (c : Nat) (k : Core) : (s.setCore c k).lease = s.lease := rfl
@[simp] theorem State.setCore_hostLink (s : State) (c : Nat) (k : Core) : (s.setCore c k).hostLink = s.hostLink := rfl
@[simp] theorem State.setCore_ports (s : State) (c : Nat) (k : Core) : (s.setCore c k).ports = s.ports := rfl
@[simp] theorem State.setCore_flows (s : State) (c : Nat) (k : Core) : (s.setCore c k).flows = s.flows := rfl
@[simp] theorem State.setCore_loopback (s : State) (c : Nat) (k : Core) : (s.setCore c k).loopback = s.loopback := rfl
@[simp] theorem State.setCore_tokensIn (s : State) (c : Nat) (k : Core) : (s.setCore c k).tokensIn = s.tokensIn := rfl
@[simp] theorem State.setCore_objs (s : State) (c : Nat) (k : Core) : (s.setCore c k).objs = s.objs := rfl
@[simp] theorem State.setCore_objCopies (s : State) (c : Nat) (k : Core) : (s.setCore c k).objCopies = s.objCopies := rfl
@[simp] theorem State.setCore_waiters (s : State) (c : Nat) (k : Core) : (s.setCore c k).waiters = s.waiters := rfl
@[simp] theorem State.setCore_mcs (s : State) (c : Nat) (k : Core) : (s.setCore c k).mcs = s.mcs := rfl
@[simp] theorem State.setCore_lake (s : State) (c : Nat) (k : Core) : (s.setCore c k).lake = s.lake := rfl
@[simp] theorem State.setCore_hidden (s : State) (c : Nat) (k : Core) : (s.setCore c k).hidden = s.hidden := rfl
@[simp] theorem State.setCore_zeroing (s : State) (c : Nat) (k : Core) : (s.setCore c k).zeroing = s.zeroing := rfl
@[simp] theorem State.setCore_fuses (s : State) (c : Nat) (k : Core) : (s.setCore c k).fuses = s.fuses := rfl
@[simp] theorem State.setCore_power (s : State) (c : Nat) (k : Core) : (s.setCore c k).power = s.power := rfl
@[simp] theorem State.setCore_firm (s : State) (c : Nat) (k : Core) : (s.setCore c k).firm = s.firm := rfl
@[simp] theorem State.setCore_fences (s : State) (c : Nat) (k : Core) : (s.setCore c k).fences = s.fences := rfl
@[simp] theorem State.setCore_governor (s : State) (c : Nat) (k : Core) : (s.setCore c k).governor = s.governor := rfl
@[simp] theorem State.setCore_fencedField (s : State) (c : Nat) (k : Core) : (s.setCore c k).fencedField = s.fencedField := rfl
@[simp] theorem State.setCore_width (s : State) (c : Nat) (k : Core) : (s.setCore c k).width = s.width := rfl
@[simp] theorem State.setCore_reg_at (s : State) (c : Nat) (k : Core) (i : Nat) : (s.setCore c k).reg i = s.reg i := rfl
@[simp] theorem State.setCore_job_at (s : State) (c : Nat) (k : Core) (i : Nat) : (s.setCore c k).job i = s.job i := rfl
@[simp] theorem State.setCore_hq_at (s : State) (c : Nat) (k : Core) (i : Nat) : (s.setCore c k).hq i = s.hq i := rfl
@[simp] theorem State.setCore_port_at (s : State) (c : Nat) (k : Core) (i : Nat) : (s.setCore c k).port i = s.port i := rfl
@[simp] theorem State.setCore_flow_at (s : State) (c : Nat) (k : Core) (i : Nat) : (s.setCore c k).flow i = s.flow i := rfl
@[simp] theorem State.setCore_obj_at (s : State) (c : Nat) (k : Core) (i : Nat) : (s.setCore c k).obj i = s.obj i := rfl
@[simp] theorem State.setCore_mc_at (s : State) (c : Nat) (k : Core) (i : Nat) : (s.setCore c k).mc i = s.mc i := rfl

@[simp] theorem State.setJob_pending (s : State) (j : Nat) (x : Job) : (s.setJob j x).pending = s.pending := rfl
@[simp] theorem State.setJob_ticks (s : State) (j : Nat) (x : Job) : (s.setJob j x).ticks = s.ticks := rfl
@[simp] theorem State.setJob_freeCtr (s : State) (j : Nat) (x : Job) : (s.setJob j x).freeCtr = s.freeCtr := rfl
@[simp] theorem State.setJob_regs (s : State) (j : Nat) (x : Job) : (s.setJob j x).regs = s.regs := rfl
@[simp] theorem State.setJob_silicon (s : State) (j : Nat) (x : Job) : (s.setJob j x).silicon = s.silicon := rfl
@[simp] theorem State.setJob_mem (s : State) (j : Nat) (x : Job) : (s.setJob j x).mem = s.mem := rfl
@[simp] theorem State.setJob_cores (s : State) (j : Nat) (x : Job) : (s.setJob j x).cores = s.cores := rfl
@[simp] theorem State.setJob_active (s : State) (j : Nat) (x : Job) : (s.setJob j x).active = s.active := rfl
@[simp] theorem State.setJob_colls (s : State) (j : Nat) (x : Job) : (s.setJob j x).colls = s.colls := rfl
@[simp] theorem State.setJob_collSeq (s : State) (j : Nat) (x : Job) : (s.setJob j x).collSeq = s.collSeq := rfl
@[simp] theorem State.setJob_collCfg (s : State) (j : Nat) (x : Job) : (s.setJob j x).collCfg = s.collCfg := rfl
@[simp] theorem State.setJob_collDone (s : State) (j : Nat) (x : Job) : (s.setJob j x).collDone = s.collDone := rfl
@[simp] theorem State.setJob_hqs (s : State) (j : Nat) (x : Job) : (s.setJob j x).hqs = s.hqs := rfl
@[simp] theorem State.setJob_spanEpoch (s : State) (j : Nat) (x : Job) : (s.setJob j x).spanEpoch = s.spanEpoch := rfl
@[simp] theorem State.setJob_eventRing (s : State) (j : Nat) (x : Job) : (s.setJob j x).eventRing = s.eventRing := rfl
@[simp] theorem State.setJob_logRing (s : State) (j : Nat) (x : Job) : (s.setJob j x).logRing = s.logRing := rfl
@[simp] theorem State.setJob_secureLog (s : State) (j : Nat) (x : Job) : (s.setJob j x).secureLog = s.secureLog := rfl
@[simp] theorem State.setJob_pendRecs (s : State) (j : Nat) (x : Job) : (s.setJob j x).pendRecs = s.pendRecs := rfl
@[simp] theorem State.setJob_lease (s : State) (j : Nat) (x : Job) : (s.setJob j x).lease = s.lease := rfl
@[simp] theorem State.setJob_hostLink (s : State) (j : Nat) (x : Job) : (s.setJob j x).hostLink = s.hostLink := rfl
@[simp] theorem State.setJob_ports (s : State) (j : Nat) (x : Job) : (s.setJob j x).ports = s.ports := rfl
@[simp] theorem State.setJob_flows (s : State) (j : Nat) (x : Job) : (s.setJob j x).flows = s.flows := rfl
@[simp] theorem State.setJob_loopback (s : State) (j : Nat) (x : Job) : (s.setJob j x).loopback = s.loopback := rfl
@[simp] theorem State.setJob_tokensIn (s : State) (j : Nat) (x : Job) : (s.setJob j x).tokensIn = s.tokensIn := rfl
@[simp] theorem State.setJob_objs (s : State) (j : Nat) (x : Job) : (s.setJob j x).objs = s.objs := rfl
@[simp] theorem State.setJob_objCopies (s : State) (j : Nat) (x : Job) : (s.setJob j x).objCopies = s.objCopies := rfl
@[simp] theorem State.setJob_waiters (s : State) (j : Nat) (x : Job) : (s.setJob j x).waiters = s.waiters := rfl
@[simp] theorem State.setJob_mcs (s : State) (j : Nat) (x : Job) : (s.setJob j x).mcs = s.mcs := rfl
@[simp] theorem State.setJob_lake (s : State) (j : Nat) (x : Job) : (s.setJob j x).lake = s.lake := rfl
@[simp] theorem State.setJob_hidden (s : State) (j : Nat) (x : Job) : (s.setJob j x).hidden = s.hidden := rfl
@[simp] theorem State.setJob_zeroing (s : State) (j : Nat) (x : Job) : (s.setJob j x).zeroing = s.zeroing := rfl
@[simp] theorem State.setJob_fuses (s : State) (j : Nat) (x : Job) : (s.setJob j x).fuses = s.fuses := rfl
@[simp] theorem State.setJob_power (s : State) (j : Nat) (x : Job) : (s.setJob j x).power = s.power := rfl
@[simp] theorem State.setJob_firm (s : State) (j : Nat) (x : Job) : (s.setJob j x).firm = s.firm := rfl
@[simp] theorem State.setJob_fences (s : State) (j : Nat) (x : Job) : (s.setJob j x).fences = s.fences := rfl
@[simp] theorem State.setJob_governor (s : State) (j : Nat) (x : Job) : (s.setJob j x).governor = s.governor := rfl
@[simp] theorem State.setJob_fencedField (s : State) (j : Nat) (x : Job) : (s.setJob j x).fencedField = s.fencedField := rfl
@[simp] theorem State.setJob_width (s : State) (j : Nat) (x : Job) : (s.setJob j x).width = s.width := rfl
@[simp] theorem State.setJob_reg_at (s : State) (j : Nat) (x : Job) (i : Nat) : (s.setJob j x).reg i = s.reg i := rfl
@[simp] theorem State.setJob_core_at (s : State) (j : Nat) (x : Job) (i : Nat) : (s.setJob j x).core i = s.core i := rfl
@[simp] theorem State.setJob_hq_at (s : State) (j : Nat) (x : Job) (i : Nat) : (s.setJob j x).hq i = s.hq i := rfl
@[simp] theorem State.setJob_port_at (s : State) (j : Nat) (x : Job) (i : Nat) : (s.setJob j x).port i = s.port i := rfl
@[simp] theorem State.setJob_flow_at (s : State) (j : Nat) (x : Job) (i : Nat) : (s.setJob j x).flow i = s.flow i := rfl
@[simp] theorem State.setJob_obj_at (s : State) (j : Nat) (x : Job) (i : Nat) : (s.setJob j x).obj i = s.obj i := rfl
@[simp] theorem State.setJob_mc_at (s : State) (j : Nat) (x : Job) (i : Nat) : (s.setJob j x).mc i = s.mc i := rfl

@[simp] theorem State.setHq_pending (s : State) (q : Nat) (x : HQ) : (s.setHq q x).pending = s.pending := rfl
@[simp] theorem State.setHq_ticks (s : State) (q : Nat) (x : HQ) : (s.setHq q x).ticks = s.ticks := rfl
@[simp] theorem State.setHq_freeCtr (s : State) (q : Nat) (x : HQ) : (s.setHq q x).freeCtr = s.freeCtr := rfl
@[simp] theorem State.setHq_regs (s : State) (q : Nat) (x : HQ) : (s.setHq q x).regs = s.regs := rfl
@[simp] theorem State.setHq_silicon (s : State) (q : Nat) (x : HQ) : (s.setHq q x).silicon = s.silicon := rfl
@[simp] theorem State.setHq_mem (s : State) (q : Nat) (x : HQ) : (s.setHq q x).mem = s.mem := rfl
@[simp] theorem State.setHq_cores (s : State) (q : Nat) (x : HQ) : (s.setHq q x).cores = s.cores := rfl
@[simp] theorem State.setHq_active (s : State) (q : Nat) (x : HQ) : (s.setHq q x).active = s.active := rfl
@[simp] theorem State.setHq_colls (s : State) (q : Nat) (x : HQ) : (s.setHq q x).colls = s.colls := rfl
@[simp] theorem State.setHq_collSeq (s : State) (q : Nat) (x : HQ) : (s.setHq q x).collSeq = s.collSeq := rfl
@[simp] theorem State.setHq_collCfg (s : State) (q : Nat) (x : HQ) : (s.setHq q x).collCfg = s.collCfg := rfl
@[simp] theorem State.setHq_collDone (s : State) (q : Nat) (x : HQ) : (s.setHq q x).collDone = s.collDone := rfl
@[simp] theorem State.setHq_jobs (s : State) (q : Nat) (x : HQ) : (s.setHq q x).jobs = s.jobs := rfl
@[simp] theorem State.setHq_spanEpoch (s : State) (q : Nat) (x : HQ) : (s.setHq q x).spanEpoch = s.spanEpoch := rfl
@[simp] theorem State.setHq_eventRing (s : State) (q : Nat) (x : HQ) : (s.setHq q x).eventRing = s.eventRing := rfl
@[simp] theorem State.setHq_logRing (s : State) (q : Nat) (x : HQ) : (s.setHq q x).logRing = s.logRing := rfl
@[simp] theorem State.setHq_secureLog (s : State) (q : Nat) (x : HQ) : (s.setHq q x).secureLog = s.secureLog := rfl
@[simp] theorem State.setHq_pendRecs (s : State) (q : Nat) (x : HQ) : (s.setHq q x).pendRecs = s.pendRecs := rfl
@[simp] theorem State.setHq_lease (s : State) (q : Nat) (x : HQ) : (s.setHq q x).lease = s.lease := rfl
@[simp] theorem State.setHq_hostLink (s : State) (q : Nat) (x : HQ) : (s.setHq q x).hostLink = s.hostLink := rfl
@[simp] theorem State.setHq_ports (s : State) (q : Nat) (x : HQ) : (s.setHq q x).ports = s.ports := rfl
@[simp] theorem State.setHq_flows (s : State) (q : Nat) (x : HQ) : (s.setHq q x).flows = s.flows := rfl
@[simp] theorem State.setHq_loopback (s : State) (q : Nat) (x : HQ) : (s.setHq q x).loopback = s.loopback := rfl
@[simp] theorem State.setHq_tokensIn (s : State) (q : Nat) (x : HQ) : (s.setHq q x).tokensIn = s.tokensIn := rfl
@[simp] theorem State.setHq_objs (s : State) (q : Nat) (x : HQ) : (s.setHq q x).objs = s.objs := rfl
@[simp] theorem State.setHq_objCopies (s : State) (q : Nat) (x : HQ) : (s.setHq q x).objCopies = s.objCopies := rfl
@[simp] theorem State.setHq_waiters (s : State) (q : Nat) (x : HQ) : (s.setHq q x).waiters = s.waiters := rfl
@[simp] theorem State.setHq_mcs (s : State) (q : Nat) (x : HQ) : (s.setHq q x).mcs = s.mcs := rfl
@[simp] theorem State.setHq_lake (s : State) (q : Nat) (x : HQ) : (s.setHq q x).lake = s.lake := rfl
@[simp] theorem State.setHq_hidden (s : State) (q : Nat) (x : HQ) : (s.setHq q x).hidden = s.hidden := rfl
@[simp] theorem State.setHq_zeroing (s : State) (q : Nat) (x : HQ) : (s.setHq q x).zeroing = s.zeroing := rfl
@[simp] theorem State.setHq_fuses (s : State) (q : Nat) (x : HQ) : (s.setHq q x).fuses = s.fuses := rfl
@[simp] theorem State.setHq_power (s : State) (q : Nat) (x : HQ) : (s.setHq q x).power = s.power := rfl
@[simp] theorem State.setHq_firm (s : State) (q : Nat) (x : HQ) : (s.setHq q x).firm = s.firm := rfl
@[simp] theorem State.setHq_fences (s : State) (q : Nat) (x : HQ) : (s.setHq q x).fences = s.fences := rfl
@[simp] theorem State.setHq_governor (s : State) (q : Nat) (x : HQ) : (s.setHq q x).governor = s.governor := rfl
@[simp] theorem State.setHq_fencedField (s : State) (q : Nat) (x : HQ) : (s.setHq q x).fencedField = s.fencedField := rfl
@[simp] theorem State.setHq_width (s : State) (q : Nat) (x : HQ) : (s.setHq q x).width = s.width := rfl
@[simp] theorem State.setHq_reg_at (s : State) (q : Nat) (x : HQ) (i : Nat) : (s.setHq q x).reg i = s.reg i := rfl
@[simp] theorem State.setHq_core_at (s : State) (q : Nat) (x : HQ) (i : Nat) : (s.setHq q x).core i = s.core i := rfl
@[simp] theorem State.setHq_job_at (s : State) (q : Nat) (x : HQ) (i : Nat) : (s.setHq q x).job i = s.job i := rfl
@[simp] theorem State.setHq_port_at (s : State) (q : Nat) (x : HQ) (i : Nat) : (s.setHq q x).port i = s.port i := rfl
@[simp] theorem State.setHq_flow_at (s : State) (q : Nat) (x : HQ) (i : Nat) : (s.setHq q x).flow i = s.flow i := rfl
@[simp] theorem State.setHq_obj_at (s : State) (q : Nat) (x : HQ) (i : Nat) : (s.setHq q x).obj i = s.obj i := rfl
@[simp] theorem State.setHq_mc_at (s : State) (q : Nat) (x : HQ) (i : Nat) : (s.setHq q x).mc i = s.mc i := rfl

@[simp] theorem State.setPort_pending (s : State) (p : Nat) (x : Port) : (s.setPort p x).pending = s.pending := rfl
@[simp] theorem State.setPort_ticks (s : State) (p : Nat) (x : Port) : (s.setPort p x).ticks = s.ticks := rfl
@[simp] theorem State.setPort_freeCtr (s : State) (p : Nat) (x : Port) : (s.setPort p x).freeCtr = s.freeCtr := rfl
@[simp] theorem State.setPort_regs (s : State) (p : Nat) (x : Port) : (s.setPort p x).regs = s.regs := rfl
@[simp] theorem State.setPort_silicon (s : State) (p : Nat) (x : Port) : (s.setPort p x).silicon = s.silicon := rfl
@[simp] theorem State.setPort_mem (s : State) (p : Nat) (x : Port) : (s.setPort p x).mem = s.mem := rfl
@[simp] theorem State.setPort_cores (s : State) (p : Nat) (x : Port) : (s.setPort p x).cores = s.cores := rfl
@[simp] theorem State.setPort_active (s : State) (p : Nat) (x : Port) : (s.setPort p x).active = s.active := rfl
@[simp] theorem State.setPort_colls (s : State) (p : Nat) (x : Port) : (s.setPort p x).colls = s.colls := rfl
@[simp] theorem State.setPort_collSeq (s : State) (p : Nat) (x : Port) : (s.setPort p x).collSeq = s.collSeq := rfl
@[simp] theorem State.setPort_collCfg (s : State) (p : Nat) (x : Port) : (s.setPort p x).collCfg = s.collCfg := rfl
@[simp] theorem State.setPort_collDone (s : State) (p : Nat) (x : Port) : (s.setPort p x).collDone = s.collDone := rfl
@[simp] theorem State.setPort_jobs (s : State) (p : Nat) (x : Port) : (s.setPort p x).jobs = s.jobs := rfl
@[simp] theorem State.setPort_hqs (s : State) (p : Nat) (x : Port) : (s.setPort p x).hqs = s.hqs := rfl
@[simp] theorem State.setPort_spanEpoch (s : State) (p : Nat) (x : Port) : (s.setPort p x).spanEpoch = s.spanEpoch := rfl
@[simp] theorem State.setPort_eventRing (s : State) (p : Nat) (x : Port) : (s.setPort p x).eventRing = s.eventRing := rfl
@[simp] theorem State.setPort_logRing (s : State) (p : Nat) (x : Port) : (s.setPort p x).logRing = s.logRing := rfl
@[simp] theorem State.setPort_secureLog (s : State) (p : Nat) (x : Port) : (s.setPort p x).secureLog = s.secureLog := rfl
@[simp] theorem State.setPort_pendRecs (s : State) (p : Nat) (x : Port) : (s.setPort p x).pendRecs = s.pendRecs := rfl
@[simp] theorem State.setPort_lease (s : State) (p : Nat) (x : Port) : (s.setPort p x).lease = s.lease := rfl
@[simp] theorem State.setPort_hostLink (s : State) (p : Nat) (x : Port) : (s.setPort p x).hostLink = s.hostLink := rfl
@[simp] theorem State.setPort_flows (s : State) (p : Nat) (x : Port) : (s.setPort p x).flows = s.flows := rfl
@[simp] theorem State.setPort_loopback (s : State) (p : Nat) (x : Port) : (s.setPort p x).loopback = s.loopback := rfl
@[simp] theorem State.setPort_tokensIn (s : State) (p : Nat) (x : Port) : (s.setPort p x).tokensIn = s.tokensIn := rfl
@[simp] theorem State.setPort_objs (s : State) (p : Nat) (x : Port) : (s.setPort p x).objs = s.objs := rfl
@[simp] theorem State.setPort_objCopies (s : State) (p : Nat) (x : Port) : (s.setPort p x).objCopies = s.objCopies := rfl
@[simp] theorem State.setPort_waiters (s : State) (p : Nat) (x : Port) : (s.setPort p x).waiters = s.waiters := rfl
@[simp] theorem State.setPort_mcs (s : State) (p : Nat) (x : Port) : (s.setPort p x).mcs = s.mcs := rfl
@[simp] theorem State.setPort_lake (s : State) (p : Nat) (x : Port) : (s.setPort p x).lake = s.lake := rfl
@[simp] theorem State.setPort_hidden (s : State) (p : Nat) (x : Port) : (s.setPort p x).hidden = s.hidden := rfl
@[simp] theorem State.setPort_zeroing (s : State) (p : Nat) (x : Port) : (s.setPort p x).zeroing = s.zeroing := rfl
@[simp] theorem State.setPort_fuses (s : State) (p : Nat) (x : Port) : (s.setPort p x).fuses = s.fuses := rfl
@[simp] theorem State.setPort_power (s : State) (p : Nat) (x : Port) : (s.setPort p x).power = s.power := rfl
@[simp] theorem State.setPort_firm (s : State) (p : Nat) (x : Port) : (s.setPort p x).firm = s.firm := rfl
@[simp] theorem State.setPort_fences (s : State) (p : Nat) (x : Port) : (s.setPort p x).fences = s.fences := rfl
@[simp] theorem State.setPort_governor (s : State) (p : Nat) (x : Port) : (s.setPort p x).governor = s.governor := rfl
@[simp] theorem State.setPort_fencedField (s : State) (p : Nat) (x : Port) : (s.setPort p x).fencedField = s.fencedField := rfl
@[simp] theorem State.setPort_width (s : State) (p : Nat) (x : Port) : (s.setPort p x).width = s.width := rfl
@[simp] theorem State.setPort_reg_at (s : State) (p : Nat) (x : Port) (i : Nat) : (s.setPort p x).reg i = s.reg i := rfl
@[simp] theorem State.setPort_core_at (s : State) (p : Nat) (x : Port) (i : Nat) : (s.setPort p x).core i = s.core i := rfl
@[simp] theorem State.setPort_job_at (s : State) (p : Nat) (x : Port) (i : Nat) : (s.setPort p x).job i = s.job i := rfl
@[simp] theorem State.setPort_hq_at (s : State) (p : Nat) (x : Port) (i : Nat) : (s.setPort p x).hq i = s.hq i := rfl
@[simp] theorem State.setPort_flow_at (s : State) (p : Nat) (x : Port) (i : Nat) : (s.setPort p x).flow i = s.flow i := rfl
@[simp] theorem State.setPort_obj_at (s : State) (p : Nat) (x : Port) (i : Nat) : (s.setPort p x).obj i = s.obj i := rfl
@[simp] theorem State.setPort_mc_at (s : State) (p : Nat) (x : Port) (i : Nat) : (s.setPort p x).mc i = s.mc i := rfl

@[simp] theorem State.setFlow_pending (s : State) (f : Nat) (x : Flow) : (s.setFlow f x).pending = s.pending := rfl
@[simp] theorem State.setFlow_ticks (s : State) (f : Nat) (x : Flow) : (s.setFlow f x).ticks = s.ticks := rfl
@[simp] theorem State.setFlow_freeCtr (s : State) (f : Nat) (x : Flow) : (s.setFlow f x).freeCtr = s.freeCtr := rfl
@[simp] theorem State.setFlow_regs (s : State) (f : Nat) (x : Flow) : (s.setFlow f x).regs = s.regs := rfl
@[simp] theorem State.setFlow_silicon (s : State) (f : Nat) (x : Flow) : (s.setFlow f x).silicon = s.silicon := rfl
@[simp] theorem State.setFlow_mem (s : State) (f : Nat) (x : Flow) : (s.setFlow f x).mem = s.mem := rfl
@[simp] theorem State.setFlow_cores (s : State) (f : Nat) (x : Flow) : (s.setFlow f x).cores = s.cores := rfl
@[simp] theorem State.setFlow_active (s : State) (f : Nat) (x : Flow) : (s.setFlow f x).active = s.active := rfl
@[simp] theorem State.setFlow_colls (s : State) (f : Nat) (x : Flow) : (s.setFlow f x).colls = s.colls := rfl
@[simp] theorem State.setFlow_collSeq (s : State) (f : Nat) (x : Flow) : (s.setFlow f x).collSeq = s.collSeq := rfl
@[simp] theorem State.setFlow_collCfg (s : State) (f : Nat) (x : Flow) : (s.setFlow f x).collCfg = s.collCfg := rfl
@[simp] theorem State.setFlow_collDone (s : State) (f : Nat) (x : Flow) : (s.setFlow f x).collDone = s.collDone := rfl
@[simp] theorem State.setFlow_jobs (s : State) (f : Nat) (x : Flow) : (s.setFlow f x).jobs = s.jobs := rfl
@[simp] theorem State.setFlow_hqs (s : State) (f : Nat) (x : Flow) : (s.setFlow f x).hqs = s.hqs := rfl
@[simp] theorem State.setFlow_spanEpoch (s : State) (f : Nat) (x : Flow) : (s.setFlow f x).spanEpoch = s.spanEpoch := rfl
@[simp] theorem State.setFlow_eventRing (s : State) (f : Nat) (x : Flow) : (s.setFlow f x).eventRing = s.eventRing := rfl
@[simp] theorem State.setFlow_logRing (s : State) (f : Nat) (x : Flow) : (s.setFlow f x).logRing = s.logRing := rfl
@[simp] theorem State.setFlow_secureLog (s : State) (f : Nat) (x : Flow) : (s.setFlow f x).secureLog = s.secureLog := rfl
@[simp] theorem State.setFlow_pendRecs (s : State) (f : Nat) (x : Flow) : (s.setFlow f x).pendRecs = s.pendRecs := rfl
@[simp] theorem State.setFlow_lease (s : State) (f : Nat) (x : Flow) : (s.setFlow f x).lease = s.lease := rfl
@[simp] theorem State.setFlow_hostLink (s : State) (f : Nat) (x : Flow) : (s.setFlow f x).hostLink = s.hostLink := rfl
@[simp] theorem State.setFlow_ports (s : State) (f : Nat) (x : Flow) : (s.setFlow f x).ports = s.ports := rfl
@[simp] theorem State.setFlow_loopback (s : State) (f : Nat) (x : Flow) : (s.setFlow f x).loopback = s.loopback := rfl
@[simp] theorem State.setFlow_tokensIn (s : State) (f : Nat) (x : Flow) : (s.setFlow f x).tokensIn = s.tokensIn := rfl
@[simp] theorem State.setFlow_objs (s : State) (f : Nat) (x : Flow) : (s.setFlow f x).objs = s.objs := rfl
@[simp] theorem State.setFlow_objCopies (s : State) (f : Nat) (x : Flow) : (s.setFlow f x).objCopies = s.objCopies := rfl
@[simp] theorem State.setFlow_waiters (s : State) (f : Nat) (x : Flow) : (s.setFlow f x).waiters = s.waiters := rfl
@[simp] theorem State.setFlow_mcs (s : State) (f : Nat) (x : Flow) : (s.setFlow f x).mcs = s.mcs := rfl
@[simp] theorem State.setFlow_lake (s : State) (f : Nat) (x : Flow) : (s.setFlow f x).lake = s.lake := rfl
@[simp] theorem State.setFlow_hidden (s : State) (f : Nat) (x : Flow) : (s.setFlow f x).hidden = s.hidden := rfl
@[simp] theorem State.setFlow_zeroing (s : State) (f : Nat) (x : Flow) : (s.setFlow f x).zeroing = s.zeroing := rfl
@[simp] theorem State.setFlow_fuses (s : State) (f : Nat) (x : Flow) : (s.setFlow f x).fuses = s.fuses := rfl
@[simp] theorem State.setFlow_power (s : State) (f : Nat) (x : Flow) : (s.setFlow f x).power = s.power := rfl
@[simp] theorem State.setFlow_firm (s : State) (f : Nat) (x : Flow) : (s.setFlow f x).firm = s.firm := rfl
@[simp] theorem State.setFlow_fences (s : State) (f : Nat) (x : Flow) : (s.setFlow f x).fences = s.fences := rfl
@[simp] theorem State.setFlow_governor (s : State) (f : Nat) (x : Flow) : (s.setFlow f x).governor = s.governor := rfl
@[simp] theorem State.setFlow_fencedField (s : State) (f : Nat) (x : Flow) : (s.setFlow f x).fencedField = s.fencedField := rfl
@[simp] theorem State.setFlow_width (s : State) (f : Nat) (x : Flow) : (s.setFlow f x).width = s.width := rfl
@[simp] theorem State.setFlow_reg_at (s : State) (f : Nat) (x : Flow) (i : Nat) : (s.setFlow f x).reg i = s.reg i := rfl
@[simp] theorem State.setFlow_core_at (s : State) (f : Nat) (x : Flow) (i : Nat) : (s.setFlow f x).core i = s.core i := rfl
@[simp] theorem State.setFlow_job_at (s : State) (f : Nat) (x : Flow) (i : Nat) : (s.setFlow f x).job i = s.job i := rfl
@[simp] theorem State.setFlow_hq_at (s : State) (f : Nat) (x : Flow) (i : Nat) : (s.setFlow f x).hq i = s.hq i := rfl
@[simp] theorem State.setFlow_port_at (s : State) (f : Nat) (x : Flow) (i : Nat) : (s.setFlow f x).port i = s.port i := rfl
@[simp] theorem State.setFlow_obj_at (s : State) (f : Nat) (x : Flow) (i : Nat) : (s.setFlow f x).obj i = s.obj i := rfl
@[simp] theorem State.setFlow_mc_at (s : State) (f : Nat) (x : Flow) (i : Nat) : (s.setFlow f x).mc i = s.mc i := rfl

@[simp] theorem State.setObj_pending (s : State) (n : Nat) (x : Obj) : (s.setObj n x).pending = s.pending := rfl
@[simp] theorem State.setObj_ticks (s : State) (n : Nat) (x : Obj) : (s.setObj n x).ticks = s.ticks := rfl
@[simp] theorem State.setObj_freeCtr (s : State) (n : Nat) (x : Obj) : (s.setObj n x).freeCtr = s.freeCtr := rfl
@[simp] theorem State.setObj_regs (s : State) (n : Nat) (x : Obj) : (s.setObj n x).regs = s.regs := rfl
@[simp] theorem State.setObj_silicon (s : State) (n : Nat) (x : Obj) : (s.setObj n x).silicon = s.silicon := rfl
@[simp] theorem State.setObj_mem (s : State) (n : Nat) (x : Obj) : (s.setObj n x).mem = s.mem := rfl
@[simp] theorem State.setObj_cores (s : State) (n : Nat) (x : Obj) : (s.setObj n x).cores = s.cores := rfl
@[simp] theorem State.setObj_active (s : State) (n : Nat) (x : Obj) : (s.setObj n x).active = s.active := rfl
@[simp] theorem State.setObj_colls (s : State) (n : Nat) (x : Obj) : (s.setObj n x).colls = s.colls := rfl
@[simp] theorem State.setObj_collSeq (s : State) (n : Nat) (x : Obj) : (s.setObj n x).collSeq = s.collSeq := rfl
@[simp] theorem State.setObj_collCfg (s : State) (n : Nat) (x : Obj) : (s.setObj n x).collCfg = s.collCfg := rfl
@[simp] theorem State.setObj_collDone (s : State) (n : Nat) (x : Obj) : (s.setObj n x).collDone = s.collDone := rfl
@[simp] theorem State.setObj_jobs (s : State) (n : Nat) (x : Obj) : (s.setObj n x).jobs = s.jobs := rfl
@[simp] theorem State.setObj_hqs (s : State) (n : Nat) (x : Obj) : (s.setObj n x).hqs = s.hqs := rfl
@[simp] theorem State.setObj_spanEpoch (s : State) (n : Nat) (x : Obj) : (s.setObj n x).spanEpoch = s.spanEpoch := rfl
@[simp] theorem State.setObj_eventRing (s : State) (n : Nat) (x : Obj) : (s.setObj n x).eventRing = s.eventRing := rfl
@[simp] theorem State.setObj_logRing (s : State) (n : Nat) (x : Obj) : (s.setObj n x).logRing = s.logRing := rfl
@[simp] theorem State.setObj_secureLog (s : State) (n : Nat) (x : Obj) : (s.setObj n x).secureLog = s.secureLog := rfl
@[simp] theorem State.setObj_pendRecs (s : State) (n : Nat) (x : Obj) : (s.setObj n x).pendRecs = s.pendRecs := rfl
@[simp] theorem State.setObj_lease (s : State) (n : Nat) (x : Obj) : (s.setObj n x).lease = s.lease := rfl
@[simp] theorem State.setObj_hostLink (s : State) (n : Nat) (x : Obj) : (s.setObj n x).hostLink = s.hostLink := rfl
@[simp] theorem State.setObj_ports (s : State) (n : Nat) (x : Obj) : (s.setObj n x).ports = s.ports := rfl
@[simp] theorem State.setObj_flows (s : State) (n : Nat) (x : Obj) : (s.setObj n x).flows = s.flows := rfl
@[simp] theorem State.setObj_loopback (s : State) (n : Nat) (x : Obj) : (s.setObj n x).loopback = s.loopback := rfl
@[simp] theorem State.setObj_tokensIn (s : State) (n : Nat) (x : Obj) : (s.setObj n x).tokensIn = s.tokensIn := rfl
@[simp] theorem State.setObj_objCopies (s : State) (n : Nat) (x : Obj) : (s.setObj n x).objCopies = s.objCopies := rfl
@[simp] theorem State.setObj_waiters (s : State) (n : Nat) (x : Obj) : (s.setObj n x).waiters = s.waiters := rfl
@[simp] theorem State.setObj_mcs (s : State) (n : Nat) (x : Obj) : (s.setObj n x).mcs = s.mcs := rfl
@[simp] theorem State.setObj_lake (s : State) (n : Nat) (x : Obj) : (s.setObj n x).lake = s.lake := rfl
@[simp] theorem State.setObj_hidden (s : State) (n : Nat) (x : Obj) : (s.setObj n x).hidden = s.hidden := rfl
@[simp] theorem State.setObj_zeroing (s : State) (n : Nat) (x : Obj) : (s.setObj n x).zeroing = s.zeroing := rfl
@[simp] theorem State.setObj_fuses (s : State) (n : Nat) (x : Obj) : (s.setObj n x).fuses = s.fuses := rfl
@[simp] theorem State.setObj_power (s : State) (n : Nat) (x : Obj) : (s.setObj n x).power = s.power := rfl
@[simp] theorem State.setObj_firm (s : State) (n : Nat) (x : Obj) : (s.setObj n x).firm = s.firm := rfl
@[simp] theorem State.setObj_fences (s : State) (n : Nat) (x : Obj) : (s.setObj n x).fences = s.fences := rfl
@[simp] theorem State.setObj_governor (s : State) (n : Nat) (x : Obj) : (s.setObj n x).governor = s.governor := rfl
@[simp] theorem State.setObj_fencedField (s : State) (n : Nat) (x : Obj) : (s.setObj n x).fencedField = s.fencedField := rfl
@[simp] theorem State.setObj_width (s : State) (n : Nat) (x : Obj) : (s.setObj n x).width = s.width := rfl
@[simp] theorem State.setObj_reg_at (s : State) (n : Nat) (x : Obj) (i : Nat) : (s.setObj n x).reg i = s.reg i := rfl
@[simp] theorem State.setObj_core_at (s : State) (n : Nat) (x : Obj) (i : Nat) : (s.setObj n x).core i = s.core i := rfl
@[simp] theorem State.setObj_job_at (s : State) (n : Nat) (x : Obj) (i : Nat) : (s.setObj n x).job i = s.job i := rfl
@[simp] theorem State.setObj_hq_at (s : State) (n : Nat) (x : Obj) (i : Nat) : (s.setObj n x).hq i = s.hq i := rfl
@[simp] theorem State.setObj_port_at (s : State) (n : Nat) (x : Obj) (i : Nat) : (s.setObj n x).port i = s.port i := rfl
@[simp] theorem State.setObj_flow_at (s : State) (n : Nat) (x : Obj) (i : Nat) : (s.setObj n x).flow i = s.flow i := rfl
@[simp] theorem State.setObj_mc_at (s : State) (n : Nat) (x : Obj) (i : Nat) : (s.setObj n x).mc i = s.mc i := rfl

@[simp] theorem State.setMc_pending (s : State) (n : Nat) (x : MemCtl) : (s.setMc n x).pending = s.pending := rfl
@[simp] theorem State.setMc_ticks (s : State) (n : Nat) (x : MemCtl) : (s.setMc n x).ticks = s.ticks := rfl
@[simp] theorem State.setMc_freeCtr (s : State) (n : Nat) (x : MemCtl) : (s.setMc n x).freeCtr = s.freeCtr := rfl
@[simp] theorem State.setMc_regs (s : State) (n : Nat) (x : MemCtl) : (s.setMc n x).regs = s.regs := rfl
@[simp] theorem State.setMc_silicon (s : State) (n : Nat) (x : MemCtl) : (s.setMc n x).silicon = s.silicon := rfl
@[simp] theorem State.setMc_mem (s : State) (n : Nat) (x : MemCtl) : (s.setMc n x).mem = s.mem := rfl
@[simp] theorem State.setMc_cores (s : State) (n : Nat) (x : MemCtl) : (s.setMc n x).cores = s.cores := rfl
@[simp] theorem State.setMc_active (s : State) (n : Nat) (x : MemCtl) : (s.setMc n x).active = s.active := rfl
@[simp] theorem State.setMc_colls (s : State) (n : Nat) (x : MemCtl) : (s.setMc n x).colls = s.colls := rfl
@[simp] theorem State.setMc_collSeq (s : State) (n : Nat) (x : MemCtl) : (s.setMc n x).collSeq = s.collSeq := rfl
@[simp] theorem State.setMc_collCfg (s : State) (n : Nat) (x : MemCtl) : (s.setMc n x).collCfg = s.collCfg := rfl
@[simp] theorem State.setMc_collDone (s : State) (n : Nat) (x : MemCtl) : (s.setMc n x).collDone = s.collDone := rfl
@[simp] theorem State.setMc_jobs (s : State) (n : Nat) (x : MemCtl) : (s.setMc n x).jobs = s.jobs := rfl
@[simp] theorem State.setMc_hqs (s : State) (n : Nat) (x : MemCtl) : (s.setMc n x).hqs = s.hqs := rfl
@[simp] theorem State.setMc_spanEpoch (s : State) (n : Nat) (x : MemCtl) : (s.setMc n x).spanEpoch = s.spanEpoch := rfl
@[simp] theorem State.setMc_eventRing (s : State) (n : Nat) (x : MemCtl) : (s.setMc n x).eventRing = s.eventRing := rfl
@[simp] theorem State.setMc_logRing (s : State) (n : Nat) (x : MemCtl) : (s.setMc n x).logRing = s.logRing := rfl
@[simp] theorem State.setMc_secureLog (s : State) (n : Nat) (x : MemCtl) : (s.setMc n x).secureLog = s.secureLog := rfl
@[simp] theorem State.setMc_pendRecs (s : State) (n : Nat) (x : MemCtl) : (s.setMc n x).pendRecs = s.pendRecs := rfl
@[simp] theorem State.setMc_lease (s : State) (n : Nat) (x : MemCtl) : (s.setMc n x).lease = s.lease := rfl
@[simp] theorem State.setMc_hostLink (s : State) (n : Nat) (x : MemCtl) : (s.setMc n x).hostLink = s.hostLink := rfl
@[simp] theorem State.setMc_ports (s : State) (n : Nat) (x : MemCtl) : (s.setMc n x).ports = s.ports := rfl
@[simp] theorem State.setMc_flows (s : State) (n : Nat) (x : MemCtl) : (s.setMc n x).flows = s.flows := rfl
@[simp] theorem State.setMc_loopback (s : State) (n : Nat) (x : MemCtl) : (s.setMc n x).loopback = s.loopback := rfl
@[simp] theorem State.setMc_tokensIn (s : State) (n : Nat) (x : MemCtl) : (s.setMc n x).tokensIn = s.tokensIn := rfl
@[simp] theorem State.setMc_objs (s : State) (n : Nat) (x : MemCtl) : (s.setMc n x).objs = s.objs := rfl
@[simp] theorem State.setMc_objCopies (s : State) (n : Nat) (x : MemCtl) : (s.setMc n x).objCopies = s.objCopies := rfl
@[simp] theorem State.setMc_waiters (s : State) (n : Nat) (x : MemCtl) : (s.setMc n x).waiters = s.waiters := rfl
@[simp] theorem State.setMc_lake (s : State) (n : Nat) (x : MemCtl) : (s.setMc n x).lake = s.lake := rfl
@[simp] theorem State.setMc_hidden (s : State) (n : Nat) (x : MemCtl) : (s.setMc n x).hidden = s.hidden := rfl
@[simp] theorem State.setMc_zeroing (s : State) (n : Nat) (x : MemCtl) : (s.setMc n x).zeroing = s.zeroing := rfl
@[simp] theorem State.setMc_fuses (s : State) (n : Nat) (x : MemCtl) : (s.setMc n x).fuses = s.fuses := rfl
@[simp] theorem State.setMc_power (s : State) (n : Nat) (x : MemCtl) : (s.setMc n x).power = s.power := rfl
@[simp] theorem State.setMc_firm (s : State) (n : Nat) (x : MemCtl) : (s.setMc n x).firm = s.firm := rfl
@[simp] theorem State.setMc_fences (s : State) (n : Nat) (x : MemCtl) : (s.setMc n x).fences = s.fences := rfl
@[simp] theorem State.setMc_governor (s : State) (n : Nat) (x : MemCtl) : (s.setMc n x).governor = s.governor := rfl
@[simp] theorem State.setMc_fencedField (s : State) (n : Nat) (x : MemCtl) : (s.setMc n x).fencedField = s.fencedField := rfl
@[simp] theorem State.setMc_width (s : State) (n : Nat) (x : MemCtl) : (s.setMc n x).width = s.width := rfl
@[simp] theorem State.setMc_reg_at (s : State) (n : Nat) (x : MemCtl) (i : Nat) : (s.setMc n x).reg i = s.reg i := rfl
@[simp] theorem State.setMc_core_at (s : State) (n : Nat) (x : MemCtl) (i : Nat) : (s.setMc n x).core i = s.core i := rfl
@[simp] theorem State.setMc_job_at (s : State) (n : Nat) (x : MemCtl) (i : Nat) : (s.setMc n x).job i = s.job i := rfl
@[simp] theorem State.setMc_hq_at (s : State) (n : Nat) (x : MemCtl) (i : Nat) : (s.setMc n x).hq i = s.hq i := rfl
@[simp] theorem State.setMc_port_at (s : State) (n : Nat) (x : MemCtl) (i : Nat) : (s.setMc n x).port i = s.port i := rfl
@[simp] theorem State.setMc_flow_at (s : State) (n : Nat) (x : MemCtl) (i : Nat) : (s.setMc n x).flow i = s.flow i := rfl
@[simp] theorem State.setMc_obj_at (s : State) (n : Nat) (x : MemCtl) (i : Nat) : (s.setMc n x).obj i = s.obj i := rfl

@[simp] theorem State.freeVal_pending (s : State) (w : Nat) : (s.freeVal w).2.pending = s.pending := rfl
@[simp] theorem State.freeVal_ticks (s : State) (w : Nat) : (s.freeVal w).2.ticks = s.ticks := rfl
@[simp] theorem State.freeVal_regs (s : State) (w : Nat) : (s.freeVal w).2.regs = s.regs := rfl
@[simp] theorem State.freeVal_silicon (s : State) (w : Nat) : (s.freeVal w).2.silicon = s.silicon := rfl
@[simp] theorem State.freeVal_mem (s : State) (w : Nat) : (s.freeVal w).2.mem = s.mem := rfl
@[simp] theorem State.freeVal_cores (s : State) (w : Nat) : (s.freeVal w).2.cores = s.cores := rfl
@[simp] theorem State.freeVal_active (s : State) (w : Nat) : (s.freeVal w).2.active = s.active := rfl
@[simp] theorem State.freeVal_colls (s : State) (w : Nat) : (s.freeVal w).2.colls = s.colls := rfl
@[simp] theorem State.freeVal_collSeq (s : State) (w : Nat) : (s.freeVal w).2.collSeq = s.collSeq := rfl
@[simp] theorem State.freeVal_collCfg (s : State) (w : Nat) : (s.freeVal w).2.collCfg = s.collCfg := rfl
@[simp] theorem State.freeVal_collDone (s : State) (w : Nat) : (s.freeVal w).2.collDone = s.collDone := rfl
@[simp] theorem State.freeVal_jobs (s : State) (w : Nat) : (s.freeVal w).2.jobs = s.jobs := rfl
@[simp] theorem State.freeVal_hqs (s : State) (w : Nat) : (s.freeVal w).2.hqs = s.hqs := rfl
@[simp] theorem State.freeVal_spanEpoch (s : State) (w : Nat) : (s.freeVal w).2.spanEpoch = s.spanEpoch := rfl
@[simp] theorem State.freeVal_eventRing (s : State) (w : Nat) : (s.freeVal w).2.eventRing = s.eventRing := rfl
@[simp] theorem State.freeVal_logRing (s : State) (w : Nat) : (s.freeVal w).2.logRing = s.logRing := rfl
@[simp] theorem State.freeVal_secureLog (s : State) (w : Nat) : (s.freeVal w).2.secureLog = s.secureLog := rfl
@[simp] theorem State.freeVal_pendRecs (s : State) (w : Nat) : (s.freeVal w).2.pendRecs = s.pendRecs := rfl
@[simp] theorem State.freeVal_lease (s : State) (w : Nat) : (s.freeVal w).2.lease = s.lease := rfl
@[simp] theorem State.freeVal_hostLink (s : State) (w : Nat) : (s.freeVal w).2.hostLink = s.hostLink := rfl
@[simp] theorem State.freeVal_ports (s : State) (w : Nat) : (s.freeVal w).2.ports = s.ports := rfl
@[simp] theorem State.freeVal_flows (s : State) (w : Nat) : (s.freeVal w).2.flows = s.flows := rfl
@[simp] theorem State.freeVal_loopback (s : State) (w : Nat) : (s.freeVal w).2.loopback = s.loopback := rfl
@[simp] theorem State.freeVal_tokensIn (s : State) (w : Nat) : (s.freeVal w).2.tokensIn = s.tokensIn := rfl
@[simp] theorem State.freeVal_objs (s : State) (w : Nat) : (s.freeVal w).2.objs = s.objs := rfl
@[simp] theorem State.freeVal_objCopies (s : State) (w : Nat) : (s.freeVal w).2.objCopies = s.objCopies := rfl
@[simp] theorem State.freeVal_waiters (s : State) (w : Nat) : (s.freeVal w).2.waiters = s.waiters := rfl
@[simp] theorem State.freeVal_mcs (s : State) (w : Nat) : (s.freeVal w).2.mcs = s.mcs := rfl
@[simp] theorem State.freeVal_lake (s : State) (w : Nat) : (s.freeVal w).2.lake = s.lake := rfl
@[simp] theorem State.freeVal_hidden (s : State) (w : Nat) : (s.freeVal w).2.hidden = s.hidden := rfl
@[simp] theorem State.freeVal_zeroing (s : State) (w : Nat) : (s.freeVal w).2.zeroing = s.zeroing := rfl
@[simp] theorem State.freeVal_fuses (s : State) (w : Nat) : (s.freeVal w).2.fuses = s.fuses := rfl
@[simp] theorem State.freeVal_power (s : State) (w : Nat) : (s.freeVal w).2.power = s.power := rfl
@[simp] theorem State.freeVal_firm (s : State) (w : Nat) : (s.freeVal w).2.firm = s.firm := rfl
@[simp] theorem State.freeVal_fences (s : State) (w : Nat) : (s.freeVal w).2.fences = s.fences := rfl
@[simp] theorem State.freeVal_governor (s : State) (w : Nat) : (s.freeVal w).2.governor = s.governor := rfl
@[simp] theorem State.freeVal_fencedField (s : State) (w : Nat) : (s.freeVal w).2.fencedField = s.fencedField := rfl
@[simp] theorem State.freeVal_width (s : State) (w : Nat) : (s.freeVal w).2.width = s.width := rfl
@[simp] theorem State.freeVal_freeCtr (s : State) (w : Nat) : (s.freeVal w).2.freeCtr = s.freeCtr + 1 := rfl

end Sys2Proof.Machine
end

