-- ==== Sys2Proof/Laws/Words.lean ====
section
/-! SUPPORT. Fields of an instruction word that is written out from its fields (07 R205). -/

namespace Sys2Proof.Machine

open Sys2Proof

/-- A field that lies in the upper part of a concatenation. -/
theorem bitsOf_append_high {m n : Nat} (x : BitVec m) (y : BitVec n) (lo w : Nat) (h : n ≤ lo) :
    bitsOf (x ++ y).toNat lo w = bitsOf x.toNat (lo - n) w := by
  obtain ⟨k, rfl⟩ := Nat.exists_eq_add_of_le h
  unfold bitsOf
  rw [BitVec.toNat_append, ← Nat.shiftLeft_add_eq_or_of_lt y.isLt, Nat.shiftLeft_eq, Nat.add_sub_cancel_left, Nat.pow_add,
    ← Nat.div_div_eq_div_mul]
  congr 2
  rw [Nat.add_comm, Nat.mul_comm, Nat.add_mul_div_left _ _ (Nat.two_pow_pos n), Nat.div_eq_of_lt y.isLt, Nat.zero_add]

/-- A field that lies in the lower part of a concatenation. -/
theorem bitsOf_append_low {m n : Nat} (x : BitVec m) (y : BitVec n) (lo w : Nat) (h : lo + w ≤ n) :
    bitsOf (x ++ y).toNat lo w = bitsOf y.toNat lo w := by
  obtain ⟨k, rfl⟩ := Nat.exists_eq_add_of_le h
  unfold bitsOf
  rw [BitVec.toNat_append, ← Nat.shiftLeft_add_eq_or_of_lt y.isLt, Nat.shiftLeft_eq, Nat.pow_add, Nat.pow_add]
  have e : x.toNat * (2 ^ lo * 2 ^ w * 2 ^ k) = 2 ^ lo * (2 ^ w * (x.toNat * 2 ^ k)) := by
    rw [Nat.mul_assoc, Nat.mul_left_comm, Nat.mul_left_comm x.toNat]
  rw [e, Nat.add_comm, Nat.add_mul_div_left _ _ (Nat.two_pow_pos lo), Nat.add_mul_mod_self_left]

/-- The whole of a field. -/
theorem bitsOf_whole {n : Nat} (x : BitVec n) : bitsOf x.toNat 0 n = x.toNat := by
  unfold bitsOf
  rw [Nat.pow_zero, Nat.div_one, Nat.mod_eq_of_lt x.isLt]

/-- The bit of a one-bit field. -/
theorem bitOf_eq_bitsOf (v i : Nat) : bitOf v i = (bitsOf v i 1 == 1) := by
  unfold bitOf bitsOf
  rw [Nat.pow_one]
  cases h : v / 2 ^ i % 2 == 1 <;> simp_all

@[simp] theorem iwOp_A (o : BitVec 6) (rd : BitVec 5) (ra : BitVec 5) (rb : BitVec 5) (f : BitVec 11) :
    iwOp (o ++ rd ++ ra ++ rb ++ f) = o.toNat :=
  (bitsOf_append_high _ f 26 6 (by decide)).trans ((bitsOf_append_high _ rb 15 6 (by decide)).trans ((bitsOf_append_high _ ra 10 6 (by decide)).trans ((bitsOf_append_high _ rd 5 6 (by decide)).trans (bitsOf_whole o))))

@[simp] theorem iwRd_A (o : BitVec 6) (rd : BitVec 5) (ra : BitVec 5) (rb : BitVec 5) (f : BitVec 11) :
    iwRd (o ++ rd ++ ra ++ rb ++ f) = rd.toNat :=
  (bitsOf_append_high _ f 21 5 (by decide)).trans ((bitsOf_append_high _ rb 10 5 (by decide)).trans ((bitsOf_append_high _ ra 5 5 (by decide)).trans ((bitsOf_append_low _ rd 0 5 (by decide)).trans (bitsOf_whole rd))))

@[simp] theorem iwRa_A (o : BitVec 6) (rd : BitVec 5) (ra : BitVec 5) (rb : BitVec 5) (f : BitVec 11) :
    iwRa (o ++ rd ++ ra ++ rb ++ f) = ra.toNat :=
  (bitsOf_append_high _ f 16 5 (by decide)).trans ((bitsOf_append_high _ rb 5 5 (by decide)).trans ((bitsOf_append_low _ ra 0 5 (by decide)).trans (bitsOf_whole ra)))

@[simp] theorem iwRb_A (o : BitVec 6) (rd : BitVec 5) (ra : BitVec 5) (rb : BitVec 5) (f : BitVec 11) :
    iwRb (o ++ rd ++ ra ++ rb ++ f) = rb.toNat :=
  (bitsOf_append_high _ f 11 5 (by decide)).trans ((bitsOf_append_low _ rb 0 5 (by decide)).trans (bitsOf_whole rb))

@[simp] theorem iwFunc_A (o : BitVec 6) (rd : BitVec 5) (ra : BitVec 5) (rb : BitVec 5) (f : BitVec 11) :
    iwFunc (o ++ rd ++ ra ++ rb ++ f) = f.toNat :=
  (bitsOf_append_low _ f 0 11 (by decide)).trans (bitsOf_whole f)

@[simp] theorem iwOp_I (o : BitVec 6) (rd : BitVec 5) (ra : BitVec 5) (i : BitVec 16) :
    iwOp (o ++ rd ++ ra ++ i) = o.toNat :=
  (bitsOf_append_high _ i 26 6 (by decide)).trans ((bitsOf_append_high _ ra 10 6 (by decide)).trans ((bitsOf_append_high _ rd 5 6 (by decide)).trans (bitsOf_whole o)))

@[simp] theorem iwRd_I (o : BitVec 6) (rd : BitVec 5) (ra : BitVec 5) (i : BitVec 16) :
    iwRd (o ++ rd ++ ra ++ i) = rd.toNat :=
  (bitsOf_append_high _ i 21 5 (by decide)).trans ((bitsOf_append_high _ ra 5 5 (by decide)).trans ((bitsOf_append_low _ rd 0 5 (by decide)).trans (bitsOf_whole rd)))

@[simp] theorem iwRa_I (o : BitVec 6) (rd : BitVec 5) (ra : BitVec 5) (i : BitVec 16) :
    iwRa (o ++ rd ++ ra ++ i) = ra.toNat :=
  (bitsOf_append_high _ i 16 5 (by decide)).trans ((bitsOf_append_low _ ra 0 5 (by decide)).trans (bitsOf_whole ra))

@[simp] theorem iwImm_I (o : BitVec 6) (rd : BitVec 5) (ra : BitVec 5) (i : BitVec 16) :
    iwImm (o ++ rd ++ ra ++ i) = i.toNat :=
  (bitsOf_append_low _ i 0 16 (by decide)).trans (bitsOf_whole i)

@[simp] theorem iwOp_Q (o : BitVec 6) (rd : BitVec 5) (ra : BitVec 5) (e : BitVec 2) (i : BitVec 14) :
    iwOp (o ++ rd ++ ra ++ e ++ i) = o.toNat :=
  (bitsOf_append_high _ i 26 6 (by decide)).trans ((bitsOf_append_high _ e 12 6 (by decide)).trans ((bitsOf_append_high _ ra 10 6 (by decide)).trans ((bitsOf_append_high _ rd 5 6 (by decide)).trans (bitsOf_whole o))))

@[simp] theorem iwRd_Q (o : BitVec 6) (rd : BitVec 5) (ra : BitVec 5) (e : BitVec 2) (i : BitVec 14) :
    iwRd (o ++ rd ++ ra ++ e ++ i) = rd.toNat :=
  (bitsOf_append_high _ i 21 5 (by decide)).trans ((bitsOf_append_high _ e 7 5 (by decide)).trans ((bitsOf_append_high _ ra 5 5 (by decide)).trans ((bitsOf_append_low _ rd 0 5 (by decide)).trans (bitsOf_whole rd))))

@[simp] theorem iwRa_Q (o : BitVec 6) (rd : BitVec 5) (ra : BitVec 5) (e : BitVec 2) (i : BitVec 14) :
    iwRa (o ++ rd ++ ra ++ e ++ i) = ra.toNat :=
  (bitsOf_append_high _ i 16 5 (by decide)).trans ((bitsOf_append_high _ e 2 5 (by decide)).trans ((bitsOf_append_low _ ra 0 5 (by decide)).trans (bitsOf_whole ra)))

@[simp] theorem iwQe_Q (o : BitVec 6) (rd : BitVec 5) (ra : BitVec 5) (e : BitVec 2) (i : BitVec 14) :
    iwQe (o ++ rd ++ ra ++ e ++ i) = e.toNat :=
  (bitsOf_append_high _ i 14 2 (by decide)).trans ((bitsOf_append_low _ e 0 2 (by decide)).trans (bitsOf_whole e))

@[simp] theorem iwQimm_Q (o : BitVec 6) (rd : BitVec 5) (ra : BitVec 5) (e : BitVec 2) (i : BitVec 14) :
    iwQimm (o ++ rd ++ ra ++ e ++ i) = i.toNat :=
  (bitsOf_append_low _ i 0 14 (by decide)).trans (bitsOf_whole i)

@[simp] theorem br_o (o : BitVec 6) (l : BitVec 1) (n : BitVec 1) (p : BitVec 3) (off : BitVec 21) :
    bitsOf (o ++ l ++ n ++ p ++ off : Word).toNat 26 6 = o.toNat :=
  (bitsOf_append_high _ off 26 6 (by decide)).trans ((bitsOf_append_high _ p 5 6 (by decide)).trans ((bitsOf_append_high _ n 2 6 (by decide)).trans ((bitsOf_append_high _ l 1 6 (by decide)).trans (bitsOf_whole o))))

@[simp] theorem br_l (o : BitVec 6) (l : BitVec 1) (n : BitVec 1) (p : BitVec 3) (off : BitVec 21) :
    bitsOf (o ++ l ++ n ++ p ++ off : Word).toNat 25 1 = l.toNat :=
  (bitsOf_append_high _ off 25 1 (by decide)).trans ((bitsOf_append_high _ p 4 1 (by decide)).trans ((bitsOf_append_high _ n 1 1 (by decide)).trans ((bitsOf_append_low _ l 0 1 (by decide)).trans (bitsOf_whole l))))

@[simp] theorem br_n (o : BitVec 6) (l : BitVec 1) (n : BitVec 1) (p : BitVec 3) (off : BitVec 21) :
    bitsOf (o ++ l ++ n ++ p ++ off : Word).toNat 24 1 = n.toNat :=
  (bitsOf_append_high _ off 24 1 (by decide)).trans ((bitsOf_append_high _ p 3 1 (by decide)).trans ((bitsOf_append_low _ n 0 1 (by decide)).trans (bitsOf_whole n)))

@[simp] theorem br_p (o : BitVec 6) (l : BitVec 1) (n : BitVec 1) (p : BitVec 3) (off : BitVec 21) :
    bitsOf (o ++ l ++ n ++ p ++ off : Word).toNat 21 3 = p.toNat :=
  (bitsOf_append_high _ off 21 3 (by decide)).trans ((bitsOf_append_low _ p 0 3 (by decide)).trans (bitsOf_whole p))

@[simp] theorem br_off (o : BitVec 6) (l : BitVec 1) (n : BitVec 1) (p : BitVec 3) (off : BitVec 21) :
    bitsOf (o ++ l ++ n ++ p ++ off : Word).toNat 0 21 = off.toNat :=
  (bitsOf_append_low _ off 0 21 (by decide)).trans (bitsOf_whole off)

@[simp] theorem loop_o (o : BitVec 6) (n : BitVec 2) (b : BitVec 1) (len : BitVec 11) (count : BitVec 12) :
    bitsOf (o ++ n ++ b ++ len ++ count : Word).toNat 26 6 = o.toNat :=
  (bitsOf_append_high _ count 26 6 (by decide)).trans ((bitsOf_append_high _ len 14 6 (by decide)).trans ((bitsOf_append_high _ b 3 6 (by decide)).trans ((bitsOf_append_high _ n 2 6 (by decide)).trans (bitsOf_whole o))))

@[simp] theorem loop_n (o : BitVec 6) (n : BitVec 2) (b : BitVec 1) (len : BitVec 11) (count : BitVec 12) :
    bitsOf (o ++ n ++ b ++ len ++ count : Word).toNat 24 2 = n.toNat :=
  (bitsOf_append_high _ count 24 2 (by decide)).trans ((bitsOf_append_high _ len 12 2 (by decide)).trans ((bitsOf_append_high _ b 1 2 (by decide)).trans ((bitsOf_append_low _ n 0 2 (by decide)).trans (bitsOf_whole n))))

@[simp] theorem loop_b (o : BitVec 6) (n : BitVec 2) (b : BitVec 1) (len : BitVec 11) (count : BitVec 12) :
    bitsOf (o ++ n ++ b ++ len ++ count : Word).toNat 23 1 = b.toNat :=
  (bitsOf_append_high _ count 23 1 (by decide)).trans ((bitsOf_append_high _ len 11 1 (by decide)).trans ((bitsOf_append_low _ b 0 1 (by decide)).trans (bitsOf_whole b)))

@[simp] theorem loop_len (o : BitVec 6) (n : BitVec 2) (b : BitVec 1) (len : BitVec 11) (count : BitVec 12) :
    bitsOf (o ++ n ++ b ++ len ++ count : Word).toNat 12 11 = len.toNat :=
  (bitsOf_append_high _ count 12 11 (by decide)).trans ((bitsOf_append_low _ len 0 11 (by decide)).trans (bitsOf_whole len))

@[simp] theorem loop_count (o : BitVec 6) (n : BitVec 2) (b : BitVec 1) (len : BitVec 11) (count : BitVec 12) :
    bitsOf (o ++ n ++ b ++ len ++ count : Word).toNat 0 12 = count.toNat :=
  (bitsOf_append_low _ count 0 12 (by decide)).trans (bitsOf_whole count)

@[simp] theorem cmpi_o (o : BitVec 6) (pd : BitVec 3) (cond : BitVec 2) (ra : BitVec 5) (i : BitVec 16) :
    bitsOf (o ++ pd ++ cond ++ ra ++ i : Word).toNat 26 6 = o.toNat :=
  (bitsOf_append_high _ i 26 6 (by decide)).trans ((bitsOf_append_high _ ra 10 6 (by decide)).trans ((bitsOf_append_high _ cond 5 6 (by decide)).trans ((bitsOf_append_high _ pd 3 6 (by decide)).trans (bitsOf_whole o))))

@[simp] theorem cmpi_pd (o : BitVec 6) (pd : BitVec 3) (cond : BitVec 2) (ra : BitVec 5) (i : BitVec 16) :
    bitsOf (o ++ pd ++ cond ++ ra ++ i : Word).toNat 23 3 = pd.toNat :=
  (bitsOf_append_high _ i 23 3 (by decide)).trans ((bitsOf_append_high _ ra 7 3 (by decide)).trans ((bitsOf_append_high _ cond 2 3 (by decide)).trans ((bitsOf_append_low _ pd 0 3 (by decide)).trans (bitsOf_whole pd))))

@[simp] theorem cmpi_cond (o : BitVec 6) (pd : BitVec 3) (cond : BitVec 2) (ra : BitVec 5) (i : BitVec 16) :
    bitsOf (o ++ pd ++ cond ++ ra ++ i : Word).toNat 21 2 = cond.toNat :=
  (bitsOf_append_high _ i 21 2 (by decide)).trans ((bitsOf_append_high _ ra 5 2 (by decide)).trans ((bitsOf_append_low _ cond 0 2 (by decide)).trans (bitsOf_whole cond)))

@[simp] theorem cmpi_ra (o : BitVec 6) (pd : BitVec 3) (cond : BitVec 2) (ra : BitVec 5) (i : BitVec 16) :
    bitsOf (o ++ pd ++ cond ++ ra ++ i : Word).toNat 16 5 = ra.toNat :=
  (bitsOf_append_high _ i 16 5 (by decide)).trans ((bitsOf_append_low _ ra 0 5 (by decide)).trans (bitsOf_whole ra))

@[simp] theorem cmpi_i (o : BitVec 6) (pd : BitVec 3) (cond : BitVec 2) (ra : BitVec 5) (i : BitVec 16) :
    bitsOf (o ++ pd ++ cond ++ ra ++ i : Word).toNat 0 16 = i.toNat :=
  (bitsOf_append_low _ i 0 16 (by decide)).trans (bitsOf_whole i)

theorem bitOf_br_l (o : BitVec 6) (l n : Bool) (p : BitVec 3) (off : BitVec 21) :
    bitOf (o ++ BitVec.ofBool l ++ BitVec.ofBool n ++ p ++ off : Word).toNat 25 = l := by
  rw [bitOf_eq_bitsOf, br_l]; cases l <;> rfl

theorem bitOf_br_n (o : BitVec 6) (l n : Bool) (p : BitVec 3) (off : BitVec 21) :
    bitOf (o ++ BitVec.ofBool l ++ BitVec.ofBool n ++ p ++ off : Word).toNat 24 = n := by
  rw [bitOf_eq_bitsOf, br_n]; cases n <;> rfl

theorem bitOf_loop_b (o : BitVec 6) (n : BitVec 2) (b : Bool) (len : BitVec 11) (count : BitVec 12) :
    bitOf (o ++ n ++ BitVec.ofBool b ++ len ++ count : Word).toNat 23 = b := by
  rw [bitOf_eq_bitsOf, loop_b]; cases b <;> rfl

/-- The major opcode of a word whose other fields stay together. -/
@[simp] theorem iwOp_rest (o : BitVec 6) (x : BitVec 26) : iwOp (o ++ x) = o.toNat :=
  (bitsOf_append_high _ x 26 6 (by decide)).trans (bitsOf_whole o)

@[simp] theorem isA_word (o : BitVec 6) (rd ra rb : BitVec 5) (f : BitVec 11) :
    isA o.toNat rd ra rb f (o ++ rd ++ ra ++ rb ++ f) = true := by
  unfold isA
  rw [iwOp_A, iwRd_A, iwRa_A, iwRb_A, iwFunc_A]
  simp

@[simp] theorem isI_word (o : BitVec 6) (rd ra : BitVec 5) (i : BitVec 16) :
    isI o.toNat rd ra i (o ++ rd ++ ra ++ i) = true := by
  unfold isI
  rw [iwOp_I, iwRd_I, iwRa_I, iwImm_I]
  simp

@[simp] theorem isQ_word (o : BitVec 6) (rd ra : BitVec 5) (e : BitVec 2) (i : BitVec 14) :
    isQ o.toNat rd ra i (o ++ rd ++ ra ++ e ++ i) = true := by
  unfold isQ
  rw [iwOp_Q, iwRd_Q, iwRa_Q, iwQimm_Q]
  simp

end Sys2Proof.Machine
end

