-- ==== Sys2Proof/Laws/Control.lean ====
section
/-! SUPPORT. What the shared operations of the control core do: issue, register and predicate writes, going on to the next
word. -/

namespace Sys2Proof.Machine

open Sys2Proof

/-! ## Issue -/

/-- An instruction whose word stands at the PC of a core that can issue has its effect. -/
theorem State.issue_ready {s : State} {c : Nat} {w : Word} (h : Ready s c w) {named : Word → Bool} {eff : Core → State}
    (hn : named w = true) : s.issue c named eff = eff (s.core c) := by
  obtain ⟨h1, h2, h3⟩ := h
  unfold State.issue
  rw [if_pos h1]
  simp only [h2]
  rw [if_neg (fun e => e.elim (fun e => e rfl) h3), if_pos hn]

theorem State.issueCore_ready {s : State} {c : Nat} {w : Word} (h : Ready s c w) {named : Word → Bool} {f : Core → Core}
    (hn : named w = true) : s.issueCore c named f = s.setCore c (f (s.core c)).advance :=
  State.issue_ready h hn

/-- A core that cannot issue has no effect. -/
theorem State.issue_idle {s : State} {c : Nat} (h : s.canIssue c = false) (named : Word → Bool) (eff : Core → State) :
    s.issue c named eff = s := by
  unfold State.issue
  rw [h]; rfl

/-- A word of another epoch faults. -/
theorem State.issue_stale {s : State} {c : Nat} {w : Word} {tag : BitVec 16} (h : s.canIssue c = true)
    (hw : s.fetched c = (w, tag)) (ht : tag ≠ (s.core c).epoch) (named : Word → Bool) (eff : Core → State) :
    s.issue c named eff = s.epochFault c tag := by
  unfold State.issue
  rw [if_pos h]
  simp only [hw]
  rw [if_pos (Or.inl ht)]

/-- A word tagged 0 is never executed (R249). -/
theorem State.issue_untagged {s : State} {c : Nat} {w : Word} (h : s.canIssue c = true) (hw : s.fetched c = (w, 0))
    (named : Word → Bool) (eff : Core → State) : s.issue c named eff = s.epochFault c 0 := by
  unfold State.issue
  rw [if_pos h]
  simp only [hw]
  exact if_pos (Or.inr trivial)

/-! ## One core -/

theorem onlyCore_setCore (s : State) (c : Nat) (k : Core) : OnlyCore s (s.setCore c k) c :=
  ⟨fun _ h => mget_mput_other _ _ _ h, rfl⟩

theorem OnlyCore.refl (s : State) (c : Nat) : OnlyCore s s c := ⟨fun _ _ => rfl, rfl⟩

theorem OnlyCore.trans {s t u : State} {c : Nat} (h : OnlyCore s t c) (g : OnlyCore t u c) : OnlyCore s u c := by
  refine ⟨fun d hd => (g.1 d hd).trans (h.1 d hd), ?_⟩
  have h2 := g.2
  have h1 := h.2
  rw [← h1, ← h2]

/-! ## Registers and predicates -/

@[simp] theorem Core.rg_zero (k : Core) : k.rg 0 = 0 := rfl

theorem Core.rg_setG (k : Core) (rd r : BitVec 5) (v : Reg) :
    (k.setG rd v).rg r = if r = 0 then 0 else if r = rd then v else k.rg r := by
  unfold Core.setG Core.rg
  by_cases h0 : r = 0
  · simp [h0]
  · rw [if_neg h0, if_neg h0]
    by_cases hd : rd = 0
    · subst hd; rw [if_pos rfl, if_neg h0, if_neg h0]
    · rw [if_neg hd]
      by_cases hr : r = rd
      · subst hr; simp
      · rw [if_neg hr, if_neg h0]
        have : rd.toNat ≠ r.toNat := fun e => hr (BitVec.eq_of_toNat_eq e.symm)
        simp [this]

theorem Core.pr_setP (k : Core) (i j : BitVec 3) (b : Bool) :
    (k.setP i b).pr j = if j = 0 then true else if j = i then b else k.pr j := by
  unfold Core.setP Core.pr
  by_cases h0 : j = 0
  · simp [h0]
  · by_cases hd : i = 0
    · subst hd; rw [if_pos rfl, if_neg h0, if_neg h0]
    · rw [if_neg hd]
      have hi := i.isLt
      have hj := j.isLt
      by_cases hr : j = i
      · subst hr
        cases b <;> simp <;> omega
      · have hn : i.toNat ≠ j.toNat := fun e => hr (BitVec.eq_of_toNat_eq e.symm)
        have e : (1#8 <<< i.toNat).getLsbD j.toNat = false := by
          simp; omega
        cases b <;> simp only [BitVec.getLsbD_or, BitVec.getLsbD_and, BitVec.getLsbD_not, e, if_true, Bool.false_eq_true,
          if_false, BitVec.ofNat_eq_ofNat, BitVec.getLsbD_zero] <;> simp [hr, hj]

@[simp] theorem Core.advance_setG (k : Core) (rd : BitVec 5) (v : Reg) :
    (k.setG rd v).advance = { k.advance with g := (k.setG rd v).g } := by
  unfold Core.setG; split <;> rfl

@[simp] theorem Core.advance_setP (k : Core) (i : BitVec 3) (b : Bool) :
    (k.setP i b).advance = { k.advance with p := (k.setP i b).p } := by
  unfold Core.setP; split <;> rfl

/-- What an instruction that writes a register leaves. -/
theorem writesRegister (s : State) (c : Nat) (rd : BitVec 5) (v : Reg) :
    WritesRegister s (s.setCore c ((s.core c).setG rd v).advance) c rd v := by
  refine ⟨onlyCore_setCore _ _ _, fun r => ?_, ?_⟩
  · rw [State.core_setCore_same, Core.advance_setG]
    exact Core.rg_setG _ _ _ _
  · rw [State.core_setCore_same, Core.advance_setG]

/-- What an instruction that writes a predicate leaves. -/
theorem writesPredicate (s : State) (c : Nat) (i : BitVec 3) (b : Bool) :
    WritesPredicate s (s.setCore c ((s.core c).setP i b).advance) c i b := by
  refine ⟨onlyCore_setCore _ _ _, fun r => ?_, ?_⟩
  · rw [State.core_setCore_same, Core.advance_setP]
    exact Core.pr_setP _ _ _ _
  · rw [State.core_setCore_same, Core.advance_setP]

end Sys2Proof.Machine
end

