-- ==== Sys2Proof/Laws/Memory.lean ====
section
/-! SUPPORT. Every memory operation keeps the canonical form, and reads give back what writes put. -/

namespace Sys2Proof.Machine

open Sys2Proof

/-- The canonical form of a cell list: addresses strictly rising, no zero byte listed. -/
def CellsWf (l : List Host.Cell) : Prop := l.Pairwise (fun x y => x.1 < y.1) ∧ ∀ e ∈ l, e.2 ≠ 0

theorem mem_cellsOf {a : Nat} {d : List Byte} {e : Host.Cell} (h : e ∈ cellsOf a d) :
    a ≤ e.1 ∧ e.1 < a + d.length ∧ e.2 ≠ 0 := by
  induction d generalizing a with
  | nil => simp [cellsOf] at h
  | cons b bs ih =>
    simp only [cellsOf] at h
    split at h
    · obtain ⟨h1, h2, h3⟩ := ih h
      simp only [List.length_cons]; exact ⟨by omega, by omega, h3⟩
    · rcases List.mem_cons.1 h with rfl | h
      · simp only [List.length_cons]; exact ⟨by omega, by omega, by assumption⟩
      · obtain ⟨h1, h2, h3⟩ := ih h
        simp only [List.length_cons]; exact ⟨by omega, by omega, h3⟩

theorem cellsOf_wf (a : Nat) (d : List Byte) : CellsWf (cellsOf a d) := by
  refine ⟨?_, fun e he => (mem_cellsOf he).2.2⟩
  induction d generalizing a with
  | nil => simp [cellsOf]
  | cons b bs ih =>
    simp only [cellsOf]
    split
    · exact ih _
    · exact List.pairwise_cons.2 ⟨fun e he => by have := (mem_cellsOf he).1; omega, ih _⟩

theorem mem_takeWhile_lt {l : List Host.Cell} {a : Nat} {e : Host.Cell}
    (h : e ∈ l.takeWhile (fun e => e.1 < a)) : e.1 < a := by
  induction l with
  | nil => simp at h
  | cons x xs ih =>
    by_cases hx : x.1 < a
    · rw [List.takeWhile_cons_of_pos (by simpa using hx)] at h
      rcases List.mem_cons.1 h with rfl | h
      · exact hx
      · exact ih h
    · rw [List.takeWhile_cons_of_neg (by simpa using hx)] at h; simp at h

theorem mem_dropWhile_ge {l : List Host.Cell} {a : Nat} {e : Host.Cell} (hl : l.Pairwise (fun x y => x.1 < y.1))
    (h : e ∈ l.dropWhile (fun e => e.1 < a)) : a ≤ e.1 := by
  induction l with
  | nil => simp at h
  | cons x xs ih =>
    rw [List.pairwise_cons] at hl
    by_cases hx : x.1 < a
    · rw [List.dropWhile_cons_of_pos (by simpa using hx)] at h; exact ih hl.2 h
    · rw [List.dropWhile_cons_of_neg (by simpa using hx)] at h
      rcases List.mem_cons.1 h with rfl | h
      · omega
      · have := hl.1 e h; omega

theorem cellsPut_wf {l : List Host.Cell} (hl : CellsWf l) (a : Nat) (d : List Byte) : CellsWf (cellsPut l a d) := by
  have hd := cellsOf_wf a d
  refine ⟨?_, ?_⟩
  · unfold cellsPut
    rw [List.pairwise_append, List.pairwise_append]
    refine ⟨hl.1.sublist (List.takeWhile_sublist _), ⟨hd.1, hl.1.sublist (List.dropWhile_sublist _), ?_⟩, ?_⟩
    · intro x hx y hy
      have h1 := (mem_cellsOf hx).2.1
      have h2 := mem_dropWhile_ge hl.1 hy
      omega
    · intro x hx y hy
      have h1 := mem_takeWhile_lt hx
      rcases List.mem_append.1 hy with hy | hy
      · have := (mem_cellsOf hy).1; omega
      · have := mem_dropWhile_ge hl.1 hy; omega
  · intro e he
    unfold cellsPut at he
    rcases List.mem_append.1 he with he | he
    · exact hl.2 e ((List.takeWhile_sublist _).subset he)
    · rcases List.mem_append.1 he with he | he
      · exact hd.2 e he
      · exact hl.2 e ((List.dropWhile_sublist _).subset he)

theorem mem_insertNat {l : List Nat} {k x : Nat} (h : x ∈ insertNat l k) : x = k ∨ x ∈ l := by
  induction l with
  | nil => simpa [insertNat] using h
  | cons a l ih =>
    simp only [insertNat] at h
    split at h
    · simpa using h
    · split at h
      · exact .inr h
      · rcases List.mem_cons.1 h with rfl | h
        · exact .inr (by simp)
        · rcases ih h with h | h
          · exact .inl h
          · exact .inr (by simp [h])

theorem insertNat_rising {l : List Nat} (h : l.Pairwise (· < ·)) (k : Nat) : (insertNat l k).Pairwise (· < ·) := by
  induction l with
  | nil => simp [insertNat]
  | cons a l ih =>
    rw [List.pairwise_cons] at h
    simp only [insertNat]
    split
    · refine List.pairwise_cons.2 ⟨fun x hx => ?_, List.pairwise_cons.2 h⟩
      rcases List.mem_cons.1 hx with rfl | hx
      · assumption
      · have := h.1 x hx; omega
    · split
      · exact List.pairwise_cons.2 h
      · refine List.pairwise_cons.2 ⟨fun x hx => ?_, ih h.2⟩
        rcases mem_insertNat hx with rfl | hx
        · omega
        · exact h.1 x hx

theorem foldl_insertNat_rising {l : List Nat} (h : l.Pairwise (· < ·)) (gs : List Nat) :
    (gs.foldl insertNat l).Pairwise (· < ·) := by
  induction gs generalizing l with
  | nil => exact h
  | cons g gs ih => exact ih (insertNat_rising h g)

theorem Mem.reset_wf : Mem.reset.wf := ⟨.nil, by simp [Mem.reset], .nil⟩

theorem Mem.write_wf {m : Mem} (h : m.wf) (a : Nat) (d : List Byte) : (m.write a d).wf :=
  let ⟨h1, h2⟩ := cellsPut_wf ⟨h.1, h.2.1⟩ a d
  ⟨h1, h2, h.2.2.sublist List.filter_sublist⟩

theorem Mem.mark_wf {m : Mem} (h : m.wf) (a : Nat) : (m.mark a).wf := ⟨h.1, h.2.1, insertNat_rising h.2.2 _⟩

theorem Mem.marks_wf {m : Mem} (h : m.wf) (gs : List Nat) : (m.marks gs).wf :=
  ⟨h.1, h.2.1, foldl_insertNat_rising h.2.2 gs⟩

theorem Mem.unmark_wf {m : Mem} (h : m.wf) (g : Nat) : (m.unmark g).wf :=
  ⟨h.1, h.2.1, h.2.2.sublist List.filter_sublist⟩

/-- A fold of memory operations that each keep the canonical form keeps it. -/
theorem Mem.foldl_wf {α : Type} {f : Mem → α → Mem} (hf : ∀ m x, m.wf → (f m x).wf) {m : Mem} (h : m.wf)
    (l : List α) : (l.foldl f m).wf := by
  induction l generalizing m with
  | nil => exact h
  | cons x xs ih => exact ih (hf m x h)

theorem Mem.setCells_wf {m : Mem} (h : m.wf) (a : Nat) (d : List Byte) :
    ({ m with bytes := cellsPut m.bytes a d } : Mem).wf :=
  let ⟨h1, h2⟩ := cellsPut_wf ⟨h.1, h.2.1⟩ a d
  ⟨h1, h2, h.2.2⟩

theorem Mem.writeCells_wf {m : Mem} (h : m.wf) (cs : List Host.Cell) : (m.writeCells cs).wf := by
  unfold Mem.writeCells
  exact Mem.foldl_wf (fun m c hm => Mem.setCells_wf hm c.1 [c.2]) h cs

/-- Keeping some of the bytes and some of the marks keeps the canonical form. -/
theorem Mem.filter_wf {m : Mem} (h : m.wf) (p : Host.Cell → Bool) (q : Nat → Bool) :
    ({ bytes := m.bytes.filter p, poison := m.poison.filter q } : Mem).wf :=
  ⟨h.1.sublist List.filter_sublist, fun e he => h.2.1 e (List.filter_sublist.subset he), h.2.2.sublist List.filter_sublist⟩

theorem Mem.apply_wf {m : Mem} (h : m.wf) (w : PondWrite) (reach : Nat → Bool) : (m.apply w reach).wf := by
  unfold Mem.apply
  refine Mem.marks_wf (Mem.foldl_wf (fun m g hm => Mem.unmark_wf hm g) ?_ _) _
  exact Mem.foldl_wf (fun m c hm => Mem.setCells_wf hm _ _) h _

/-! ## What a write leaves to read -/

theorem cellAt_nil (a : Nat) : cellAt [] a = 0 := rfl

theorem cellAt_append {l₁ l₂ : List Host.Cell} {a : Nat} (h : ∀ e ∈ l₁, e.1 ≠ a) : cellAt (l₁ ++ l₂) a = cellAt l₂ a := by
  unfold cellAt
  rw [List.find?_append, List.find?_eq_none.2 (by simpa using h)]
  rfl

theorem cellAt_append_left {l₁ l₂ : List Host.Cell} {a : Nat} (h : ∀ e ∈ l₂, e.1 ≠ a) : cellAt (l₁ ++ l₂) a = cellAt l₁ a := by
  unfold cellAt
  have h2 : l₂.find? (fun e => e.1 == a) = none := List.find?_eq_none.2 (by simpa using h)
  rw [List.find?_append, h2, Option.or_none]

theorem cellAt_cons (e : Host.Cell) (l : List Host.Cell) (a : Nat) :
    cellAt (e :: l) a = if e.1 = a then e.2 else cellAt l a := by
  unfold cellAt
  by_cases h : e.1 = a <;> simp [h]

theorem cellAt_cellsOf (a : Nat) (d : List Byte) (x : Nat) :
    cellAt (cellsOf a d) x = if a ≤ x then d.getD (x - a) 0 else 0 := by
  induction d generalizing a with
  | nil => simp [cellsOf, cellAt_nil]
  | cons b bs ih =>
    simp only [cellsOf]
    by_cases hb : b = 0
    · rw [if_pos hb, ih]
      by_cases h1 : a + 1 ≤ x
      · rw [if_pos h1, if_pos (by omega), show x - a = (x - (a + 1)) + 1 by omega, List.getD_cons_succ]
      · rw [if_neg h1]
        by_cases h2 : a ≤ x
        · rw [if_pos h2, show x - a = 0 by omega, List.getD_cons_zero, hb]
        · rw [if_neg h2]
    · rw [if_neg hb, cellAt_cons, ih]
      by_cases h1 : a = x
      · subst h1; simp
      · rw [if_neg h1]
        by_cases h2 : a + 1 ≤ x
        · rw [if_pos h2, if_pos (by omega), show x - a = (x - (a + 1)) + 1 by omega, List.getD_cons_succ]
        · rw [if_neg h2, if_neg (by omega)]

theorem cellAt_takeWhile {l : List Host.Cell} {a x : Nat} (hl : l.Pairwise (fun x y => x.1 < y.1)) (hx : x < a) :
    cellAt (l.takeWhile (fun e => e.1 < a)) x = cellAt l x := by
  conv => rhs; rw [← List.takeWhile_append_dropWhile (p := fun e : Host.Cell => decide (e.1 < a)) (l := l)]
  refine (cellAt_append_left fun e he => ?_).symm
  have := mem_dropWhile_ge hl he; omega

theorem cellAt_dropWhile {l : List Host.Cell} {a x : Nat} (hx : a ≤ x) :
    cellAt (l.dropWhile (fun e => e.1 < a)) x = cellAt l x := by
  conv => rhs; rw [← List.takeWhile_append_dropWhile (p := fun e : Host.Cell => decide (e.1 < a)) (l := l)]
  refine (cellAt_append fun e he => ?_).symm
  have := mem_takeWhile_lt he; omega

theorem cellAt_cellsPut {l : List Host.Cell} (hl : l.Pairwise (fun x y => x.1 < y.1)) (a : Nat) (d : List Byte) (x : Nat) :
    cellAt (cellsPut l a d) x = if a ≤ x ∧ x < a + d.length then d.getD (x - a) 0 else cellAt l x := by
  unfold cellsPut
  by_cases h1 : x < a
  · rw [cellAt_append_left, cellAt_takeWhile hl h1, if_neg (by omega)]
    intro e he
    rcases List.mem_append.1 he with he | he
    · have := (mem_cellsOf he).1; omega
    · have := mem_dropWhile_ge hl he; omega
  · rw [cellAt_append (fun e he => by have := mem_takeWhile_lt he; omega)]
    by_cases h2 : x < a + d.length
    · rw [if_pos ⟨by omega, h2⟩, cellAt_append_left (fun e he => by have := mem_dropWhile_ge hl he; omega),
        cellAt_cellsOf, if_pos (by omega)]
    · rw [if_neg (by omega), cellAt_append (fun e he => by have := (mem_cellsOf he).2.1; omega),
        cellAt_dropWhile (by omega)]

/-- A byte after a write: the byte written inside the range, the old byte outside it. -/
theorem Mem.byte_write {m : Mem} (h : m.wf) (a : Nat) (d : List Byte) (x : Nat) :
    (m.write a d).byte x = if a ≤ x ∧ x < a + d.length then d.getD (x - a) 0 else m.byte x :=
  cellAt_cellsPut h.1 a d x

end Sys2Proof.Machine
end

