-- ==== Sys2Proof/Laws/Ponds.lean ====
section
/-! SUPPORT. The operations on a core that leave its pond as it is. -/

namespace Sys2Proof.Machine

open Sys2Proof

@[simp] theorem Core.setG_pond (k : Core) (r : BitVec 5) (v : Reg) : (k.setG r v).pond = k.pond := by
  unfold Core.setG; split <;> rfl

@[simp] theorem Core.setP_pond (k : Core) (i : BitVec 3) (b : Bool) : (k.setP i b).pond = k.pond := by
  unfold Core.setP; split <;> rfl

@[simp] theorem Core.setLc_pond (k : Core) (n : Nat) (v : Word) : (k.setLc n v).pond = k.pond := rfl

@[simp] theorem Core.advance_pond (k : Core) : k.advance.pond = k.pond := rfl

@[simp] theorem Core.jump_pond (k : Core) (t : Nat) : (k.jump t).pond = k.pond := rfl

@[simp] theorem Core.enterLoop_pond (k : Core) (n len cnt : Nat) : (k.enterLoop n len cnt).pond = k.pond := by
  unfold Core.enterLoop; extract_lets; split <;> rfl

@[simp] theorem Core.disarm_pond (k : Core) : k.disarm.pond = k.pond := rfl

@[simp] theorem Core.takeDue_pond (k : Core) (e : Nat) (w : Word) : (k.takeDue e w).pond = k.pond := by
  unfold Core.takeDue; split
  · split <;> rfl
  · rfl

@[simp] theorem Core.setQueue_pond (k : Core) (e : Nat) (q : EngQ) : (k.setQueue e q).pond = k.pond := rfl

@[simp] theorem Core.haltSoon_pond (k : Core) : k.haltSoon.pond = k.pond := by
  unfold Core.haltSoon; extract_lets; split <;> rfl

@[simp] theorem Core.resume_pond (k : Core) : k.resume.pond = k.pond := by
  unfold Core.resume; split <;> rfl

@[simp] theorem Core.putFlag_pond (k : Core) (n : Nat) (b : Bool) : (k.putFlag n b).pond = k.pond := rfl

@[simp] theorem Core.setFlag_pond (k : Core) (n : Nat) (b : Bool) : (k.setFlag n b).pond = k.pond := by
  unfold Core.setFlag; split
  · rfl
  · split <;> rfl

@[simp] theorem Core.streamFlag_pond (k : Core) (id n : Nat) (b : Bool) : (k.streamFlag id n b).pond = k.pond := by
  unfold Core.streamFlag; split
  · rfl
  · extract_lets; split
    · rfl
    · split <;> rfl

@[simp] theorem Core.nextId_pond (k : Core) : k.nextId.pond = k.pond := rfl

@[simp] theorem Core.noteIdle_pond (k : Core) : k.noteIdle.pond = k.pond := by
  have h : ∀ (l : List Nat) (x : Core), (l.foldl (fun k e =>
      if k.seenEmpty e then
        let q := k.queue e
        k.setQueue e { q with idle := (k.freeUnits e).foldl (fun l u => addIdle l u k.cyc.toNat) q.idle }
      else k) x).pond = x.pond := by
    intro l
    induction l with
    | nil => intro x; rfl
    | cons e es ih => intro x; rw [List.foldl_cons, ih]; split <;> rfl
  exact h _ k

@[simp] theorem Core.stepOn_pond (k : Core) : k.stepOn.pond = k.pond := by
  unfold Core.stepOn; split
  · split <;> rfl
  · rfl

@[simp] theorem Core.leaveStep_pond (k : Core) (f : Bool) : (k.leaveStep f).pond = k.pond := by
  unfold Core.leaveStep; split <;> rfl

@[simp] theorem Core.outcome_pond (k : Core) : k.outcome.pond = k.pond := by
  unfold Core.outcome; split <;> rfl

@[simp] theorem Core.armDue_pond (k : Core) (e : Nat) (v : Word) : (k.armDue e v).pond = k.pond := rfl

@[simp] theorem Core.settleDues_pond (k : Core) : k.settleDues.pond = k.pond := by
  have h : ∀ (l : List (Nat × Word)) (x : Core), (l.foldl (fun k x =>
      { k with dues := k.dues.setIfInBounds x.1 (x.2, true), dueSeen := k.dueSeen.filter fun y => y != x.1 }) x).pond =
      x.pond := by
    intro l
    induction l with
    | nil => intro x; rfl
    | cons y ys ih => intro x; rw [List.foldl_cons, ih]
  exact h _ _

@[simp] theorem Core.wellMark_pond (k : Core) (b i : Nat) : (k.wellMark b i).pond = k.pond := by
  unfold Core.wellMark; split <;> rfl

@[simp] theorem Core.refetch_pond (k : Core) (i : Nat) : (k.refetch i).pond = k.pond := rfl

@[simp] theorem Core.loadWords_pond (k : Core) (first : Nat) (ws : List Word) (e : BitVec 16) :
    (k.loadWords first ws e).pond = k.pond := rfl

@[simp] theorem Core.launched_pond (k : Core) (x : CoreLaunch) (e : BitVec 16) (pc : Nat) (args : List Reg) :
    (k.launched x e pc args).pond = k.pond := rfl

@[simp] theorem Core.setC_pond (k : Core) (i : Nat) (v : Word) : (k.setC i v).pond = k.pond := rfl

@[simp] theorem Core.setBank_pond (k : Core) (n : Nat) (b : Bank) : (k.setBank n b).pond = k.pond := by
  unfold Core.setBank; split <;> rfl

@[simp] theorem Core.setSlot_pond (k : Core) (n : Nat) (t : Slot) : (k.setSlot n t).pond = k.pond := rfl

@[simp] theorem Core.putCursor_pond (k : Core) (x : Option (Nat × Reg)) : (k.putCursor x).pond = k.pond := by
  unfold Core.putCursor; split <;> rfl

@[simp] theorem Core.settleEntry_pond (k : Core) (x : Staged) (keep : Bool) : (k.settleEntry x keep).pond = k.pond := by
  unfold Core.settleEntry; split <;> rfl

@[simp] theorem Core.takeEntry_pond (k : Core) (ch top : Nat) : (k.takeEntry ch top).pond = k.pond := rfl

@[simp] theorem Core.enterEpoch_pond (k : Core) (e : BitVec 16) : (k.enterEpoch e).pond = k.pond := by
  unfold Core.enterEpoch; split <;> rfl

@[simp] theorem Core.afterReset_pond (k : Core) : k.afterReset.pond = k.pond := rfl

@[simp] theorem Core.dropImplicit_pond (k : Core) : k.dropImplicit.pond = k.pond := rfl

/-! ## Stores that enter the pond (R216) -/

theorem stores_wf {m : Mem} (h : m.wf) (l : List (Nat × Nat × List Byte)) :
    (l.foldl (fun m x => m.write x.2.1 x.2.2) m).wf :=
  Mem.foldl_wf (fun _ _ hm => Mem.write_wf hm _ _) h l

theorem Core.view_wf {k : Core} (h : k.pond.wf) : k.view.wf := stores_wf h _

theorem Core.settleStores_wf {k : Core} (h : k.pond.wf) (t : Nat) : (k.settleStores t).pond.wf := stores_wf h _

theorem Core.flushStores_wf {k : Core} (h : k.pond.wf) : k.flushStores.pond.wf := stores_wf h _

theorem Core.endTick_wf {k : Core} (h : k.pond.wf) (t : Nat) : (k.endTick t).pond.wf :=
  Core.settleStores_wf (k := { k.settleDues with queues := _, setNow := 0, setStream := 0, acted := [] })
    (by simpa using h) t

end Sys2Proof.Machine
end

