-- ==== Sys2Proof/Laws/Kept.lean ====
section
/-! SUPPORT. What every operation of the block keeps, as one relation between the state before and the state after: the
command queue, the fuses of manufacture, the canonical form of device memory, the supply of free values and the tick
counter. Each shared operation has one lemma here or in the files beside this one. -/

namespace Sys2Proof.Machine

open Sys2Proof

/-- The fuses that manufacture blows and nothing changes later (R2, R576, R589). -/
def Fuses.manufacture (f : Fuses) : Nat × Nat × Reg × BitVec 8 × BitVec 8 :=
  (f.part, f.keyhash, f.serial, f.stepping, f.romver)

/-- Every pond is in canonical form. -/
def State.PondsWf (s : State) : Prop := ∀ c, (s.core c).pond.wf

/-- `t` keeps of `s`: the queue, the manufacture fuses, the tick counter, the canonical form of device memory and of the
ponds; and no free value that `s` has used is used again. -/
structure Kept (s t : State) : Prop where
  pending : t.pending = s.pending
  fuses : t.fuses.manufacture = s.fuses.manufacture
  ticks : t.ticks = s.ticks
  free : s.freeCtr ≤ t.freeCtr
  mem : s.mem.wf → t.mem.wf
  ponds : s.PondsWf → t.PondsWf

theorem Kept.refl (s : State) : Kept s s := ⟨rfl, rfl, rfl, Nat.le_refl _, id, id⟩

theorem Kept.trans {r s t : State} (h : Kept r s) (g : Kept s t) : Kept r t :=
  ⟨g.pending.trans h.pending, g.fuses.trans h.fuses, g.ticks.trans h.ticks, Nat.le_trans h.free g.free,
   fun w => g.mem (h.mem w), fun w => g.ponds (h.ponds w)⟩

/-- An update of fields that the relation does not speak of. -/
theorem Kept.upd {r s t : State} (h : Kept r s) (h1 : t.pending = s.pending) (h2 : t.fuses = s.fuses)
    (h3 : t.ticks = s.ticks) (h4 : t.freeCtr = s.freeCtr) (h5 : t.mem = s.mem)
    (h6 : t.cores = s.cores) : Kept r t :=
  ⟨h1.trans h.pending, by rw [h2, h.fuses], h3.trans h.ticks, by rw [h4]; exact h.free, fun w => by rw [h5]; exact h.mem w,
   fun w => by unfold State.PondsWf State.core; rw [h6]; exact h.ponds w⟩

/-- Any update of fields that the relation does not speak of. -/
theorem Kept.other {r s : State}
    {regs : Map Reg} {silicon : Map Reg} {active : List ActiveSpan} {colls : List Coll}
    {collSeq : Map Nat} {collCfg : Map Reg} {collDone : Map CollEntry} {jobs : Map Job} {hqs : Map HQ} {spanEpoch : Map (BitVec 16)}
    {eventRing : RingState} {logRing : RingState} {secureLog : RingState} {pendRecs : List PendRec} {lease :
    Lease} {hostLink : HostLink} {ports : Map Port} {flows : Map Flow} {loopback : List (Option Nat × Flit)} {tokensIn : List
    (Nat × Option Nat × Flit)} {objs : Map Obj} {objCopies : Map Obj} {waiters : Map Waiter} {mcs : Map MemCtl}
    {lake : Map LakeLine} {hidden : List Nat} {zeroing : List Nat} {power : Power} {firm : Firm} {fences : List RowFence} {governor :
    Map Nat} {fencedField : List Nat} {width : Nat}
    (h : Kept r s) :
    Kept r { s with
      regs := regs, silicon := silicon, active := active, colls := colls, collSeq := collSeq,
      collCfg := collCfg, collDone := collDone, jobs := jobs, hqs := hqs, spanEpoch := spanEpoch, eventRing := eventRing,
      logRing := logRing, secureLog := secureLog, pendRecs := pendRecs, lease := lease, hostLink := hostLink,
      ports := ports, flows := flows, loopback := loopback, tokensIn := tokensIn, objs := objs, objCopies :=
      objCopies, waiters := waiters, mcs := mcs, lake := lake, hidden := hidden, zeroing := zeroing, power := power, firm := firm,
      fences := fences, governor := governor, fencedField := fencedField, width := width } :=
  h.upd rfl rfl rfl rfl rfl rfl

/-- Any update that stays within the relation. -/
theorem Kept.any {r s : State}
    {regs : Map Reg} {silicon : Map Reg} {active : List ActiveSpan} {colls : List Coll}
    {collSeq : Map Nat} {collCfg : Map Reg} {collDone : Map CollEntry} {jobs : Map Job} {hqs : Map HQ} {spanEpoch : Map (BitVec 16)}
    {eventRing : RingState} {logRing : RingState} {secureLog : RingState} {pendRecs : List PendRec} {lease :
    Lease} {hostLink : HostLink} {ports : Map Port} {flows : Map Flow} {loopback : List (Option Nat × Flit)} {tokensIn : List
    (Nat × Option Nat × Flit)} {objs : Map Obj} {objCopies : Map Obj} {waiters : Map Waiter} {mcs : Map MemCtl}
    {lake : Map LakeLine} {hidden : List Nat} {zeroing : List Nat} {power : Power} {firm : Firm} {fences : List RowFence} {governor :
    Map Nat} {fencedField : List Nat} {width : Nat}
    {mem : Mem} {freeCtr : Nat} {fuses : Fuses}
    (h : Kept r s) (hf : fuses.manufacture = s.fuses.manufacture) (hn : s.freeCtr ≤ freeCtr) (hm : s.mem.wf → mem.wf) :
    Kept r { s with
      regs := regs, silicon := silicon, active := active, colls := colls, collSeq := collSeq,
      collCfg := collCfg, collDone := collDone, jobs := jobs, hqs := hqs, spanEpoch := spanEpoch, eventRing := eventRing,
      logRing := logRing, secureLog := secureLog, pendRecs := pendRecs, lease := lease, hostLink := hostLink,
      ports := ports, flows := flows, loopback := loopback, tokensIn := tokensIn, objs := objs, objCopies :=
      objCopies, waiters := waiters, mcs := mcs, lake := lake, hidden := hidden, zeroing := zeroing, power := power, firm := firm,
      fences := fences, governor := governor, fencedField := fencedField, width := width,
      mem := mem, freeCtr := freeCtr, fuses := fuses } :=
  ⟨h.pending, hf.trans h.fuses, h.ticks, Nat.le_trans h.free hn, fun w => hm (h.mem w), h.ponds⟩

theorem Kept.setMem {r s : State} (h : Kept r s) {m : Mem} (hm : s.mem.wf → m.wf) : Kept r { s with mem := m } :=
  ⟨h.pending, h.fuses, h.ticks, h.free, fun w => hm (h.mem w), h.ponds⟩

theorem Kept.setFree {r s : State} (h : Kept r s) {n : Nat} (hn : s.freeCtr ≤ n) : Kept r { s with freeCtr := n } :=
  ⟨h.pending, h.fuses, h.ticks, Nat.le_trans h.free hn, h.mem, h.ponds⟩

theorem Kept.setFuses {r s : State} (h : Kept r s) {f : Fuses} (hf : f.manufacture = s.fuses.manufacture) :
    Kept r { s with fuses := f } :=
  ⟨h.pending, hf.trans h.fuses, h.ticks, h.free, h.mem, h.ponds⟩

/-- An update of the cores that keeps every pond's canonical form. -/
theorem Kept.setCores {r s : State} (h : Kept r s) {cores : Map Core}
    (hc : r.PondsWf → ∀ c, (mget cores Core.reset c).pond.wf) : Kept r { s with cores := cores } :=
  ⟨h.pending, h.fuses, h.ticks, h.free, h.mem, hc⟩

/-- A fold of operations that each keep. -/
theorem Kept.foldl {α : Type} {r : State} {f : State → α → State} (hf : ∀ s x, Kept r s → Kept r (f s x)) {s : State}
    (h : Kept r s) (l : List α) : Kept r (l.foldl f s) := by
  induction l generalizing s with
  | nil => exact h
  | cons x xs ih => exact ih (hf s x h)

theorem Kept.of_snd {α : Type} {r t : State} {p : α × State} {a : α} (h : p = (a, t)) (hp : Kept r p.2) : Kept r t := by
  subst h; exact hp

theorem Kept.of_trd {α β : Type} {r t : State} {p : α × β × State} {a : α} {b : β} (h : p = (a, b, t))
    (hp : Kept r p.2.2) : Kept r t := by
  subst h; exact hp

theorem Kept.of_fst {α : Type} {r t : State} {p : State × α} {a : α} (h : p = (t, a)) (hp : Kept r p.1) : Kept r t := by
  subst h; exact hp

/-- An answer keeps when a next state does; no answer is anything else. -/
def KeptOut (s : State) (o : Host.Outcome State Fault Refusal) : Prop :=
  match o with
  | .next t => Kept s t
  | .fault _ => False
  | .refused _ => False

theorem KeptOut.next {s t : State} (h : Kept s t) : KeptOut s (.next t) := h

end Sys2Proof.Machine
end

