-- ==== Sys2Proof/Laws/KeptOps.lean ====
section
/-! SUPPORT. What the operations of Machine/Ops.lean keep (Laws/Kept.lean). -/

namespace Sys2Proof.Machine

open Sys2Proof

theorem State.setReg_kept {r s : State} (h : Kept r s) (a : Nat) (v : Reg) : Kept r (s.setReg a v) :=
  h.other

theorem State.setFld_kept {r s : State} (h : Kept r s) (a lo w x : Nat) : Kept r (s.setFld a lo w x) :=
  h.other

theorem State.satFld_kept {r s : State} (h : Kept r s) (a lo w n : Nat) : Kept r (s.satFld a lo w n) :=
  h.other

theorem State.addFld_kept {r s : State} (h : Kept r s) (a lo w n : Nat) : Kept r (s.addFld a lo w n) :=
  h.other

theorem State.setCore_kept {r s : State} (h : Kept r s) (c : Nat) (k : Core) (hk : r.PondsWf → k.pond.wf) :
    Kept r (s.setCore c k) :=
  h.setCores fun w i => by
    rw [mget_mput]
    split
    · exact hk w
    · exact h.ponds w i

theorem State.modCore_kept {r s : State} (h : Kept r s) (c : Nat) (f : Core → Core)
    (hf : ∀ k, k.pond.wf → (f k).pond.wf) : Kept r (s.modCore c f) :=
  State.setCore_kept h c _ fun w => hf _ (h.ponds w c)

theorem State.setJob_kept {r s : State} (h : Kept r s) (j : Nat) (x : Job) : Kept r (s.setJob j x) :=
  h.other

theorem State.modJob_kept {r s : State} (h : Kept r s) (j : Nat) (f : Job → Job) : Kept r (s.modJob j f) :=
  h.other

theorem State.setHq_kept {r s : State} (h : Kept r s) (q : Nat) (x : HQ) : Kept r (s.setHq q x) :=
  h.other

theorem State.modHq_kept {r s : State} (h : Kept r s) (q : Nat) (f : HQ → HQ) : Kept r (s.modHq q f) :=
  h.other

theorem State.setPort_kept {r s : State} (h : Kept r s) (p : Nat) (x : Port) : Kept r (s.setPort p x) :=
  h.other

theorem State.modPort_kept {r s : State} (h : Kept r s) (p : Nat) (f : Port → Port) : Kept r (s.modPort p f) :=
  h.other

theorem State.setFlow_kept {r s : State} (h : Kept r s) (f : Nat) (x : Flow) : Kept r (s.setFlow f x) :=
  h.other

theorem State.modFlow_kept {r s : State} (h : Kept r s) (f : Nat) (g : Flow → Flow) : Kept r (s.modFlow f g) :=
  h.other

theorem State.setObj_kept {r s : State} (h : Kept r s) (n : Nat) (x : Obj) : Kept r (s.setObj n x) :=
  h.other

theorem State.modObj_kept {r s : State} (h : Kept r s) (n : Nat) (f : Obj → Obj) : Kept r (s.modObj n f) :=
  h.other

theorem State.setMc_kept {r s : State} (h : Kept r s) (n : Nat) (x : MemCtl) : Kept r (s.setMc n x) :=
  h.other

theorem State.freeVal_kept {r s : State} (h : Kept r s) (w : Nat) : Kept r (s.freeVal w).2 :=
  h.setFree (Nat.le_succ _)

theorem State.freeVals_kept {r s : State} (h : Kept r s) (w n : Nat) : Kept r (s.freeVals w n).2 := h.setFree (Nat.le_add_right _ _)

end Sys2Proof.Machine
end

