-- ==== Sys2Proof/Laws/KeptAccess.lean ====
section
/-! SUPPORT. What the operations of Machine/Access.lean keep (Laws/Kept.lean). -/

namespace Sys2Proof.Machine

open Sys2Proof

theorem State.devPut_kept {r s : State} (h : Kept r s) (sec : Bool) (a : Nat) (d : List Byte) : Kept r (s.devPut sec a d) := by
  refine h.setMem fun w => Mem.foldl_wf (fun m p hm => ?_) w _
  split
  · exact Mem.write_wf hm _ _
  · exact hm

theorem State.devMark_kept {r s : State} (h : Kept r s) (sec : Bool) (gs : List Nat) : Kept r (s.devMark sec gs) :=
  h.setMem fun w => Mem.marks_wf w _

theorem State.lakeEvict_kept {r s : State} (h : Kept r s) (line : Nat) : Kept r (s.lakeEvict line) := by
  unfold State.lakeEvict
  refine h.any rfl (Nat.le_refl _) fun w => ?_
  split
  · exact w
  · exact Mem.marks_wf w _

theorem State.lakeRoom_kept {r s : State} (h : Kept r s) (line : Nat) : Kept r (s.lakeRoom line) := by
  unfold State.lakeRoom
  repeat' with_reducible
    first
    | assumption | apply State.freeVal_kept | apply State.lakeEvict_kept | split | extract_lets
    | refine Kept.of_snd (by assumption) ?_ | refine Kept.of_trd (by assumption) ?_
    | refine Kept.of_fst (by assumption) ?_

theorem State.lakeDemand_kept {r s : State} (h : Kept r s) (line : Nat) (wr : Bool) : Kept r (s.lakeDemand line wr) := by
  unfold State.lakeDemand
  extract_lets k x s1 s2 s3
  have h1 : Kept r s1 := State.addFld_kept h _ _ _ _
  have h2 : Kept r s2 := by
    unfold s2
    split
    · exact State.addFld_kept h1 _ _ _ _
    · exact h1
  have h3 : Kept r s3 := State.lakeRoom_kept (State.addFld_kept h _ _ _ _) _
  split
  · exact h2.other
  · exact h3.other

theorem State.lakeFill_kept {r s : State} (h : Kept r s) (sec : Bool) (line : Nat) : Kept r (s.lakeFill sec line) := by
  unfold State.lakeFill
  repeat' with_reducible
    first
    | assumption | apply State.addFld_kept | apply State.lakeRoom_kept | split | extract_lets
    | (apply Kept.other; first | assumption | apply State.addFld_kept | apply State.lakeRoom_kept | split)

theorem State.secureLogPut_kept {r s : State} (h : Kept r s) (rec : List Byte) : Kept r (s.secureLogPut rec) := by
  unfold State.secureLogPut
  extract_lets st tail head flags full s1 body s2 tail2 s3
  have h1 : Kept r s1 := by
    unfold s1
    split
    · exact State.satFld_kept (State.setFld_kept h _ _ _ _) _ _ _ _
    · exact h
  have h2 : Kept r s2 := State.lakeDemand_kept (h1.setMem fun w => Mem.write_wf w _ _) _ _
  exact Kept.other (State.setFld_kept h2 _ _ _ _)

theorem State.blockedRecord_kept {r s : State} (h : Kept r s) : Kept r (s.blockedRecord) := by
  unfold State.blockedRecord
  repeat' with_reducible first | assumption | apply State.freeVal_kept | apply State.secureLogPut_kept

theorem State.blockAccess_kept {r s : State} (h : Kept r s) : Kept r (s.blockAccess) := by
  unfold State.blockAccess
  repeat' with_reducible first | assumption | apply State.addFld_kept | apply State.blockedRecord_kept

theorem State.countAccess_kept {r s : State} (h : Kept r s) (sec : Bool) (ranges : List (Nat × Nat)) (wr : Bool := false) :
    Kept r (s.countAccess sec ranges wr) := by
  unfold State.countAccess
  repeat' with_reducible
    first
    | assumption | apply State.addFld_kept | apply State.lakeDemand_kept | apply State.blockAccess_kept | split
    | extract_lets | refine Kept.foldl (fun s x h => ?_) ?_ _

theorem State.devRead_kept {r s : State} (h : Kept r s) (sec : Bool) (a n : Nat) : Kept r (s.devRead sec a n).2.2 := by
  unfold State.devRead
  repeat' with_reducible first | assumption | apply State.countAccess_kept

theorem State.devWrite_kept {r s : State} (h : Kept r s) (sec : Bool) (a : Nat) (d : List Byte) :
    Kept r (s.devWrite sec a d) := by
  unfold State.devWrite
  repeat' with_reducible first | assumption | apply State.devPut_kept | apply State.countAccess_kept

end Sys2Proof.Machine
end

