-- ==== Sys2Proof/Laws/KeptEvents.lean ====
section
/-! SUPPORT. What the operations of Machine/Events.lean keep (Laws/Kept.lean). -/

namespace Sys2Proof.Machine

open Sys2Proof

theorem State.hostPump_kept {r s : State} (h : Kept r s) : Kept r (s.hostPump) := by
  unfold State.hostPump
  repeat' with_reducible
    first
    | assumption | split | extract_lets | refine Kept.of_snd (by assumption) ?_
    | refine Kept.of_trd (by assumption) ?_ | refine Kept.of_fst (by assumption) ?_
    | (apply Kept.other; first | assumption | split)

theorem State.hostSend_kept {r s : State} (h : Kept r s) (f : HFlit) : Kept r (s.hostSend f) := by
  unfold State.hostSend
  repeat' with_reducible
    first
    | assumption | apply State.hostPump_kept | extract_lets
    | (apply Kept.other; first | assumption | apply State.hostPump_kept)

theorem State.sendMsg_kept {r s : State} (h : Kept r s) (vector : Nat) : Kept r (s.sendMsg vector) := by
  unfold State.sendMsg
  repeat' with_reducible first | assumption | apply State.hostSend_kept | split

theorem State.ringPut_kept {r s : State} (h : Kept r s) (log : Bool) (rec : List Byte) : Kept r (s.ringPut log rec) := by
  unfold State.ringPut
  repeat' with_reducible
    first
    | assumption | apply State.setFld_kept | apply State.satFld_kept | apply State.devWrite_kept
    | apply State.sendMsg_kept | split | apply Kept.other

theorem drainGo_kept {r s : State} (h : Kept r s) (l : List PendRec) (a b : Bool) : Kept r (drainGo l a b s).2 := by
  induction l generalizing s a b with
  | nil => exact h
  | cons x xs ih =>
    unfold drainGo
    extract_lets ev lg s1 s2 x'
    have h1 : Kept r s1 := by unfold s1; split <;> first | exact State.ringPut_kept h _ _ | exact h
    have h2 : Kept r s2 := by unfold s2; split <;> first | exact State.ringPut_kept h1 _ _ | exact h1
    have h3 := ih h2 ev lg
    revert h3
    cases drainGo xs ev lg s2 with
    | mk rest s3 =>
      intro h3
      dsimp only at h3 ⊢
      split <;> exact h3

theorem State.drainPending_kept {r s : State} (h : Kept r s) : Kept r s.drainPending := by
  unfold State.drainPending
  split
  · exact (drainGo_kept h s.pendRecs true true).other
  · exact h

theorem State.ringLoses_kept {r s : State} (h : Kept r s) (log : Bool) : Kept r (s.ringLoses log) := by
  unfold State.ringLoses
  repeat' with_reducible
    first
    | assumption | apply State.satFld_kept | split
    | (apply Kept.other; first | assumption | apply State.satFld_kept | split)

theorem State.enqueueRecord_kept {r s : State} (h : Kept r s) (rec : List Byte) (ev log : Bool) :
    Kept r (s.enqueueRecord rec ev log) := by
  unfold State.enqueueRecord
  repeat' with_reducible
    first
    | assumption | apply State.drainPending_kept | apply State.ringLoses_kept | split | extract_lets
    | (apply Kept.other; first | assumption | apply State.drainPending_kept | apply State.ringLoses_kept | split)

theorem State.postAs_kept {r s : State} (h0 : Kept r s) (secret : Bool) (h : EventHead) (payload : List (Nat × Nat)) :
    Kept r (s.postAs secret h payload) := by
  unfold State.postAs
  repeat' with_reducible
    first
    | assumption | apply State.secureLogPut_kept | apply State.enqueueRecord_kept | split | extract_lets

theorem State.post_kept {r s : State} (h0 : Kept r s) (h : EventHead) (payload : List (Nat × Nat)) :
    Kept r (s.post h payload) := by
  unfold State.post
  repeat' with_reducible first | assumption | apply State.postAs_kept

theorem State.postFlow_kept {r s : State} (h0 : Kept r s) (f : Nat) (h : EventHead) (payload : List (Nat × Nat)) :
    Kept r (s.postFlow f h payload) := by
  unfold State.postFlow
  repeat' with_reducible first | assumption | apply State.postAs_kept

theorem State.postTrace_kept {r s : State} (h : Kept r s) (t : Nat) : Kept r (s.postTrace t) := by
  unfold State.postTrace
  repeat' with_reducible
    first
    | assumption | apply State.freeVal_kept | apply State.enqueueRecord_kept | split | extract_lets

theorem State.trace_kept {r s : State} (h : Kept r s) : Kept r (s.trace) := by
  unfold State.trace
  repeat' with_reducible
    first
    | assumption | apply State.freeVal_kept | apply State.postTrace_kept | split | extract_lets

theorem State.cqPut_kept {r s : State} (h : Kept r s) (q : Nat) (tag : List Byte) (kind status val : Nat) :
    Kept r (s.cqPut q tag kind status val) := by
  unfold State.cqPut
  repeat' with_reducible
    first
    | assumption | apply State.setFld_kept | apply State.setHq_kept | apply State.devWrite_kept
    | apply State.sendMsg_kept | split | extract_lets | intro _ _ _ | intro _ _ | intro _
    | refine Kept.any ?_ ?_ ?_ ?_ | exact Nat.le_refl _ | exact fun w => Mem.write_wf w _ _ | exact id | rfl

theorem State.cqFlush_kept {r s : State} (h : Kept r s) (q n : Nat) : Kept r (s.cqFlush q n) := by
  induction n generalizing s with
  | zero => exact h
  | succ n ih =>
    unfold State.cqFlush
    repeat' with_reducible
      first | assumption | apply ih | apply State.cqPut_kept | apply State.modHq_kept | split | extract_lets

theorem State.complete_kept {r s : State} (h : Kept r s) (q : Nat) (tag : List Byte) (kind status val : Nat) :
    Kept r (s.complete q tag kind status val) := by
  unfold State.complete
  repeat' with_reducible first | assumption | apply State.modHq_kept | apply State.cqFlush_kept | split

end Sys2Proof.Machine
end

