-- ==== Sys2Proof/Laws/KeptLinks.lean ====
section
/-! SUPPORT. What the operations of Machine/Links.lean keep (Laws/Kept.lean). -/

namespace Sys2Proof.Machine

open Sys2Proof

theorem State.setWave_kept {r s : State} (h : Kept r s) (tx : Bool) (p w v : Nat) : Kept r (s.setWave tx p w v) :=
  h.other

theorem State.counted_kept {r s : State} (h : Kept r s) (p : Nat) (fixed : BitVec 4) : Kept r (s.counted p fixed) := by
  unfold State.counted
  repeat' with_reducible first | assumption | apply State.addFld_kept | split

theorem State.sendLmgt_kept {r s : State} (h : Kept r s) (p kind : Nat) (fields : List Byte) :
    Kept r (s.sendLmgt p kind fields) := by
  unfold State.sendLmgt
  repeat' with_reducible first | assumption | apply State.setPort_kept | split | apply Kept.other

theorem State.sendLcredit_kept {r s : State} (h : Kept r s) (p : Nat) : Kept r (s.sendLcredit p) := by
  unfold State.sendLcredit
  repeat' with_reducible first | assumption | apply State.sendLmgt_kept | split | extract_lets

theorem State.lcreditDue_kept {r s : State} (h : Kept r s) (p : Nat) : Kept r (s.lcreditDue p) := by
  unfold State.lcreditDue
  repeat' with_reducible first | assumption | apply State.sendLcredit_kept | split | apply Kept.other

theorem State.freeRelay_kept {r s : State} (h : Kept r s) (p : Nat) : Kept r (s.freeRelay p) := by
  unfold State.freeRelay
  repeat' with_reducible first | assumption | apply State.modPort_kept | apply State.lcreditDue_kept

theorem State.portPump_kept {r s : State} (h : Kept r s) (p : Nat) : Kept r (s.portPump p) := by
  unfold State.portPump
  repeat' with_reducible
    first
    | assumption | apply State.setPort_kept | apply State.freeRelay_kept | split
    | refine Kept.foldl (fun s x h => ?_) ?_ _

theorem State.sendLnak_kept {r s : State} (h : Kept r s) (p : Nat) : Kept r (s.sendLnak p) := h.other

theorem State.replayFrom_kept {r s : State} (h : Kept r s) (p k : Nat) : Kept r (s.replayFrom p k) := by
  unfold State.replayFrom
  repeat' with_reducible first | assumption | apply State.satFld_kept | apply State.modPort_kept

theorem State.assign_kept {r s : State} (h : Kept r s) (tx : Bool) (p n : Nat) (us : List Nat) :
    Kept r (s.assign tx p n us) := by
  unfold State.assign
  repeat' with_reducible
    first
    | assumption | apply State.setWave_kept | split | refine Kept.foldl (fun s x h => ?_) ?_ _

theorem State.assignTx_kept {r s : State} (h : Kept r s) (p : Nat) : Kept r (s.assignTx p) := by
  unfold State.assignTx
  repeat' with_reducible
    first
    | assumption | apply State.setWave_kept | apply State.assign_kept | split | extract_lets
    | refine Kept.foldl (fun s x h => ?_) ?_ _

theorem State.assignRx_kept {r s : State} (h : Kept r s) (p : Nat) : Kept r (s.assignRx p) := by
  unfold State.assignRx
  repeat' with_reducible first | assumption | apply State.assign_kept | split | extract_lets

theorem State.hostEmit_kept {r s : State} (h : Kept r s) (f : HFlit) : Kept r (s.hostEmit f) := h.other

theorem State.sendHello_kept {r s : State} (h : Kept r s) (p : Nat) : Kept r (s.sendHello p) := by
  unfold State.sendHello
  repeat' with_reducible first | assumption | apply State.sendLmgt_kept | apply State.hostEmit_kept | split

theorem State.postLink_kept {r s : State} (h : Kept r s) (type source : Nat) (fields : List (Nat × Nat)) :
    Kept r (s.postLink type source fields) := by
  unfold State.postLink
  repeat' with_reducible first | assumption | apply State.post_kept | split

theorem State.enterRetrain_kept {r s : State} (h : Kept r s) (p : Nat) : Kept r (s.enterRetrain p) := by
  unfold State.enterRetrain
  repeat' with_reducible
    first
    | assumption | apply State.setFld_kept | apply State.modPort_kept | apply State.assignTx_kept
    | apply State.assignRx_kept | apply State.sendHello_kept | apply State.postLink_kept

theorem State.retrain_kept {r s : State} (h : Kept r s) (p : Nat) : Kept r (s.retrain p) := by
  unfold State.retrain
  repeat' with_reducible
    first
    | assumption | apply State.sendLmgt_kept | apply State.enterRetrain_kept | split | apply Kept.other

theorem State.linkViolation_kept {r s : State} (h : Kept r s) (p c : Nat) : Kept r (s.linkViolation p c) := by
  unfold State.linkViolation
  repeat' with_reducible
    first
    | assumption | apply State.satFld_kept | apply State.modPort_kept | apply State.postLink_kept
    | apply State.retrain_kept | split | extract_lets
    | (apply Kept.other; first | assumption | apply State.satFld_kept | apply State.modPort_kept | apply State.postLink_kept | apply State.retrain_kept | split)

theorem State.linkGood_kept {r s : State} (h : Kept r s) (p : Nat) : Kept r (s.linkGood p) := by
  unfold State.linkGood
  repeat' with_reducible first | assumption | apply State.modPort_kept | split

theorem State.ackOnly_kept {r s : State} (h : Kept r s) (p : Nat) (ack : BitVec 12) : Kept r (s.ackOnly p ack) := by
  unfold State.ackOnly
  repeat' with_reducible
    first
    | assumption | apply State.setPort_kept | apply State.modPort_kept | apply State.linkViolation_kept | split
    | extract_lets

theorem State.takeAck_kept {r s : State} (h : Kept r s) (p : Nat) (ack : BitVec 12) : Kept r (s.takeAck p ack) := by
  unfold State.takeAck
  repeat' with_reducible first | assumption | apply State.portPump_kept | apply State.ackOnly_kept

theorem State.nakAgain_kept {r s : State} (h : Kept r s) (p : Nat) : Kept r (s.nakAgain p) := by
  unfold State.nakAgain
  repeat' with_reducible
    first
    | assumption | apply State.freeVal_kept | apply State.sendLnak_kept | split | extract_lets
    | refine Kept.of_snd (by assumption) ?_ | refine Kept.of_trd (by assumption) ?_
    | refine Kept.of_fst (by assumption) ?_

theorem State.acceptSeq_kept {r s : State} (h : Kept r s) (p : Nat) (f : Flit) : Kept r (s.acceptSeq p f).2 := by
  unfold State.acceptSeq
  repeat' with_reducible
    first
    | assumption | apply State.setPort_kept | apply State.sendLnak_kept | apply State.linkViolation_kept
    | apply State.takeAck_kept | apply State.nakAgain_kept | split | extract_lets
    | (apply Kept.other; first | assumption | apply State.setPort_kept | apply State.sendLnak_kept | apply State.linkViolation_kept | apply State.takeAck_kept | apply State.nakAgain_kept | split)

theorem State.takeCredit_kept {r s : State} (h : Kept r s) (p : Nat) (relay : Bool) : Kept r (s.takeCredit p relay).2 := by
  unfold State.takeCredit
  repeat' with_reducible
    first
    | assumption | apply State.setPort_kept | apply State.sendLcredit_kept | apply State.linkViolation_kept | split
    | extract_lets

theorem State.freeLocal_kept {r s : State} (h : Kept r s) (p : Nat) : Kept r (s.freeLocal p) := by
  unfold State.freeLocal
  repeat' with_reducible first | assumption | apply State.modPort_kept | apply State.lcreditDue_kept

theorem State.injectOn_kept {r0 s : State} (h : Kept r0 s) (r : Nat) (f : Flit) : Kept r0 (s.injectOn r f) := by
  unfold State.injectOn
  repeat' with_reducible
    first
    | assumption | apply State.modPort_kept | apply State.portPump_kept | split | apply Kept.other

theorem State.injectFrame_kept {r s : State} (h : Kept r s) (f : Flit) : Kept r (s.injectFrame f) := by
  unfold State.injectFrame
  repeat' with_reducible first | assumption | apply State.injectOn_kept

theorem State.relayFrame_kept {r s : State} (h : Kept r s) (p : Nat) (f : Flit) : Kept r (s.relayFrame p f) := by
  unfold State.relayFrame
  repeat' with_reducible
    first
    | assumption | apply State.modPort_kept | apply State.freeRelay_kept | apply State.portPump_kept
    | apply State.linkViolation_kept | apply State.linkGood_kept | split | extract_lets
    | (apply Kept.other; first | assumption | apply State.modPort_kept | apply State.freeRelay_kept | apply State.portPump_kept | apply State.linkViolation_kept | apply State.linkGood_kept | split)

end Sys2Proof.Machine
end

