-- ==== Sys2Proof/Laws/KeptFlows.lean ====
section
/-! SUPPORT. What the operations of Machine/Flows.lean keep (Laws/Kept.lean). -/

namespace Sys2Proof.Machine

open Sys2Proof

theorem State.flowInject_kept {r s : State} (h : Kept r s) (f : Nat) (y : Flit) : Kept r (s.flowInject f y) := by
  unfold State.flowInject
  repeat' with_reducible
    first
    | assumption | apply State.injectOn_kept | apply State.injectFrame_kept | split | apply Kept.other

theorem State.flowSendGo_kept {r s : State} (h : Kept r s) (f n : Nat) : Kept r (s.flowSendGo f n) := by
  induction n generalizing s with
  | zero => exact h
  | succ n ih =>
    unfold State.flowSendGo
    repeat' with_reducible
      first
      | assumption | apply ih | apply State.flowInject_kept | apply State.addFld_kept | apply State.setFld_kept | split
      | extract_lets

theorem State.flowPump_kept {r s : State} (h : Kept r s) (f : Nat) : Kept r (s.flowPump f) := by
  unfold State.flowPump
  repeat' with_reducible first | assumption | apply State.setFlow_kept | apply State.flowSendGo_kept | split

theorem State.flowQueue_kept {r s : State} (h : Kept r s) (f : Nat) (ys : List Flit) (owner : Option (Nat × Nat)) :
    Kept r (s.flowQueue f ys owner) := by
  unfold State.flowQueue
  repeat' with_reducible first | assumption | apply State.modFlow_kept | apply State.flowPump_kept

theorem State.sendFack_kept {r s : State} (h : Kept r s) (f : Nat) (probe : Bool) : Kept r (s.sendFack f probe) := by
  unfold State.sendFack
  repeat' with_reducible first | assumption | apply State.modFlow_kept | apply State.injectFrame_kept | split

theorem State.grant_kept {r s : State} (h : Kept r s) (f : Nat) : Kept r (s.grant f) := by
  unfold State.grant
  repeat' with_reducible
    first
    | assumption | apply State.setFld_kept | apply State.sendFack_kept | split | apply Kept.other

theorem State.flowViolation_kept {r s : State} (h : Kept r s) (p : Option Nat) (f c : Nat) :
    Kept r (s.flowViolation p f c) := by
  unfold State.flowViolation
  have h1 : Kept r (match p with | some p => s.linkViolation p c | none => s) := by
    cases p with
    | none => exact h
    | some p => exact State.linkViolation_kept h p c
  extract_lets s1 s2 x run escal s3 s4 hd
  have h3 : Kept r s3 := State.modFlow_kept (State.satFld_kept h1 _ _ _ _) _ _
  split
  · split
    · exact State.postFlow_kept (State.setFld_kept h3 _ _ _ _) _ _ _
    · exact h3
  · exact h1

theorem State.flowGood_kept {r s : State} (h : Kept r s) (p : Option Nat) (f : Nat) : Kept r (s.flowGood p f) := by
  unfold State.flowGood
  have h1 : Kept r (match p with | some p => s.linkGood p | none => s) := by
    cases p with
    | none => exact h
    | some p => exact State.linkGood_kept h p
  extract_lets s1
  split
  · exact h1
  · exact State.modFlow_kept h1 _ _

theorem State.acceptFlit_kept {r s : State} (h : Kept r s) (p : Option Nat) (f : Nat) (y : Flit) :
    Kept r (s.acceptFlit p f y) := by
  unfold State.acceptFlit
  repeat' with_reducible
    first
    | assumption | apply State.setFld_kept | apply State.addFld_kept | apply State.modFlow_kept
    | apply State.grant_kept | apply State.flowGood_kept | split | apply Kept.other

theorem State.takePositioned_kept {r s : State} (h : Kept r s) (p : Option Nat) (f : Nat) (y : Flit) :
    Kept r (s.takePositioned p f y) := by
  unfold State.takePositioned
  repeat' with_reducible
    first
    | assumption | apply State.sendFack_kept | apply State.flowViolation_kept | apply State.acceptFlit_kept | split
    | apply Kept.other

theorem State.takeFack_kept {r s : State} (h : Kept r s) (p : Option Nat) (f : Nat) (y : Flit) : Kept r (s.takeFack p f y) := by
  unfold State.takeFack
  repeat' with_reducible
    first
    | assumption | apply State.setFld_kept | apply State.modFlow_kept | apply State.flowPump_kept
    | apply State.sendFack_kept | apply State.flowViolation_kept | apply State.flowGood_kept | split
    | apply Kept.other

theorem State.deliver_kept {r s : State} (h : Kept r s) (p : Option Nat) (y : Flit) : Kept r (s.deliver p y) := by
  unfold State.deliver
  repeat' with_reducible
    first
    | assumption | apply State.linkViolation_kept | apply State.flowViolation_kept | apply State.takePositioned_kept
    | apply State.takeFack_kept | split | refine Kept.of_snd (by assumption) ?_
    | refine Kept.of_trd (by assumption) ?_ | refine Kept.of_fst (by assumption) ?_ | apply Kept.other

theorem State.frameArrives_kept {r s : State} (h : Kept r s) (p : Nat) (y : Flit) : Kept r (s.frameArrives p y) := by
  unfold State.frameArrives
  repeat' with_reducible
    first
    | assumption | apply State.acceptSeq_kept | apply State.takeCredit_kept | apply State.freeLocal_kept
    | apply State.relayFrame_kept | apply State.deliver_kept | split | refine Kept.of_snd (by assumption) ?_
    | refine Kept.of_trd (by assumption) ?_ | refine Kept.of_fst (by assumption) ?_ | apply Kept.other

theorem State.resend_kept {r s : State} (h : Kept r s) (f : Nat) : Kept r (s.resend f) := by
  unfold State.resend
  repeat' with_reducible
    first
    | assumption | apply State.addFld_kept | apply State.flowInject_kept | split
    | refine Kept.foldl (fun s x h => ?_) ?_ _

theorem State.dropCopy_kept {r s : State} (h : Kept r s) (f : Nat) : Kept r (s.dropCopy f) := by
  unfold State.dropCopy
  repeat' with_reducible first | assumption | apply State.modJob_kept | split

theorem State.openFlow_kept {r s : State} (h : Kept r s) (f job rank pf : Nat) : Kept r (s.openFlow f job rank pf) := by
  unfold State.openFlow
  repeat' with_reducible
    first
    | assumption | apply State.setReg_kept | apply State.setFlow_kept | apply State.dropCopy_kept

theorem State.closeFlow_kept {r s : State} (h : Kept r s) (f : Nat) : Kept r (s.closeFlow f) := by
  unfold State.closeFlow
  repeat' with_reducible
    first
    | assumption | apply State.setFld_kept | apply State.setFlow_kept | apply State.dropCopy_kept

theorem State.shutFlow_kept {r s : State} (h : Kept r s) (f : Nat) : Kept r (s.shutFlow f) := by
  unfold State.shutFlow
  repeat' with_reducible
    first
    | assumption | apply State.setFld_kept | apply State.setFlow_kept | apply State.dropCopy_kept

theorem State.dropMessage_kept {r s : State} (h : Kept r s) (f : Nat) : Kept r (s.dropMessage f) := by
  unfold State.dropMessage
  repeat' with_reducible first | assumption | apply State.modFlow_kept | apply State.grant_kept | split

theorem State.clearRx_kept {r s : State} (h : Kept r s) (f : Nat) : Kept r (s.clearRx f) := by
  unfold State.clearRx
  repeat' with_reducible first | assumption | apply State.modFlow_kept | apply State.grant_kept

theorem State.feed_kept {r s : State} (h : Kept r s) (f : Nat) : Kept r (s.feed f) := by
  unfold State.feed
  repeat' with_reducible first | assumption | apply State.modFlow_kept | apply State.grant_kept

end Sys2Proof.Machine
end

