-- ==== Sys2Proof/Laws/KeptSync.lean ====
section
/-! SUPPORT. What the operations of Machine/Sync.lean keep (Laws/Kept.lean). -/

namespace Sys2Proof.Machine

open Sys2Proof

theorem State.evalObj_kept {r s : State} (h : Kept r s) (n : Nat) : Kept r (s.evalObj n) := h.other

theorem State.counterAdd_kept {r s : State} (h : Kept r s) (n : Nat) (v : Reg) : Kept r (s.counterAdd n v).2 :=
  h.other

theorem State.phaseDone_kept {r s : State} (h : Kept r s) (n : Nat) : Kept r (s.phaseDone n) := h.other

theorem State.sendToken_kept {r0 s : State} (h : Kept r0 s) (n r : Nat) : Kept r0 (s.sendToken n r) := by
  unfold State.sendToken
  repeat' with_reducible first | assumption | apply State.flowQueue_kept | apply State.sense_kept

theorem State.tokenRounds_kept {r s : State} (h : Kept r s) (n fuel : Nat) : Kept r (s.tokenRounds n fuel) := by
  induction fuel generalizing s with
  | zero => exact h
  | succ k ih =>
    unfold State.tokenRounds
    repeat' with_reducible
      first
      | assumption | apply ih | apply State.phaseDone_kept | apply State.sendToken_kept | apply State.modObj_kept
      | apply State.setObj_kept | split | extract_lets

theorem State.arrive_kept {r s : State} (h : Kept r s) (n : Nat) : Kept r (s.arrive n).2 := by
  unfold State.arrive
  repeat' with_reducible
    first
    | assumption | apply State.setObj_kept | apply State.modObj_kept | apply State.phaseDone_kept
    | apply State.sendToken_kept | apply State.tokenRounds_kept | apply State.sense_kept | split | extract_lets
    | intro _ _ _ | intro _ _ | intro _ | refine Kept.any ?_ ?_ ?_ ?_ | exact Nat.le_refl _
    | exact fun w => Mem.write_wf w _ _ | exact id | rfl

theorem State.takeToken_kept {r s : State} (h : Kept r s) (f : Nat) (p : Option Nat) (y : Flit) :
    Kept r (s.takeToken f p y) := by
  unfold State.takeToken
  extract_lets
  split
  · cases p with
    | none => exact h
    | some p => exact State.linkViolation_kept h p 13
  · split
    · exact State.addFld_kept h _ _ _ _
    · split
      · exact State.tokenRounds_kept (State.modObj_kept h _ _) _ _
      · exact h

theorem State.syncRefuse_kept {r0 s : State} (h : Kept r0 s) (r : SyncReach) : Kept r0 (s.syncRefuse r) := by
  unfold State.syncRefuse
  repeat' with_reducible first | assumption | apply State.addFld_kept | apply State.blockAccess_kept | split

theorem State.saveObjs_kept {r s : State} (h : Kept r s) (j : Nat) : Kept r (s.saveObjs j) := h.other

theorem State.restoreObjs_kept {r s : State} (h : Kept r s) (j : Nat) : Kept r (s.restoreObjs j) :=
  h.other

theorem State.cancelWaits_kept {r s : State} (h : Kept r s) (j : Nat) : Kept r (s.cancelWaits j) :=
  h.other

end Sys2Proof.Machine
end

