-- ==== Sys2Proof/Laws/KeptOperands.lean ====
section
/-! SUPPORT. What the operations of Machine/Operands.lean keep (Laws/Kept.lean). -/

namespace Sys2Proof.Machine

open Sys2Proof

theorem State.pondApply_kept {r s : State} (h : Kept r s) (c : Nat) (w : PondWrite) : Kept r (s.pondApply c w) :=
  State.modCore_kept h _ _ fun _ wf => Mem.apply_wf wf _ _

end Sys2Proof.Machine
end

