-- ==== Sys2Proof/Laws/KeptControl.lean ====
section
/-! SUPPORT. What the operations of Machine/Control.lean keep (Laws/Kept.lean). -/

namespace Sys2Proof.Machine

open Sys2Proof

theorem State.dcFetch_kept {r s : State} (h0 : Kept r s) (c q : Nat) (hs : List Nat) (h : Nat) :
    Kept r (s.dcFetch c q hs h) := by
  have hk : r.PondsWf → (s.core c).pond.wf := fun w => h0.ponds w c
  have h1 := State.addFld_kept h0 (sxDcache c) 32 32 1
  have h2 := State.freeVal_kept h1 32
  unfold State.dcFetch
  extract_lets k s1 e loose
  revert h2
  cases s1.freeVal 32 with
  | mk v s2 =>
    intro h2
    dsimp only at h2 ⊢
    split
    · exact State.addFld_kept (State.setCore_kept h0 _ _ (by exact hk)) _ _ _ _
    · split
      · exact State.setCore_kept h1 _ _ (by exact hk)
      · split
        · exact State.setCore_kept h2 _ _ (by exact hk)
        · exact h2

theorem State.enqueue_kept {r s : State} (h : Kept r s) (c : Nat) (cmd : QCmd) : Kept r (s.enqueue c cmd) := by
  unfold State.enqueue
  repeat' with_reducible
    first
    | assumption | apply State.modCore_kept | apply State.dcFetch_kept | exact fun _ w => w
    | exact fun w => h.ponds w _ | (intro _ w; simpa using w) | (intro w; simpa using h.ponds w _)
    | (intro _ w; dsimp only; split <;> simpa using w) | split | extract_lets
    | refine Kept.foldl (fun s x h => ?_) ?_ _

theorem State.latchKill_kept {r s : State} (h : Kept r s) (j kind core flow addr : Nat) :
    Kept r (s.latchKill j kind core flow addr) := by
  unfold State.latchKill
  repeat' with_reducible first | assumption | apply State.modJob_kept | split

theorem State.epochFault_kept {r s : State} (h : Kept r s) (c : Nat) (tag : BitVec 16) : Kept r (s.epochFault c tag) := by
  unfold State.epochFault
  repeat' with_reducible
    first
    | assumption | apply State.setReg_kept | apply State.modCore_kept | apply State.post_kept | exact fun _ w => w
    | exact fun w => h.ponds w _ | (intro _ w; simpa using w) | (intro w; simpa using h.ponds w _)
    | (intro _ w; dsimp only; split <;> simpa using w) | split | extract_lets
    | refine Kept.foldl (fun s x h => ?_) ?_ _ | refine Kept.of_snd (by assumption) ?_
    | refine Kept.of_trd (by assumption) ?_ | refine Kept.of_fst (by assumption) ?_
    | (apply Kept.other; first | assumption | apply State.setReg_kept | apply State.modCore_kept | apply State.post_kept | split | refine Kept.foldl (fun s x h => ?_) ?_ _)

theorem State.issue_kept {r s : State} (h : Kept r s) (c : Nat) (named : Word → Bool) {eff : Core → State}
    (he : ∀ k, (r.PondsWf → k.pond.wf) → Kept r (eff k)) : Kept r (s.issue c named eff) := by
  have hk : r.PondsWf → (s.core c).pond.wf := fun w => h.ponds w c
  unfold State.issue
  repeat' with_reducible first | assumption | apply he | apply State.epochFault_kept | split | extract_lets

theorem State.issueCore_kept {r s : State} (h : Kept r s) (c : Nat) (named : Word → Bool) (f : Core → Core)
    (hf : ∀ k, k.pond.wf → (f k).pond.wf) : Kept r (s.issueCore c named f) :=
  State.issue_kept h _ _ fun k hk => State.setCore_kept h _ _ fun w => by simpa using hf k (hk w)

theorem State.load_kept {r s : State} (h : Kept r s) (c : Nat) (named : Word → Bool) (rd ra : BitVec 5)
    (imm : BitVec 16) (z : Nat) (signed : Bool) : Kept r (s.load c named rd ra imm z signed) := by
  unfold State.load
  refine State.issue_kept h _ _ fun k hk => ?_
  dsimp only
  split
  · exact State.latchKill_kept (State.setCore_kept (State.setReg_kept h _ _) _ _ (by exact hk)) _ _ _ _ _
  · exact State.setCore_kept h _ _ fun w => by simpa using hk w

theorem State.store_kept {r s : State} (h : Kept r s) (c : Nat) (named : Word → Bool) (rd ra : BitVec 5) (imm : BitVec 16) (z : Nat) :
    Kept r (s.store c named rd ra imm z) := by
  unfold State.store
  repeat' with_reducible
    first
    | assumption | apply State.issueCore_kept | exact fun _ w => w | exact fun w => h.ponds w _
    | (intro _ w; simpa using w) | (intro w; simpa using h.ponds w _)
    | (intro w; simpa using (by assumption : State.PondsWf r → Mem.wf (Core.pond _)) w)
    | (intro _ w; dsimp only; split <;> simpa using w) | split | extract_lets

end Sys2Proof.Machine
end

