-- ==== Sys2Proof/Laws/KeptRails.lean ====
section
/-! SUPPORT. What the operations of Machine/Rails.lean keep (Laws/Kept.lean). -/

namespace Sys2Proof.Machine

open Sys2Proof

theorem State.modSpan_kept {r s : State} (h : Kept r s) (n : Nat) (f : ActiveSpan → ActiveSpan) : Kept r (s.modSpan n f) :=
  h.other

theorem State.applyStretch_kept {r s : State} (h : Kept r s) : Kept r (s.applyStretch) := h.other

theorem govUnit_kept {r s : State} (h : Kept r s) (key : Nat) (cores : Nat → Nat) (waking : Bool) (allow l : List Nat) :
    Kept r (govUnit key cores waking allow (s, l)).1 := by
  unfold govUnit
  refine Kept.other ?_
  repeat' with_reducible first | assumption | apply State.addFld_kept | split

theorem State.wake_kept {r s : State} (h : Kept r s) (corner : Nat) : Kept r (s.wake corner) := by
  unfold State.wake
  split
  · exact h
  · exact State.modSpan_kept (govUnit_kept h.other _ _ _ _ _) _ _

end Sys2Proof.Machine
end

