-- ==== Sys2Proof/Laws/KeptSteps.lean ====
section
/-! SUPPORT. What the operations of Machine/Steps.lean keep (Laws/Kept.lean). -/

namespace Sys2Proof.Machine

open Sys2Proof

theorem State.takeShadow_kept {r s : State} (h : Kept r s) (c : Nat) : Kept r (s.takeShadow c) :=
  State.setCore_kept h _ _ fun w => h.ponds w c

theorem State.restoreCore_kept {r s : State} (h : Kept r s) (c : Nat) : Kept r (s.restoreCore c) := by
  unfold State.restoreCore
  refine State.setReg_kept (Kept.foldl (fun _ _ h => State.setReg_kept h _ _)
    (Kept.foldl (fun _ _ h => State.setFld_kept h _ _ _ _) ?_ _) _) _ _
  exact State.setCore_kept h _ _ fun w => h.ponds w c

theorem State.partialWrite_kept {r0 s : State} (h : Kept r0 s) (c : Nat) (r : Run) : Kept r0 (s.partialWrite c r) := by
  unfold State.partialWrite
  repeat' with_reducible
    first
    | assumption | apply State.freeVal_kept | apply State.pondApply_kept | split
    | refine Kept.of_snd (by assumption) ?_ | refine Kept.of_trd (by assumption) ?_
    | refine Kept.of_fst (by assumption) ?_ | apply Kept.other

theorem State.freeBank_kept {r s : State} (h : Kept r s) (b : Bank) (parts : List (Nat × Nat)) :
    Kept r (s.freeBank b parts).2 := by
  unfold State.freeBank
  split
  · exact h
  · exact h.setFree (by omega)

theorem State.stopUnits_kept {r s : State} (h : Kept r s) (c : Nat) : Kept r (s.stopUnits c) := by
  unfold State.stopUnits
  extract_lets k s1 s2
  have h1 : Kept r s1 := State.modCore_kept h _ _ fun _ w => Core.flushStores_wf w
  have h2 : Kept r s2 := Kept.foldl (fun _ _ h => State.partialWrite_kept h _ _) h1 _
  have h3 := State.freeBank_kept h2 k.bank0 (k.writing 0)
  revert h3
  cases s2.freeBank k.bank0 (k.writing 0) with
  | mk b0 s3 =>
    intro h3
    have h4 := State.freeBank_kept h3 k.bank1 (k.writing 1)
    revert h4
    dsimp only
    cases s3.freeBank k.bank1 (k.writing 1) with
    | mk b1 s4 =>
      intro h4
      exact Kept.other (State.modCore_kept h4 _ _ fun _ w => w)

theorem State.stopJob_kept {r s : State} (h : Kept r s) (j : Nat) : Kept r (s.stopJob j) := by
  unfold State.stopJob
  repeat' with_reducible
    first
    | assumption | apply State.modJob_kept | apply State.stopUnits_kept | split
    | refine Kept.foldl (fun s x h => ?_) ?_ _ | apply Kept.other

theorem State.stopToRepeat_kept {r s : State} (h : Kept r s) (j : Nat) : Kept r (s.stopToRepeat j) := by
  unfold State.stopToRepeat
  repeat' with_reducible
    first
    | assumption | apply State.wake_kept | apply State.stopJob_kept | refine Kept.foldl (fun s x h => ?_) ?_ _

theorem State.sendMarkers_kept {r s : State} (h : Kept r s) (j blame attempt : Nat) :
    Kept r (s.sendMarkers j blame attempt) := by
  unfold State.sendMarkers
  repeat' with_reducible
    first
    | assumption | apply State.flowQueue_kept | split | refine Kept.foldl (fun s x h => ?_) ?_ _

theorem State.purgeFlows_kept {r s : State} (h : Kept r s) (j : Nat) : Kept r (s.purgeFlows j) := by
  unfold State.purgeFlows
  repeat' with_reducible
    first
    | assumption | apply State.modFlow_kept | apply State.clearRx_kept | split | extract_lets
    | refine Kept.foldl (fun s x h => ?_) ?_ _

theorem State.restoreJob_kept {r s : State} (h : Kept r s) (j : Nat) : Kept r (s.restoreJob j) := by
  unfold State.restoreJob
  repeat' with_reducible
    first
    | assumption | apply State.modCore_kept | apply State.restoreObjs_kept | apply State.cancelWaits_kept
    | apply State.restoreCore_kept | apply State.restoreSeqs_kept | exact fun _ w => w | exact fun w => h.ponds w _
    | (intro _ w; simpa using w) | (intro w; simpa using h.ponds w _)
    | (intro _ w; dsimp only; split <;> simpa using w) | extract_lets | refine Kept.foldl (fun s x h => ?_) ?_ _

theorem State.addHold_kept {r s : State} (h0 : Kept r s) (j : Nat) (h : Hold) : Kept r (s.addHold j h) :=
  h0.other

theorem State.resumeJob_kept {r s : State} (h : Kept r s) (j : Nat) : Kept r (s.resumeJob j) := by
  unfold State.resumeJob
  refine Kept.foldl (fun s a h => ?_) h _
  refine State.modSpan_kept (Kept.foldl (fun s c h => State.modCore_kept h _ _ fun k w => ?_) h _) _ _
  split <;> simpa using w

theorem State.dropHold_kept {r s : State} (h0 : Kept r s) (j : Nat) (h : Hold) : Kept r (s.dropHold j h) := by
  unfold State.dropHold
  repeat' with_reducible
    first
    | assumption | apply State.modJob_kept | apply State.addHold_kept | apply State.resumeJob_kept | split
    | extract_lets

theorem State.setParked_kept {r s : State} (h : Kept r s) (j blame : Nat) : Kept r (s.setParked j blame) := by
  unfold State.setParked
  repeat' with_reducible first | assumption | apply State.setFld_kept

theorem State.orphan_kept {r s : State} (h : Kept r s) (j : Nat) : Kept r (s.orphan j) := by
  unfold State.orphan
  repeat' with_reducible first | assumption | apply State.modJob_kept | apply State.post_kept | apply State.addHold_kept

theorem State.stand_kept {r s : State} (h : Kept r s) (j : Nat) : Kept r (s.stand j) := by
  unfold State.stand
  repeat' with_reducible
    first
    | assumption | apply State.modCore_kept | exact fun _ w => w | exact fun w => h.ponds w _
    | (intro _ w; simpa using w) | (intro w; simpa using h.ponds w _)
    | (intro _ w; dsimp only; split <;> simpa using w) | refine Kept.foldl (fun s x h => ?_) ?_ _

theorem State.park_kept {r s : State} (h : Kept r s) (j blame step : Nat) : Kept r (s.park j blame step) := by
  unfold State.park
  repeat' with_reducible
    first
    | assumption | apply State.post_kept | apply State.addHold_kept | apply State.setParked_kept
    | apply State.orphan_kept | apply State.stand_kept | split | extract_lets

theorem State.endPark_kept {r s : State} (h : Kept r s) (j : Nat) : Kept r (s.endPark j) := by
  unfold State.endPark
  repeat' with_reducible
    first
    | assumption | apply State.setFld_kept | apply State.modFlow_kept | extract_lets
    | refine Kept.foldl (fun s x h => ?_) ?_ _

theorem State.unpark_kept {r s : State} (h : Kept r s) (j : Nat) : Kept r (s.unpark j) := by
  unfold State.unpark
  repeat' with_reducible first | assumption | apply State.modJob_kept | apply State.endPark_kept

theorem State.abortJob_kept {r s : State} (h : Kept r s) (j blame : Nat) (marker : Option Nat) :
    Kept r (s.abortJob j blame marker) := by
  unfold State.abortJob
  repeat' with_reducible
    first
    | assumption | apply State.setFld_kept | apply State.modJob_kept | apply State.post_kept
    | apply State.stopToRepeat_kept | apply State.sendMarkers_kept | apply State.purgeFlows_kept
    | apply State.restoreJob_kept | apply State.stand_kept | apply State.park_kept | split | extract_lets

theorem State.parkExchange_kept {r s : State} (h : Kept r s) (j blame : Nat) : Kept r (s.parkExchange j blame) := by
  unfold State.parkExchange
  repeat' with_reducible
    first
    | assumption | apply State.stopToRepeat_kept | apply State.restoreJob_kept | apply State.park_kept

theorem State.actMarker_kept {r s : State} (h : Kept r s) (f : Nat) (m : HeldMarker) : Kept r (s.actMarker f m) := by
  unfold State.actMarker
  repeat' with_reducible
    first
    | assumption | apply State.modFlow_kept | apply State.grant_kept | apply State.abortJob_kept | split
    | extract_lets

theorem State.takeMarker_kept {r s : State} (h : Kept r s) (f step attempt : Nat) : Kept r (s.takeMarker f step attempt) := by
  unfold State.takeMarker
  repeat' with_reducible
    first
    | assumption | apply State.modFlow_kept | apply State.actMarker_kept | split | extract_lets

theorem State.actHeld_kept {r s : State} (h : Kept r s) (f : Nat) (m : HeldMarker) : Kept r (s.actHeld f m) := by
  unfold State.actHeld
  repeat' with_reducible first | assumption | apply State.grant_kept | apply State.actMarker_kept | split

theorem State.enterStep_kept {r s : State} (h : Kept r s) (j : Nat) : Kept r (s.enterStep j) := by
  unfold State.enterStep
  repeat' with_reducible
    first
    | assumption | apply State.modFlow_kept | apply State.abortJob_kept | apply State.actHeld_kept | split
    | extract_lets | refine Kept.foldl (fun s x h => ?_) ?_ _
    | (apply Kept.other; first | assumption | apply State.modFlow_kept | apply State.abortJob_kept | apply State.actHeld_kept | split | refine Kept.foldl (fun s x h => ?_) ?_ _)

theorem State.settleGo_kept {r s : State} (h : Kept r s) (n : Nat) : Kept r (s.settleGo n) := by
  induction n generalizing s with
  | zero => exact h
  | succ n ih =>
    unfold State.settleGo
    repeat' with_reducible
      first
      | assumption | apply ih | apply State.takeMarker_kept | apply State.takeToken_kept | apply State.deliver_kept
      | apply State.feed_kept | split | extract_lets | apply Kept.other

theorem State.settle_kept {r s : State} (h : Kept r s) : Kept r (s.settle) := by
  unfold State.settle
  repeat' with_reducible first | assumption | apply State.settleGo_kept | split

theorem done_kept {r s : State} (h : Kept r s) : KeptOut r (done s) := by
  unfold done
  repeat' with_reducible first | apply KeptOut.next | assumption | apply State.settle_kept

theorem State.endSpan_kept {r s : State} (h : Kept r s) (a : ActiveSpan) (status val : Nat) :
    Kept r (s.endSpan a status val) := by
  unfold State.endSpan
  repeat' with_reducible
    first
    | assumption | apply State.modCore_kept | apply State.complete_kept | exact fun _ w => w
    | exact fun w => h.ponds w _ | (intro _ w; simpa using w) | (intro w; simpa using h.ponds w _)
    | (intro _ w; dsimp only; split <;> simpa using w) | extract_lets | refine Kept.foldl (fun s x h => ?_) ?_ _
    | (apply Kept.other; first | assumption | apply State.modCore_kept | apply State.complete_kept | refine Kept.foldl (fun s x h => ?_) ?_ _)

theorem State.ckShow_kept {r s : State} (h : Kept r s) (j : Nat) : Kept r (s.ckShow j) := h.other

theorem State.ckFail_kept {r s : State} (h : Kept r s) (j result : Nat) : Kept r (s.ckFail j result) := by
  unfold State.ckFail
  repeat' with_reducible
    first
    | assumption | apply State.setFld_kept | apply State.modJob_kept | apply State.post_kept | apply State.ckShow_kept

theorem State.killJob_kept {r s : State} (h : Kept r s) (j kind : Nat) (core : Option Nat) (flow addr : Nat) :
    Kept r (s.killJob j kind core flow addr) := by
  unfold State.killJob
  extract_lets step cores spans s1 s2 s3 s4 suspects s5 hq s6 s7 s8
  have h1 : Kept r s1 := State.cancelWaits_kept (State.stopJob_kept h _) _
  have h2 : Kept r s2 := by
    refine Kept.foldl (fun _ _ h => ?_) h1 _
    exact State.modCore_kept h _ _ fun _ w => w
  have h3 : Kept r s3 := Kept.foldl (fun _ _ h => State.shutFlow_kept h _) h2 _
  have h6 : Kept r s6 := State.post_kept (State.modJob_kept (State.setParked_kept h3 _ _) _ _) _ _
  have h7 : Kept r s7 := by
    unfold s7
    split
    · exact State.ckFail_kept h6 _ _
    · exact State.ckShow_kept (State.modJob_kept h6 _ _) _
    · exact h6
  exact Kept.foldl (fun _ _ h => State.endSpan_kept h _ _ _) (State.modJob_kept h7 _ _) _

end Sys2Proof.Machine
end

