-- ==== Sys2Proof/Laws/KeptIsa.lean ====
section
/-! SUPPORT. What the operations of Machine/Isa.lean keep (Laws/Kept.lean). -/

namespace Sys2Proof.Machine

open Sys2Proof

theorem execNop_kept {r s : State} (h : Kept r s) (c : Nat) : KeptOut r (execNop c s) := by
  unfold execNop
  repeat' with_reducible
    first
    | apply KeptOut.next | assumption | apply State.issueCore_kept | exact fun _ w => w | exact fun w => h.ponds w _
    | (intro _ w; simpa using w) | (intro w; simpa using h.ponds w _)
    | (intro w; simpa using (by assumption : State.PondsWf r → Mem.wf (Core.pond _)) w)

theorem execAlu_kept {r s : State} (h : Kept r s) (c : Nat) (rd ra rb : BitVec 5) (func : BitVec 11) :
    KeptOut r (execAlu c rd ra rb func s) := by
  unfold execAlu
  repeat' with_reducible
    first
    | apply KeptOut.next | assumption | apply State.issueCore_kept | exact fun _ w => w | exact fun w => h.ponds w _
    | (intro _ w; simpa using w) | (intro w; simpa using h.ponds w _)
    | (intro w; simpa using (by assumption : State.PondsWf r → Mem.wf (Core.pond _)) w)

theorem execAddi_kept {r s : State} (h : Kept r s) (c : Nat) (rd ra : BitVec 5) (imm : BitVec 16) :
    KeptOut r (execAddi c rd ra imm s) := by
  unfold execAddi
  repeat' with_reducible
    first
    | apply KeptOut.next | assumption | apply State.issueCore_kept | exact fun _ w => w | exact fun w => h.ponds w _
    | (intro _ w; simpa using w) | (intro w; simpa using h.ponds w _)
    | (intro w; simpa using (by assumption : State.PondsWf r → Mem.wf (Core.pond _)) w)

theorem execAndi_kept {r s : State} (h : Kept r s) (c : Nat) (rd ra : BitVec 5) (imm : BitVec 16) :
    KeptOut r (execAndi c rd ra imm s) := by
  unfold execAndi
  repeat' with_reducible
    first
    | apply KeptOut.next | assumption | apply State.issueCore_kept | exact fun _ w => w | exact fun w => h.ponds w _
    | (intro _ w; simpa using w) | (intro w; simpa using h.ponds w _)
    | (intro w; simpa using (by assumption : State.PondsWf r → Mem.wf (Core.pond _)) w)

theorem execOri_kept {r s : State} (h : Kept r s) (c : Nat) (rd ra : BitVec 5) (imm : BitVec 16) :
    KeptOut r (execOri c rd ra imm s) := by
  unfold execOri
  repeat' with_reducible
    first
    | apply KeptOut.next | assumption | apply State.issueCore_kept | exact fun _ w => w | exact fun w => h.ponds w _
    | (intro _ w; simpa using w) | (intro w; simpa using h.ponds w _)
    | (intro w; simpa using (by assumption : State.PondsWf r → Mem.wf (Core.pond _)) w)

theorem execXori_kept {r s : State} (h : Kept r s) (c : Nat) (rd ra : BitVec 5) (imm : BitVec 16) :
    KeptOut r (execXori c rd ra imm s) := by
  unfold execXori
  repeat' with_reducible
    first
    | apply KeptOut.next | assumption | apply State.issueCore_kept | exact fun _ w => w | exact fun w => h.ponds w _
    | (intro _ w; simpa using w) | (intro w; simpa using h.ponds w _)
    | (intro w; simpa using (by assumption : State.PondsWf r → Mem.wf (Core.pond _)) w)

theorem execShli_kept {r s : State} (h : Kept r s) (c : Nat) (rd ra : BitVec 5) (imm : BitVec 16) :
    KeptOut r (execShli c rd ra imm s) := by
  unfold execShli
  repeat' with_reducible
    first
    | apply KeptOut.next | assumption | apply State.issueCore_kept | exact fun _ w => w | exact fun w => h.ponds w _
    | (intro _ w; simpa using w) | (intro w; simpa using h.ponds w _)
    | (intro w; simpa using (by assumption : State.PondsWf r → Mem.wf (Core.pond _)) w)

theorem execShri_kept {r s : State} (h : Kept r s) (c : Nat) (rd ra : BitVec 5) (imm : BitVec 16) :
    KeptOut r (execShri c rd ra imm s) := by
  unfold execShri
  repeat' with_reducible
    first
    | apply KeptOut.next | assumption | apply State.issueCore_kept | exact fun _ w => w | exact fun w => h.ponds w _
    | (intro _ w; simpa using w) | (intro w; simpa using h.ponds w _)
    | (intro w; simpa using (by assumption : State.PondsWf r → Mem.wf (Core.pond _)) w)

theorem execSari_kept {r s : State} (h : Kept r s) (c : Nat) (rd ra : BitVec 5) (imm : BitVec 16) :
    KeptOut r (execSari c rd ra imm s) := by
  unfold execSari
  repeat' with_reducible
    first
    | apply KeptOut.next | assumption | apply State.issueCore_kept | exact fun _ w => w | exact fun w => h.ponds w _
    | (intro _ w; simpa using w) | (intro w; simpa using h.ponds w _)
    | (intro w; simpa using (by assumption : State.PondsWf r → Mem.wf (Core.pond _)) w)

theorem execMuli_kept {r s : State} (h : Kept r s) (c : Nat) (rd ra : BitVec 5) (imm : BitVec 16) :
    KeptOut r (execMuli c rd ra imm s) := by
  unfold execMuli
  repeat' with_reducible
    first
    | apply KeptOut.next | assumption | apply State.issueCore_kept | exact fun _ w => w | exact fun w => h.ponds w _
    | (intro _ w; simpa using w) | (intro w; simpa using h.ponds w _)
    | (intro w; simpa using (by assumption : State.PondsWf r → Mem.wf (Core.pond _)) w)

theorem execLui_kept {r s : State} (h : Kept r s) (c : Nat) (rd : BitVec 5) (imm : BitVec 16) :
    KeptOut r (execLui c rd imm s) := by
  unfold execLui
  repeat' with_reducible
    first
    | apply KeptOut.next | assumption | apply State.issueCore_kept | exact fun _ w => w | exact fun w => h.ponds w _
    | (intro _ w; simpa using w) | (intro w; simpa using h.ponds w _)
    | (intro w; simpa using (by assumption : State.PondsWf r → Mem.wf (Core.pond _)) w)

theorem execShori_kept {r s : State} (h : Kept r s) (c : Nat) (rd ra : BitVec 5) (imm : BitVec 16) :
    KeptOut r (execShori c rd ra imm s) := by
  unfold execShori
  repeat' with_reducible
    first
    | apply KeptOut.next | assumption | apply State.issueCore_kept | exact fun _ w => w | exact fun w => h.ponds w _
    | (intro _ w; simpa using w) | (intro w; simpa using h.ponds w _)
    | (intro w; simpa using (by assumption : State.PondsWf r → Mem.wf (Core.pond _)) w)

theorem execCmp_kept {r s : State} (h : Kept r s) (c : Nat) (rd ra rb : BitVec 5) (func : BitVec 11) :
    KeptOut r (execCmp c rd ra rb func s) := by
  unfold execCmp
  repeat' with_reducible
    first
    | apply KeptOut.next | assumption | apply State.issueCore_kept | exact fun _ w => w | exact fun w => h.ponds w _
    | (intro _ w; simpa using w) | (intro w; simpa using h.ponds w _)
    | (intro w; simpa using (by assumption : State.PondsWf r → Mem.wf (Core.pond _)) w)

theorem execCmpi_kept {r s : State} (h : Kept r s) (c : Nat) (pd : BitVec 3) (cond : BitVec 2) (ra : BitVec 5) (imm : BitVec 16) :
    KeptOut r (execCmpi c pd cond ra imm s) := by
  unfold execCmpi
  repeat' with_reducible
    first
    | apply KeptOut.next | assumption | apply State.issueCore_kept | exact fun _ w => w | exact fun w => h.ponds w _
    | (intro _ w; simpa using w) | (intro w; simpa using h.ponds w _)
    | (intro w; simpa using (by assumption : State.PondsWf r → Mem.wf (Core.pond _)) w)

theorem execPlog_kept {r s : State} (h : Kept r s) (c : Nat) (rd ra rb : BitVec 5) (func : BitVec 11) :
    KeptOut r (execPlog c rd ra rb func s) := by
  unfold execPlog
  repeat' with_reducible
    first
    | apply KeptOut.next | assumption | apply State.issueCore_kept | exact fun _ w => w | exact fun w => h.ponds w _
    | (intro _ w; simpa using w) | (intro w; simpa using h.ponds w _)
    | (intro w; simpa using (by assumption : State.PondsWf r → Mem.wf (Core.pond _)) w)

theorem execMfs_kept {r s : State} (h : Kept r s) (c : Nat) (rd : BitVec 5) (imm : BitVec 16) :
    KeptOut r (execMfs c rd imm s) := by
  unfold execMfs
  repeat' with_reducible
    first
    | apply KeptOut.next | assumption | apply State.issueCore_kept | exact fun _ w => w | exact fun w => h.ponds w _
    | (intro _ w; simpa using w) | (intro w; simpa using h.ponds w _)
    | (intro w; simpa using (by assumption : State.PondsWf r → Mem.wf (Core.pond _)) w)

theorem execMts_kept {r s : State} (h : Kept r s) (c : Nat) (ra : BitVec 5) (imm : BitVec 16) :
    KeptOut r (execMts c ra imm s) := by
  unfold execMts
  repeat' with_reducible
    first
    | apply KeptOut.next | assumption | apply State.issueCore_kept | apply State.setWidth_kept | exact fun _ w => w
    | exact fun w => h.ponds w _ | (intro _ w; simpa using w) | (intro w; simpa using h.ponds w _)
    | (intro w; simpa using (by assumption : State.PondsWf r → Mem.wf (Core.pond _)) w)
    | (intro _ w; dsimp only; split <;> simpa using w) | split | extract_lets

theorem execLd8_kept {r s : State} (h : Kept r s) (c : Nat) (rd ra : BitVec 5) (imm : BitVec 16) :
    KeptOut r (execLd8 c rd ra imm s) := by
  unfold execLd8
  repeat' with_reducible first | apply KeptOut.next | assumption | apply State.load_kept

theorem execLd16_kept {r s : State} (h : Kept r s) (c : Nat) (rd ra : BitVec 5) (imm : BitVec 16) :
    KeptOut r (execLd16 c rd ra imm s) := by
  unfold execLd16
  repeat' with_reducible first | apply KeptOut.next | assumption | apply State.load_kept

theorem execLd32_kept {r s : State} (h : Kept r s) (c : Nat) (rd ra : BitVec 5) (imm : BitVec 16) :
    KeptOut r (execLd32 c rd ra imm s) := by
  unfold execLd32
  repeat' with_reducible first | apply KeptOut.next | assumption | apply State.load_kept

theorem execLd64_kept {r s : State} (h : Kept r s) (c : Nat) (rd ra : BitVec 5) (imm : BitVec 16) :
    KeptOut r (execLd64 c rd ra imm s) := by
  unfold execLd64
  repeat' with_reducible first | apply KeptOut.next | assumption | apply State.load_kept

theorem execLds8_kept {r s : State} (h : Kept r s) (c : Nat) (rd ra : BitVec 5) (imm : BitVec 16) :
    KeptOut r (execLds8 c rd ra imm s) := by
  unfold execLds8
  repeat' with_reducible first | apply KeptOut.next | assumption | apply State.load_kept

theorem execLds16_kept {r s : State} (h : Kept r s) (c : Nat) (rd ra : BitVec 5) (imm : BitVec 16) :
    KeptOut r (execLds16 c rd ra imm s) := by
  unfold execLds16
  repeat' with_reducible first | apply KeptOut.next | assumption | apply State.load_kept

theorem execLds32_kept {r s : State} (h : Kept r s) (c : Nat) (rd ra : BitVec 5) (imm : BitVec 16) :
    KeptOut r (execLds32 c rd ra imm s) := by
  unfold execLds32
  repeat' with_reducible first | apply KeptOut.next | assumption | apply State.load_kept

theorem execSt8_kept {r s : State} (h : Kept r s) (c : Nat) (rd ra : BitVec 5) (imm : BitVec 16) :
    KeptOut r (execSt8 c rd ra imm s) := by
  unfold execSt8
  repeat' with_reducible first | apply KeptOut.next | assumption | apply State.store_kept

theorem execSt16_kept {r s : State} (h : Kept r s) (c : Nat) (rd ra : BitVec 5) (imm : BitVec 16) :
    KeptOut r (execSt16 c rd ra imm s) := by
  unfold execSt16
  repeat' with_reducible first | apply KeptOut.next | assumption | apply State.store_kept

theorem execSt32_kept {r s : State} (h : Kept r s) (c : Nat) (rd ra : BitVec 5) (imm : BitVec 16) :
    KeptOut r (execSt32 c rd ra imm s) := by
  unfold execSt32
  repeat' with_reducible first | apply KeptOut.next | assumption | apply State.store_kept

theorem execSt64_kept {r s : State} (h : Kept r s) (c : Nat) (rd ra : BitVec 5) (imm : BitVec 16) :
    KeptOut r (execSt64 c rd ra imm s) := by
  unfold execSt64
  repeat' with_reducible first | apply KeptOut.next | assumption | apply State.store_kept

theorem execBr_kept {r s : State} (h : Kept r s) (c : Nat) (l n : Bool) (p : BitVec 3) (off : BitVec 21) :
    KeptOut r (execBr c l n p off s) := by
  unfold execBr
  repeat' with_reducible
    first
    | apply KeptOut.next | assumption | apply State.setCore_kept | apply State.issue_kept | exact fun _ w => w
    | exact fun w => h.ponds w _ | (intro _ w; simpa using w) | (intro w; simpa using h.ponds w _)
    | (intro w; simpa using (by assumption : State.PondsWf r → Mem.wf (Core.pond _)) w)
    | (intro _ w; dsimp only; split <;> simpa using w) | split | extract_lets | intro _ _ _ | intro _ _ | intro _

theorem execJr_kept {r s : State} (h : Kept r s) (c : Nat) (rd ra : BitVec 5) : KeptOut r (execJr c rd ra s) := by
  unfold execJr
  repeat' with_reducible
    first
    | apply KeptOut.next | assumption | apply State.setCore_kept | apply State.issue_kept | exact fun _ w => w
    | exact fun w => h.ponds w _ | (intro _ w; simpa using w) | (intro w; simpa using h.ponds w _)
    | (intro w; simpa using (by assumption : State.PondsWf r → Mem.wf (Core.pond _)) w)
    | (intro _ w; dsimp only; split <;> simpa using w) | intro _ _ _ | intro _ _ | intro _

theorem execLoop_kept {r s : State} (h : Kept r s) (c : Nat) (n : BitVec 2) (isImm : Bool) (len : BitVec 11) (count : BitVec 12) :
    KeptOut r (execLoop c n isImm len count s) := by
  unfold execLoop
  repeat' with_reducible
    first
    | apply KeptOut.next | assumption | apply State.setCore_kept | apply State.issue_kept | apply State.setWidth_kept
    | exact fun _ w => w | exact fun w => h.ponds w _ | (intro _ w; simpa using w)
    | (intro w; simpa using h.ponds w _)
    | (intro w; simpa using (by assumption : State.PondsWf r → Mem.wf (Core.pond _)) w)
    | (intro _ w; dsimp only; split <;> simpa using w) | split | extract_lets | intro _ _ _ | intro _ _ | intro _

theorem execCset_kept {r s : State} (h : Kept r s) (c : Nat) (rd ra lsb : BitVec 5) (func : BitVec 11) :
    KeptOut r (execCset c rd ra lsb func s) := by
  unfold execCset
  repeat' with_reducible
    first
    | apply KeptOut.next | assumption | apply State.issueCore_kept | exact fun _ w => w | exact fun w => h.ponds w _
    | (intro _ w; simpa using w) | (intro w; simpa using h.ponds w _)
    | (intro w; simpa using (by assumption : State.PondsWf r → Mem.wf (Core.pond _)) w)

theorem execCseti_kept {r s : State} (h : Kept r s) (c : Nat) (rd : BitVec 5) (imm : BitVec 16) :
    KeptOut r (execCseti c rd imm s) := by
  unfold execCseti
  repeat' with_reducible
    first
    | apply KeptOut.next | assumption | apply State.issueCore_kept | exact fun _ w => w | exact fun w => h.ponds w _
    | (intro _ w; simpa using w) | (intro w; simpa using h.ponds w _)
    | (intro w; simpa using (by assumption : State.PondsWf r → Mem.wf (Core.pond _)) w)

theorem execPush_kept {r s : State} (h : Kept r s) (c : Nat) (ra : BitVec 5) : KeptOut r (execPush c ra s) := by
  unfold execPush
  repeat' with_reducible
    first
    | apply KeptOut.next | assumption | apply State.setCore_kept | apply State.modCore_kept | apply State.enqueue_kept
    | apply State.issue_kept | exact fun _ w => w | exact fun w => h.ponds w _ | (intro _ w; simpa using w)
    | (intro w; simpa using h.ponds w _)
    | (intro w; simpa using (by assumption : State.PondsWf r → Mem.wf (Core.pond _)) w)
    | (intro _ w; dsimp only; split <;> simpa using w) | split | extract_lets | intro _ _ _ | intro _ _ | intro _

theorem State.placeWaits_kept {r s : State} (h : Kept r s) (c : Nat) (es : List Nat) (stamp : Word) (room : Nat → Bool) :
    Kept r (s.placeWaits c es stamp room) := by
  unfold State.placeWaits
  repeat' with_reducible
    first
    | assumption | apply State.modCore_kept | apply State.enqueue_kept | exact fun _ w => w
    | exact fun w => h.ponds w _ | (intro _ w; simpa using w) | (intro w; simpa using h.ponds w _)
    | (intro _ w; dsimp only; split <;> simpa using w) | split | extract_lets
    | refine Kept.foldl (fun s x h => ?_) ?_ _

theorem execPushStallEnd_kept {r s : State} (h : Kept r s) (c : Nat) : KeptOut r (execPushStallEnd c s) := by
  unfold execPushStallEnd
  repeat' with_reducible
    first
    | apply KeptOut.next | assumption | apply State.modCore_kept | apply State.enqueue_kept
    | apply State.placeWaits_kept | exact fun _ w => w | exact fun w => h.ponds w _ | (intro _ w; simpa using w)
    | (intro w; simpa using h.ponds w _) | split

theorem execQlvl_kept {r s : State} (h : Kept r s) (c : Nat) (rd : BitVec 5) (e : BitVec 2) :
    KeptOut r (execQlvl c rd e s) := by
  unfold execQlvl
  repeat' with_reducible
    first
    | apply KeptOut.next | assumption | apply State.issueCore_kept | exact fun _ w => w | exact fun w => h.ponds w _
    | (intro _ w; simpa using w) | (intro w; simpa using h.ponds w _)
    | (intro w; simpa using (by assumption : State.PondsWf r → Mem.wf (Core.pond _)) w)

theorem execQdue_kept {r s : State} (h : Kept r s) (c : Nat) (ra : BitVec 5) (e : BitVec 2) :
    KeptOut r (execQdue c ra e s) := by
  unfold execQdue
  repeat' with_reducible
    first
    | apply KeptOut.next | assumption | apply State.issueCore_kept | apply State.setWidth_kept | exact fun _ w => w
    | exact fun w => h.ponds w _ | (intro _ w; simpa using w) | (intro w; simpa using h.ponds w _)
    | (intro w; simpa using (by assumption : State.PondsWf r → Mem.wf (Core.pond _)) w)

theorem execFset_kept {r s : State} (h : Kept r s) (c : Nat) (ra : BitVec 5) (imm : BitVec 14) :
    KeptOut r (execFset c ra imm s) := by
  unfold execFset
  repeat' with_reducible
    first
    | apply KeptOut.next | assumption | apply State.issueCore_kept | exact fun _ w => w | exact fun w => h.ponds w _
    | (intro _ w; simpa using w) | (intro w; simpa using h.ponds w _)
    | (intro w; simpa using (by assumption : State.PondsWf r → Mem.wf (Core.pond _)) w)

theorem execFclr_kept {r s : State} (h : Kept r s) (c : Nat) (ra : BitVec 5) (imm : BitVec 14) :
    KeptOut r (execFclr c ra imm s) := by
  unfold execFclr
  repeat' with_reducible
    first
    | apply KeptOut.next | assumption | apply State.issueCore_kept | exact fun _ w => w | exact fun w => h.ponds w _
    | (intro _ w; simpa using w) | (intro w; simpa using h.ponds w _)
    | (intro w; simpa using (by assumption : State.PondsWf r → Mem.wf (Core.pond _)) w)

theorem execFtst_kept {r s : State} (h : Kept r s) (c : Nat) (rd ra : BitVec 5) (imm : BitVec 14) :
    KeptOut r (execFtst c rd ra imm s) := by
  unfold execFtst
  repeat' with_reducible
    first
    | apply KeptOut.next | assumption | apply State.issueCore_kept | exact fun _ w => w | exact fun w => h.ponds w _
    | (intro _ w; simpa using w) | (intro w; simpa using h.ponds w _)
    | (intro w; simpa using (by assumption : State.PondsWf r → Mem.wf (Core.pond _)) w)

theorem execFwait_kept {r s : State} (h : Kept r s) (c : Nat) (rd ra : BitVec 5) (imm : BitVec 14) :
    KeptOut r (execFwait c rd ra imm s) := by
  unfold execFwait
  repeat' with_reducible
    first
    | apply KeptOut.next | assumption | apply State.issueCore_kept | exact fun _ w => w | exact fun w => h.ponds w _
    | (intro _ w; simpa using w) | (intro w; simpa using h.ponds w _)
    | (intro w; simpa using (by assumption : State.PondsWf r → Mem.wf (Core.pond _)) w)
    | (intro _ w; dsimp only; split <;> simpa using w) | split | extract_lets

theorem execFwaitRelease_kept {r s : State} (h : Kept r s) (c : Nat) : KeptOut r (execFwaitRelease c s) := by
  unfold execFwaitRelease
  repeat' with_reducible
    first
    | apply KeptOut.next | assumption | apply State.modCore_kept | exact fun _ w => w | exact fun w => h.ponds w _
    | (intro _ w; simpa using w) | (intro w; simpa using h.ponds w _) | split

theorem execCtradd_kept {r s : State} (h : Kept r s) (c : Nat) (rd ra rb : BitVec 5) (func : BitVec 11) :
    KeptOut r (execCtradd c rd ra rb func s) := by
  unfold execCtradd
  repeat' with_reducible
    first
    | apply KeptOut.next | assumption | apply State.setCore_kept | apply State.counterAdd_kept
    | apply State.syncRefuse_kept | apply State.issue_kept | exact fun _ w => w | exact fun w => h.ponds w _
    | (intro _ w; simpa using w) | (intro w; simpa using h.ponds w _)
    | (intro w; simpa using (by assumption : State.PondsWf r → Mem.wf (Core.pond _)) w)
    | (intro _ w; dsimp only; split <;> simpa using w) | split | extract_lets | intro _ _ _ | intro _ _ | intro _

theorem execCtraddReply_kept {r s : State} (h : Kept r s) (c : Nat) : KeptOut r (execCtraddReply c s) := by
  unfold execCtraddReply
  repeat' with_reducible
    first
    | apply KeptOut.next | assumption | apply State.modCore_kept | exact fun _ w => w | exact fun w => h.ponds w _
    | (intro _ w; simpa using w) | (intro w; simpa using h.ponds w _) | split

theorem State.waitAt_kept {r s : State} (h : Kept r s) (c : Nat) (w : Waiter) : Kept r (s.waitAt c w) :=
  h.other

theorem execCtrwait_kept {r s : State} (h : Kept r s) (c : Nat) (rd ra rb : BitVec 5) (func : BitVec 11) :
    KeptOut r (execCtrwait c rd ra rb func s) := by
  unfold execCtrwait
  apply KeptOut.next
  refine State.issue_kept h _ _ fun k hk => ?_
  dsimp only
  split
  · exact State.setCore_kept h _ _ fun w => by simpa using hk w
  · exact State.setCore_kept (State.waitAt_kept (State.syncRefuse_kept h _) _ _) _ _ fun w => by simpa using hk w

theorem State.releaseWait_kept {r s : State} (h : Kept r s) (c : Nat) (rd : BitVec 5) : Kept r (s.releaseWait c rd) := by
  unfold State.releaseWait
  repeat' with_reducible
    first
    | assumption | apply State.modCore_kept | exact fun _ w => w | exact fun w => h.ponds w _
    | (intro _ w; simpa using w) | (intro w; simpa using h.ponds w _)
    | (intro _ w; dsimp only; split <;> simpa using w) | split
    | (apply Kept.other; first | assumption | apply State.modCore_kept | split)

theorem execCtrwaitRelease_kept {r s : State} (h : Kept r s) (c : Nat) : KeptOut r (execCtrwaitRelease c s) := by
  unfold execCtrwaitRelease
  repeat' with_reducible first | apply KeptOut.next | assumption | apply State.releaseWait_kept | split

theorem execSlarr_kept {r s : State} (h : Kept r s) (c : Nat) (rd ra : BitVec 5) (func : BitVec 11) :
    KeptOut r (execSlarr c rd ra func s) := by
  unfold execSlarr
  repeat' with_reducible
    first
    | apply KeptOut.next | assumption | apply State.setCore_kept | apply State.arrive_kept
    | apply State.syncRefuse_kept | apply State.issue_kept | apply done_kept | exact fun _ w => w
    | exact fun w => h.ponds w _ | (intro _ w; simpa using w) | (intro w; simpa using h.ponds w _)
    | (intro w; simpa using (by assumption : State.PondsWf r → Mem.wf (Core.pond _)) w)
    | (intro _ w; dsimp only; split <;> simpa using w) | split | extract_lets | intro _ _ _ | intro _ _ | intro _

theorem execSlwait_kept {r s : State} (h : Kept r s) (c : Nat) (rd ra rb : BitVec 5) (func : BitVec 11) :
    KeptOut r (execSlwait c rd ra rb func s) := by
  unfold execSlwait
  apply KeptOut.next
  refine State.issue_kept h _ _ fun k hk => ?_
  dsimp only
  split
  · exact State.setCore_kept h _ _ fun w => by simpa using hk w
  · exact State.setCore_kept (State.waitAt_kept (State.syncRefuse_kept h _) _ _) _ _ fun w => by simpa using hk w

theorem execSlwaitRelease_kept {r s : State} (h : Kept r s) (c : Nat) : KeptOut r (execSlwaitRelease c s) := by
  unfold execSlwaitRelease
  repeat' with_reducible first | apply KeptOut.next | assumption | apply State.releaseWait_kept | split

theorem execEvt_kept {r s : State} (h : Kept r s) (c : Nat) (ra : BitVec 5) (imm : BitVec 14) :
    KeptOut r (execEvt c ra imm s) := by
  unfold execEvt
  repeat' with_reducible
    first
    | apply KeptOut.next | assumption | apply State.setCore_kept | apply State.post_kept | apply State.issue_kept
    | exact fun _ w => w | exact fun w => h.ponds w _ | (intro _ w; simpa using w)
    | (intro w; simpa using h.ponds w _)
    | (intro w; simpa using (by assumption : State.PondsWf r → Mem.wf (Core.pond _)) w)
    | (intro _ w; dsimp only; split <;> simpa using w) | intro _ _ _ | intro _ _ | intro _

theorem execStep_kept {r s : State} (h : Kept r s) (c : Nat) : KeptOut r (execStep c s) := by
  unfold execStep
  repeat' with_reducible
    first
    | apply KeptOut.next | assumption | apply State.setCore_kept | apply State.issue_kept
    | apply State.placeWaits_kept | apply State.setWidth_kept | exact fun _ w => w | exact fun w => h.ponds w _
    | (intro _ w; simpa using w) | (intro w; simpa using h.ponds w _)
    | (intro w; simpa using (by assumption : State.PondsWf r → Mem.wf (Core.pond _)) w)
    | (intro _ w; dsimp only; split <;> simpa using w) | intro _ _ _ | intro _ _ | intro _

theorem execHalt_kept {r s : State} (h : Kept r s) (c : Nat) : KeptOut r (execHalt c s) := by
  unfold execHalt
  repeat' with_reducible
    first
    | apply KeptOut.next | assumption | apply State.setCore_kept | apply State.issue_kept | exact fun _ w => w
    | exact fun w => h.ponds w _ | (intro _ w; simpa using w) | (intro w; simpa using h.ponds w _)
    | (intro w; simpa using (by assumption : State.PondsWf r → Mem.wf (Core.pond _)) w)
    | (intro _ w; dsimp only; split <;> simpa using w) | intro _ _ _ | intro _ _ | intro _

theorem execUnassignedOpcode_kept {r s : State} (h : Kept r s) (c : Nat) (w : BitVec 32) :
    KeptOut r (execUnassignedOpcode c w s) := by
  unfold execUnassignedOpcode
  repeat' with_reducible
    first
    | apply KeptOut.next | assumption | apply State.addFld_kept | apply State.setCore_kept | apply State.issue_kept
    | exact fun _ w => w | exact fun w => h.ponds w _ | (intro _ w; simpa using w)
    | (intro w; simpa using h.ponds w _)
    | (intro w; simpa using (by assumption : State.PondsWf r → Mem.wf (Core.pond _)) w)
    | (intro _ w; dsimp only; split <;> simpa using w) | intro _ _ _ | intro _ _ | intro _

end Sys2Proof.Machine
end

