-- ==== Sys2Proof/Laws/KeptSilicon.lean ====
section
/-! SUPPORT. What the operations of Machine/Silicon.lean keep (Laws/Kept.lean). -/

namespace Sys2Proof.Machine

open Sys2Proof

theorem State.setSil_kept {r s : State} (h : Kept r s) (p k : Nat) (v : Reg) : Kept r (s.setSil p k v) :=
  h.other

theorem State.satSil_kept {r s : State} (h : Kept r s) (p k lo w : Nat) : Kept r (s.satSil p k lo w) :=
  h.other

theorem State.makeSuspect_kept {r s : State} (h : Kept r s) (p reason : Nat) : Kept r (s.makeSuspect p reason) := by
  unfold State.makeSuspect
  repeat' with_reducible first | assumption | apply State.setSil_kept | split | apply Kept.other

theorem State.residue_kept {r s : State} (h : Kept r s) (c code place : Nat) : Kept r (s.residue c code place) := by
  unfold State.residue
  repeat' with_reducible
    first
    | assumption | apply State.post_kept | apply State.setSil_kept | apply State.satSil_kept
    | apply State.makeSuspect_kept

end Sys2Proof.Machine
end

