-- ==== Sys2Proof/Laws/KeptPersist.lean ====
section
/-! SUPPORT. What the operations of Machine/Persist.lean keep (Laws/Kept.lean). -/

namespace Sys2Proof.Machine

open Sys2Proof

theorem State.keeperStep_kept {r s : State} (h : Kept r s) : Kept r s.keeperStep := by
  unfold State.keeperStep
  split
  · exact h
  · rename_i w rest _
    extract_lets f s1
    have h1 : Kept r s1 := h.other
    clear_value f s1
    cases w with
    | infieldId p => exact h1.setFuses rfl
    | infieldValid p => exact h1.setFuses rfl
    | historyBody ids => exact h1.other
    | historyCrc => exact h1.other
    | savedBody a => exact (State.setFld_kept h1 _ _ _ _).other
    | savedCrc => exact (State.setFld_kept h1 _ _ _ _).other
    | rollback n => exact h1.any rfl (Nat.le_refl _) id

theorem State.keeperWrites_kept {r s : State} (h : Kept r s) : Kept r (s.keeperWrites) := by
  unfold State.keeperWrites
  repeat' with_reducible
    first
    | assumption | apply State.freeVal_kept | apply State.keeperStep_kept | split | extract_lets
    | refine Kept.of_snd (by assumption) ?_ | refine Kept.of_trd (by assumption) ?_
    | refine Kept.of_fst (by assumption) ?_

theorem State.addWrites_kept {r s : State} (h : Kept r s) (ws : List KeeperWrite) : Kept r (s.addWrites ws) :=
  h.other

end Sys2Proof.Machine
end

