-- ==== Sys2Proof/Laws/KeptEngines.lean ====
section
/-! SUPPORT. What the operations of Machine/Engines.lean keep (Laws/Kept.lean). -/

namespace Sys2Proof.Machine

open Sys2Proof

theorem State.takeHead_kept {r s : State} (h : Kept r s) (c e : Nat) : Kept r (s.takeHead c e) := by
  have h1 (q e x) : Kept r (s.setCore c (((s.core c).setQueue e q).takeDue e x)) :=
    State.setCore_kept h _ _ fun w => by simpa using h.ponds w c
  unfold State.takeHead
  dsimp only
  split
  · exact h
  · split
    · exact State.addFld_kept (h1 _ _ _) _ _ _ _
    · exact h1 _ _ _

theorem State.start_kept {r s : State} (h : Kept r s) (c e code : Nat) (sub : List Word → Bool)
    {eff : List Word → State → State} (he : ∀ ws t, Kept r t → Kept r (eff ws t)) : Kept r (s.start c e code sub eff) := by
  unfold State.start
  repeat' with_reducible first | assumption | apply he | apply State.takeHead_kept | split

theorem State.unpin_kept {r s : State} (h : Kept r s) (c : Nat) (ws : List Word) : Kept r (s.unpin c ws) := by
  unfold State.unpin
  repeat' with_reducible
    first
    | assumption | apply State.modCore_kept | exact fun _ w => w | exact fun w => h.ponds w _
    | (intro _ w; simpa using w) | (intro w; simpa using h.ponds w _)

theorem State.pondRecord_kept {r s : State} (h : Kept r s) (c a : Nat) (d : List Byte) : Kept r (s.pondRecord c a d) :=
  State.modCore_kept h _ _ fun _ w => Mem.write_wf w _ _

theorem State.consume_kept {r s : State} (h : Kept r s) (c : Nat) (kind addr : Nat) : Kept r (s.consume c kind addr) := by
  unfold State.consume
  repeat' with_reducible first | assumption | apply State.latchKill_kept

theorem State.readKill_kept {r s : State} (h : Kept r s) (c : Nat) (d : Desc) (bad : Bool) : Kept r (s.readKill c d bad) := by
  unfold State.readKill
  repeat' with_reducible first | assumption | apply State.consume_kept | apply State.kill_kept | split

theorem execIdle_kept {r s : State} (h : Kept r s) (c e : Nat) : KeptOut r (execIdle c e s) := by
  unfold execIdle
  repeat' with_reducible
    first
    | apply KeptOut.next | assumption | apply State.modCore_kept | apply State.start_kept | exact fun _ w => w
    | exact fun w => h.ponds w _ | (intro _ w; simpa using w) | (intro w; simpa using h.ponds w _)
    | (intro _ w; dsimp only; split <;> simpa using w) | split | extract_lets | intro _ _ _ | intro _ _ | intro _

theorem execIdleComplete_kept {r s : State} (h : Kept r s) (c e : Nat) : KeptOut r (execIdleComplete c e s) := by
  unfold execIdleComplete
  dsimp only
  repeat' with_reducible split
  all_goals first | exact h | exact State.setCore_kept h _ _ fun w => by simpa using h.ponds w c

theorem State.rsvOverflow_kept {r s : State} (h : Kept r s) (c f : Nat) : Kept r (s.rsvOverflow c f) := by
  unfold State.rsvOverflow
  dsimp only
  repeat' with_reducible split
  all_goals first | exact h | exact State.post_kept (State.setCore_kept h _ _ fun w => (by exact h.ponds w c)) _ _

theorem execFreezeRaise_kept {r s : State} (h : Kept r s) (c : Nat) : KeptOut r (execFreezeRaise c s) := by
  unfold execFreezeRaise
  repeat' with_reducible
    first
    | apply KeptOut.next | assumption | apply State.modSpan_kept | apply State.rsvOverflow_kept | split | extract_lets

theorem execFreezeEffect_kept {r s : State} (h : Kept r s) (c : Nat) : KeptOut r (execFreezeEffect c s) := by
  unfold execFreezeEffect
  repeat' with_reducible first | apply KeptOut.next | assumption | apply State.modSpan_kept | split

theorem execStepArrival_kept {r s : State} (h : Kept r s) (c : Nat) : KeptOut r (execStepArrival c s) := by
  unfold execStepArrival
  dsimp only
  repeat' with_reducible split
  all_goals first | exact h | exact State.modSpan_kept (State.setCore_kept h _ _ fun w => (by exact h.ponds w c)) _ _

theorem State.fetchDesc_kept {r s : State} (h0 : Kept r s) (q h : Nat) : Kept r (s.fetchDesc q h).2.2 := by
  unfold State.fetchDesc
  repeat' with_reducible first | assumption | apply State.devRead_kept

end Sys2Proof.Machine
end

