-- ==== Sys2Proof/Laws/KeptTiles.lean ====
section
/-! SUPPORT. What the operations of Machine/Tiles.lean keep (Laws/Kept.lean). -/

namespace Sys2Proof.Machine

open Sys2Proof

theorem readPieces_kept {piece : State → Run → Nat → State × Run} (hp : ∀ r' s x u, Kept r' s → Kept r' (piece s x u).1)
    {r s : State} (h : Kept r s) (x : Run) (n : Nat) : Kept r (readPieces piece s x n).1 := by
  unfold readPieces
  extract_lets y
  suffices ∀ (l : List Nat) (z : State × Run), Kept r z.1 → Kept r (l.foldl (fun x u => piece x.1 x.2 u) z).1 from this _ _ h
  intro l
  induction l with
  | nil => exact fun _ hz => hz
  | cons u us ih => exact fun z hz => ih _ (hp _ _ _ _ hz)

theorem State.readRuns_kept {piece : State → Run → Nat → State × Run} (hp : ∀ r' s x u, Kept r' s → Kept r' (piece s x u).1)
    {r s : State} (h : Kept r s) (cyc : Reg) (rs : List Run) : Kept r (s.readRuns cyc piece rs).1 := by
  unfold State.readRuns
  suffices ∀ (l : List Run) (z : State × List Run), Kept r z.1 → Kept r (l.foldl (fun x r =>
      let y := readPieces piece x.1 r (r.readBy cyc)
      (y.1, x.2 ++ [y.2])) z).1 from this _ _ h
  intro l
  induction l with
  | nil => exact fun _ hz => hz
  | cons u us ih => exact fun z hz => ih _ (readPieces_kept hp hz _ _)

theorem State.addCounts_kept {r s : State} (h : Kept r s) (base : Nat) (n : Counts) : Kept r (s.addCounts base n) :=
  h.other

end Sys2Proof.Machine
end

