-- ==== Sys2Proof/Laws/KeptMatrix.lean ====
section
/-! SUPPORT. What the operations of Machine/Matrix.lean keep (Laws/Kept.lean). -/

namespace Sys2Proof.Machine

open Sys2Proof

theorem State.passOn_kept {r s : State} (h : Kept r s) (c seq : Nat) (pa pb : List Piece) (last : Bool) :
    Kept r (s.passOn c seq pa pb last) := by
  unfold State.passOn
  repeat' with_reducible first | assumption | apply State.feed_kept | apply State.modSpan_kept | split | extract_lets

theorem State.mmaPiece_kept {r0 s : State} (h : Kept r0 s) (c : Nat) (r : Run) (i : Nat) : Kept r0 (s.mmaPiece c r i).1 := by
  unfold State.mmaPiece
  repeat' with_reducible
    first
    | assumption | apply State.modCore_kept | apply State.readKill_kept | apply State.passOn_kept | exact fun _ w => w
    | exact fun w => h.ponds w _ | (intro _ w; simpa using w) | (intro w; simpa using h.ponds w _) | split
    | extract_lets

theorem State.arrayAdvance_kept {r s : State} (h : Kept r s) (c : Nat) : Kept r (s.arrayAdvance c) := by
  unfold State.arrayAdvance
  split
  · exact h
  · exact State.modCore_kept (State.readRuns_kept (fun _ _ _ _ h => State.mmaPiece_kept h _ _ _) h _ _) _ _ fun _ w => w

theorem State.mmaStart_kept {r s : State} (h : Kept r s) (c : Nat) (ws : List Word) (mis : Option Mismatch) :
    Kept r (s.mmaStart c ws mis) := by
  unfold State.mmaStart
  generalize s.local c = ij
  obtain ⟨i, j⟩ := ij
  generalize mmaTurns ws = tt
  obtain ⟨ta, tb⟩ := tt
  extract_lets k n bn old bank bank2 src run srcc seq
  simp -zeta only
  split
  · exact State.setCore_kept h _ _ (by simpa [srcc] using fun w => h.ponds w c)
  · generalize s.mmaWaves c seq = ww
    obtain ⟨wa, wb⟩ := ww
    simp -zeta only
    extract_lets a b p occ run2 s1 s2 s3
    have h1 : Kept r s1 := State.modCore_kept h _ _ fun k w => by simpa using w
    have h2 : Kept r s2 := by
      unfold s2
      clear_value s1
      split
      · exact h1
      · exact State.modSpan_kept h1 _ _
    have h3 : Kept r s3 := State.arrayAdvance_kept h2 _
    clear_value s3
    split
    · exact State.residue_kept h3 _ _ _
    · exact h3

theorem execMma_kept {r s : State} (h : Kept r s) (c : Nat) (mis : Option Mismatch) : KeptOut r (execMma c mis s) := by
  unfold execMma
  repeat' with_reducible
    first
    | apply KeptOut.next | assumption | apply State.start_kept | apply State.mmaStart_kept | intro _ _ _ | intro _ _
    | intro _

theorem execMmaComplete_kept {r s : State} (h : Kept r s) (c : Nat) : KeptOut r (execMmaComplete c s) := by
  unfold execMmaComplete
  repeat' with_reducible
    first
    | apply KeptOut.next | assumption | apply State.modCore_kept | apply State.unpin_kept
    | apply State.arrayAdvance_kept | exact fun _ w => w | exact fun w => h.ponds w _ | (intro _ w; simpa using w)
    | (intro w; simpa using h.ponds w _) | split | extract_lets

theorem State.readBank_kept {r s : State} (h : Kept r s) (c n : Nat) : Kept r (s.readBank c n).2 := by
  unfold State.readBank
  repeat' with_reducible first | assumption | apply State.freeBank_kept

theorem State.pathRun_kept {r0 s : State} (h : Kept r0 s) (c : Nat) (r : Run) (occ comp : Nat) :
    Kept r0 (s.pathRun c r occ comp) := by
  unfold State.pathRun
  repeat' with_reducible
    first
    | assumption | apply State.modCore_kept | exact fun _ w => w | exact fun w => h.ponds w _
    | (intro _ w; simpa using w) | (intro w; simpa using h.ponds w _)

theorem State.pathIdle_kept {r s : State} (h : Kept r s) (c : Nat) (ws : List Word) : Kept r (s.pathIdle c ws) := by
  unfold State.pathIdle
  repeat' with_reducible first | assumption | apply State.pathRun_kept

theorem State.drainRow_kept {r0 s : State} (h : Kept r0 s) (c : Nat) (r : Run) (i : Nat) : Kept r0 (s.drainRow c r i).1 := by
  unfold State.drainRow
  repeat' with_reducible
    first
    | assumption | apply State.modSpan_kept | apply State.readKill_kept | apply State.readBank_kept | split
    | extract_lets | refine Kept.foldl (fun s x h => ?_) ?_ _ | refine Kept.of_snd (by assumption) ?_
    | refine Kept.of_trd (by assumption) ?_ | refine Kept.of_fst (by assumption) ?_
    | (apply Kept.other; first | assumption | apply State.modSpan_kept | apply State.readKill_kept | apply State.readBank_kept | split | refine Kept.foldl (fun s x h => ?_) ?_ _)

theorem State.wstoreRow_kept {r0 s : State} (h : Kept r0 s) (c : Nat) (r : Run) (i : Nat) : Kept r0 (s.wstoreRow c r i).1 := by
  unfold State.wstoreRow
  repeat' with_reducible first | assumption | apply State.readBank_kept

theorem State.pathPiece_kept {r0 s : State} (h : Kept r0 s) (c : Nat) (r : Run) (i : Nat) : Kept r0 (s.pathPiece c r i).1 := by
  unfold State.pathPiece
  repeat' with_reducible first | assumption | apply State.drainRow_kept | apply State.wstoreRow_kept | split

theorem State.pathAdvance_kept {r s : State} (h : Kept r s) (c : Nat) : Kept r (s.pathAdvance c) := by
  unfold State.pathAdvance
  split
  · exact h
  · exact State.modCore_kept (State.readRuns_kept (fun _ _ _ _ h => State.pathPiece_kept h _ _ _) h _ _) _ _ fun _ w => w

theorem State.drainStart_kept {r s : State} (h : Kept r s) (c : Nat) (ws : List Word) : Kept r (s.drainStart c ws) := by
  unfold State.drainStart
  repeat' with_reducible
    first
    | assumption | apply State.pathRun_kept | apply State.pathIdle_kept | apply State.pathAdvance_kept | split
    | extract_lets

theorem execDrain_kept {r s : State} (h : Kept r s) (c : Nat) : KeptOut r (execDrain c s) := by
  unfold execDrain
  repeat' with_reducible
    first
    | apply KeptOut.next | assumption | apply State.start_kept | apply State.drainStart_kept | intro _ _ _ | intro _ _
    | intro _

theorem State.pathDone_kept {r0 s : State} (h : Kept r0 s) (c : Nat) (r : Run) (w : PondWrite) (cn : Counts) :
    Kept r0 (s.pathDone c r w cn) := by
  unfold State.pathDone
  repeat' with_reducible
    first
    | assumption | apply State.modCore_kept | apply State.pondApply_kept | apply State.modSpan_kept
    | apply State.unpin_kept | apply State.addCounts_kept | exact fun _ w => w | exact fun w => h.ponds w _
    | (intro _ w; simpa using w) | (intro w; simpa using h.ponds w _) | split | extract_lets

theorem execDrainComplete_kept {r s : State} (h : Kept r s) (c : Nat) : KeptOut r (execDrainComplete c s) := by
  unfold execDrainComplete
  repeat' with_reducible
    first
    | apply KeptOut.next | assumption | apply State.pathAdvance_kept | apply State.pathDone_kept | split
    | extract_lets

theorem State.writeDrain_kept {r s : State} (h : Kept r s) (x : DrainSum) : Kept r (s.writeDrain x) := by
  unfold State.writeDrain
  repeat' with_reducible
    first
    | assumption | apply State.pondRecord_kept | split | refine Kept.foldl (fun s x h => ?_) ?_ _

theorem execDrainRecordComplete_kept {r s : State} (h : Kept r s) (c : Nat) : KeptOut r (execDrainRecordComplete c s) := by
  unfold execDrainRecordComplete
  repeat' with_reducible
    first
    | apply KeptOut.next | assumption | apply State.modSpan_kept | apply State.writeDrain_kept | split

theorem State.wstoreStart_kept {r s : State} (h : Kept r s) (c : Nat) (ws : List Word) : Kept r (s.wstoreStart c ws) := by
  unfold State.wstoreStart
  repeat' with_reducible
    first
    | assumption | apply State.pathRun_kept | apply State.pathIdle_kept | apply State.pathAdvance_kept | split
    | extract_lets

theorem execWstore_kept {r s : State} (h : Kept r s) (c : Nat) : KeptOut r (execWstore c s) := by
  unfold execWstore
  repeat' with_reducible
    first
    | apply KeptOut.next | assumption | apply State.start_kept | apply State.wstoreStart_kept | intro _ _ _
    | intro _ _ | intro _

theorem execWstoreComplete_kept {r s : State} (h : Kept r s) (c : Nat) : KeptOut r (execWstoreComplete c s) := by
  unfold execWstoreComplete
  repeat' with_reducible
    first
    | apply KeptOut.next | assumption | apply State.pathAdvance_kept | apply State.pathDone_kept | split
    | extract_lets

theorem State.wloadStart_kept {r s : State} (h : Kept r s) (c : Nat) (ws : List Word) (mis : Option Mismatch) :
    Kept r (s.wloadStart c ws mis) := by
  unfold State.wloadStart
  repeat' with_reducible
    first
    | assumption | apply State.modCore_kept | apply State.load_kept | apply State.freeBank_kept
    | apply State.residue_kept | apply State.readKill_kept | apply State.pathRun_kept | apply State.pathIdle_kept
    | exact fun _ w => w | exact fun w => h.ponds w _ | (intro _ w; simpa using w)
    | (intro w; simpa using h.ponds w _) | split | extract_lets

theorem execWload_kept {r s : State} (h : Kept r s) (c : Nat) (mis : Option Mismatch) : KeptOut r (execWload c mis s) := by
  unfold execWload
  repeat' with_reducible
    first
    | apply KeptOut.next | assumption | apply State.start_kept | apply State.wloadStart_kept | intro _ _ _ | intro _ _
    | intro _

theorem execWloadComplete_kept {r s : State} (h : Kept r s) (c : Nat) : KeptOut r (execWloadComplete c s) := by
  unfold execWloadComplete
  repeat' with_reducible
    first
    | apply KeptOut.next | assumption | apply State.modCore_kept | apply State.unpin_kept | exact fun _ w => w
    | exact fun w => h.ponds w _ | (intro _ w; simpa using w) | (intro w; simpa using h.ponds w _) | split
    | extract_lets

end Sys2Proof.Machine
end

