-- ==== Sys2Proof/Laws/KeptVector.lean ====
section
/-! SUPPORT. What the operations of Machine/Vector.lean keep (Laws/Kept.lean). -/

namespace Sys2Proof.Machine

open Sys2Proof

theorem State.vecRun_kept {r0 s : State} (h : Kept r0 s) (c : Nat) (r : Run) (occ comp : Nat) :
    Kept r0 (s.vecRun c r occ comp) := by
  unfold State.vecRun
  repeat' with_reducible
    first
    | assumption | apply State.modCore_kept | apply State.start_kept | exact fun _ w => w | exact fun w => h.ponds w _
    | (intro _ w; simpa using w) | (intro w; simpa using h.ponds w _)

theorem State.vecIdle_kept {r s : State} (h : Kept r s) (c : Nat) (ws : List Word) : Kept r (s.vecIdle c ws) := by
  unfold State.vecIdle
  repeat' with_reducible first | assumption | apply State.vecRun_kept

theorem State.readKillH_kept {r s : State} (h0 : Kept r s) (c h : Nat) (bad : Bool) : Kept r (s.readKillH c h bad) := by
  unfold State.readKillH
  repeat' with_reducible first | assumption | apply State.readKill_kept | split

theorem State.vopGroup_kept {r0 s : State} (h : Kept r0 s) (c : Nat) (r : Run) (u : Nat) : Kept r0 (s.vopGroup c r u).1 := by
  unfold State.vopGroup
  repeat' with_reducible first | assumption | apply State.readKillH_kept

theorem State.vopStart_kept {r s : State} (h : Kept r s) (c : Nat) (ws : List Word) : Kept r (s.vopStart c ws) := by
  unfold State.vopStart
  repeat' with_reducible first | assumption | apply State.vecRun_kept | apply State.vecIdle_kept | split | extract_lets

theorem State.vredPiece_kept {r0 s : State} (h : Kept r0 s) (c : Nat) (r : Run) (u : Nat) : Kept r0 (s.vredPiece c r u).1 := by
  unfold State.vredPiece
  repeat' with_reducible first | assumption | apply State.readKill_kept | split | extract_lets

theorem State.vredStart_kept {r s : State} (h : Kept r s) (c : Nat) (ws : List Word) : Kept r (s.vredStart c ws) := by
  unfold State.vredStart
  repeat' with_reducible first | assumption | apply State.vecRun_kept | apply State.vecIdle_kept | split | extract_lets

theorem State.fillGroup_kept {r0 s : State} (h : Kept r0 s) (c : Nat) (r : Run) (u : Nat) : Kept r0 (s.fillGroup c r u).1 := by
  unfold State.fillGroup
  repeat' with_reducible first | assumption | split | extract_lets

theorem State.rngFillStart_kept {r s : State} (h : Kept r s) (c : Nat) (ws : List Word) : Kept r (s.rngFillStart c ws) := by
  unfold State.rngFillStart
  repeat' with_reducible first | assumption | apply State.vecRun_kept | apply State.vecIdle_kept | split | extract_lets

theorem State.updGroup_kept {r0 s : State} (h : Kept r0 s) (c : Nat) (r : Run) (u : Nat) : Kept r0 (s.updGroup c r u).1 := by
  unfold State.updGroup
  repeat' with_reducible
    first
    | assumption | apply State.addFld_kept | apply State.readKill_kept | split | extract_lets
    | refine Kept.foldl (fun s x h => ?_) ?_ _

theorem State.updStart_kept {r s : State} (h : Kept r s) (c : Nat) (ws : List Word) : Kept r (s.updStart c ws) := by
  unfold State.updStart
  repeat' with_reducible first | assumption | apply State.vecRun_kept | apply State.vecIdle_kept | split | extract_lets

theorem State.vecPiece_kept {r0 s : State} (h : Kept r0 s) (c : Nat) (r : Run) (u : Nat) : Kept r0 (s.vecPiece c r u).1 := by
  unfold State.vecPiece
  repeat' with_reducible
    first
    | assumption | apply State.vopGroup_kept | apply State.vredPiece_kept | apply State.fillGroup_kept
    | apply State.updGroup_kept | split

theorem State.vecWrite_kept {r s : State} (h : Kept r s) (c : Nat) : Kept r (s.vecWrite c) := by
  unfold State.vecWrite
  repeat' with_reducible
    first
    | assumption | apply State.modCore_kept | apply State.pondApply_kept | exact fun _ w => w
    | exact fun w => h.ponds w _ | (intro _ w; simpa using w) | (intro w; simpa using h.ponds w _)
    | (intro _ w; dsimp only; split <;> simpa using w) | extract_lets | refine Kept.foldl (fun s x h => ?_) ?_ _

theorem State.vecAdvance_kept {r s : State} (h : Kept r s) (c : Nat) : Kept r (s.vecAdvance c) := by
  unfold State.vecAdvance
  split
  · exact h
  · extract_lets s1
    have h1 : Kept r s1 := State.vecWrite_kept h _
    clear_value s1
    have h2 := State.readRuns_kept (piece := State.vecPiece c) (fun _ _ _ _ h => State.vecPiece_kept h _ _ _) h1 (s1.core c).cyc (s1.core c).vec.runs
    revert h2
    generalize s1.readRuns (s1.core c).cyc (State.vecPiece c) (s1.core c).vec.runs = x
    obtain ⟨s2, rs⟩ := x
    intro h2
    have h3 : Kept r (s2.modCore c fun k => { k with vec := { k.vec with runs := rs } }) := State.modCore_kept h2 _ _ fun _ w => w
    exact State.vecWrite_kept h3 _

theorem State.vecDone_kept {r s : State} (h : Kept r s) (c code : Nat) : Kept r (s.vecDone c code) := by
  unfold State.vecDone
  repeat' with_reducible
    first
    | assumption | apply State.modCore_kept | apply State.unpin_kept | apply State.addCounts_kept
    | apply State.vecAdvance_kept | exact fun _ w => w | exact fun w => h.ponds w _ | (intro _ w; simpa using w)
    | (intro w; simpa using h.ponds w _) | split | extract_lets

theorem execVop_kept {r s : State} (h : Kept r s) (c : Nat) : KeptOut r (execVop c s) := by
  unfold execVop
  repeat' with_reducible
    first
    | apply KeptOut.next | assumption | apply State.start_kept | apply State.vopStart_kept
    | apply State.vecAdvance_kept | intro _ _ _ | intro _ _ | intro _

theorem execVopComplete_kept {r s : State} (h : Kept r s) (c : Nat) : KeptOut r (execVopComplete c s) := by
  unfold execVopComplete
  repeat' with_reducible first | apply KeptOut.next | assumption | apply State.vecDone_kept

theorem execVred_kept {r s : State} (h : Kept r s) (c : Nat) : KeptOut r (execVred c s) := by
  unfold execVred
  repeat' with_reducible
    first
    | apply KeptOut.next | assumption | apply State.start_kept | apply State.vredStart_kept
    | apply State.vecAdvance_kept | intro _ _ _ | intro _ _ | intro _

theorem execVredComplete_kept {r s : State} (h : Kept r s) (c : Nat) : KeptOut r (execVredComplete c s) := by
  unfold execVredComplete
  repeat' with_reducible first | apply KeptOut.next | assumption | apply State.vecDone_kept

theorem execRngFill_kept {r s : State} (h : Kept r s) (c : Nat) : KeptOut r (execRngFill c s) := by
  unfold execRngFill
  repeat' with_reducible
    first
    | apply KeptOut.next | assumption | apply State.start_kept | apply State.rngFillStart_kept
    | apply State.vecAdvance_kept | intro _ _ _ | intro _ _ | intro _

theorem execRngFillComplete_kept {r s : State} (h : Kept r s) (c : Nat) : KeptOut r (execRngFillComplete c s) := by
  unfold execRngFillComplete
  repeat' with_reducible first | apply KeptOut.next | assumption | apply State.vecDone_kept

theorem State.slotCommand_kept {r s : State} (h : Kept r s) (c cycles : Nat) (f : Core → Core)
    (hf : ∀ k, k.pond.wf → (f k).pond.wf) : Kept r (s.slotCommand c cycles f) :=
  State.modCore_kept h _ _ hf

theorem execRngKey_kept {r s : State} (h : Kept r s) (c : Nat) : KeptOut r (execRngKey c s) :=
  KeptOut.next (State.start_kept h _ _ _ _ fun _ _ ht => State.slotCommand_kept ht _ _ _ fun _ w => w)

theorem execRngBind_kept {r s : State} (h : Kept r s) (c : Nat) : KeptOut r (execRngBind c s) :=
  KeptOut.next (State.start_kept h _ _ _ _ fun _ _ ht => State.slotCommand_kept ht _ _ _ fun _ w => w)

theorem execRngSeek_kept {r s : State} (h : Kept r s) (c : Nat) : KeptOut r (execRngSeek c s) :=
  KeptOut.next (State.start_kept h _ _ _ _ fun _ _ ht => State.slotCommand_kept ht _ _ _ fun _ w => w)

theorem execUpd_kept {r s : State} (h : Kept r s) (c : Nat) : KeptOut r (execUpd c s) := by
  unfold execUpd
  repeat' with_reducible
    first
    | apply KeptOut.next | assumption | apply State.start_kept | apply State.updStart_kept
    | apply State.vecAdvance_kept | intro _ _ _ | intro _ _ | intro _

theorem execUpdComplete_kept {r s : State} (h : Kept r s) (c : Nat) : KeptOut r (execUpdComplete c s) := by
  unfold execUpdComplete
  repeat' with_reducible first | apply KeptOut.next | assumption | apply State.vecDone_kept

end Sys2Proof.Machine
end

