-- ==== Sys2Proof/Laws/KeptMemory.lean ====
section
/-! SUPPORT. What the operations of Machine/Memory.lean keep (Laws/Kept.lean). -/

namespace Sys2Proof.Machine

open Sys2Proof

theorem State.spareExhausted_kept {r s : State} (h : Kept r s) (m : Nat) : Kept r (s.spareExhausted m) := by
  unfold State.spareExhausted
  repeat' with_reducible
    first
    | assumption | apply State.setFld_kept | apply State.setMc_kept | apply State.post_kept | split | apply Kept.other

theorem State.poolTarget_kept {r s : State} (h : Kept r s) (m pch : Nat) : Kept r (s.poolTarget m pch).2 := by
  unfold State.poolTarget
  repeat' with_reducible first | assumption | apply State.freeVal_kept

theorem State.pageInUse_kept {r s : State} (h : Kept r s) (m pch page : Nat) : Kept r (s.pageInUse m pch page).2 := by
  unfold State.pageInUse
  repeat' with_reducible
    first
    | assumption | apply State.setMc_kept | apply State.poolTarget_kept | split | extract_lets
    | refine Kept.of_snd (by assumption) ?_ | refine Kept.of_trd (by assumption) ?_
    | refine Kept.of_fst (by assumption) ?_

theorem State.sparePch_kept {r s : State} (h : Kept r s) (m pch : Nat) : Kept r (s.sparePch m pch) := by
  unfold State.sparePch
  repeat' with_reducible
    first
    | assumption | apply State.setFld_kept | apply State.setMc_kept | apply State.spareExhausted_kept | split
    | extract_lets
    | (apply Kept.other; first | assumption | apply State.setFld_kept | apply State.setMc_kept | apply State.spareExhausted_kept | split)

theorem State.retirePage_kept {r s : State} (h : Kept r s) (m pch page : Nat) : Kept r (s.retirePage m pch page) := by
  unfold State.retirePage
  repeat' with_reducible
    first
    | assumption | apply State.setFld_kept | apply State.addFld_kept | apply State.setMc_kept
    | apply State.spareExhausted_kept | apply State.poolTarget_kept | apply State.sparePch_kept | split | extract_lets
    | refine Kept.of_snd (by assumption) ?_ | refine Kept.of_trd (by assumption) ?_
    | refine Kept.of_fst (by assumption) ?_

theorem State.hbmPoison_kept {r s : State} (h : Kept r s) (a : Nat) : Kept r (s.hbmPoison a) := by
  unfold State.hbmPoison
  split
  · exact h.other
  · exact h.setMem fun w => Mem.mark_wf w _

theorem State.hbmError_kept {r s : State} (h : Kept r s) (addr : Nat) (uncorrectable : Bool) :
    Kept r (s.hbmError addr uncorrectable) := by
  unfold State.hbmError
  repeat' with_reducible
    first
    | assumption | apply State.setReg_kept | apply State.satFld_kept | apply State.setMc_kept
    | apply State.pageInUse_kept | apply State.retirePage_kept | apply State.hbmPoison_kept | split | extract_lets
    | refine Kept.of_snd (by assumption) ?_ | refine Kept.of_trd (by assumption) ?_
    | refine Kept.of_fst (by assumption) ?_

theorem State.lakeError_kept {r s : State} (h : Kept r s) (addr : Nat) (u : Bool) : Kept r (s.lakeError addr u) := by
  unfold State.lakeError
  extract_lets a line s1
  have h1 : Kept r s1 := State.satFld_kept h _ _ _ _
  split
  · exact h
  · split
    · exact h1
    · split
      · exact h1.setMem fun w => Mem.mark_wf w _
      · exact h1.any rfl (Nat.le_refl _) fun w => Mem.marks_wf w _

theorem State.pondMark_kept {r s : State} (h : Kept r s) (c o : Nat) : Kept r (s.pondMark c o) := by
  unfold State.pondMark
  split
  · exact State.modCore_kept h _ _ fun _ w => Mem.mark_wf w o
  · exact h

theorem State.coreCorrected_kept {r s : State} (h : Kept r s) (c o : Nat) : Kept r (s.coreCorrected c o) := by
  unfold State.coreCorrected
  dsimp only
  repeat' with_reducible first | assumption | apply State.makeSuspect_kept | apply State.satSil_kept | split

theorem State.coreUncorrected_kept {r s : State} (h : Kept r s) (c o : Nat) : Kept r (s.coreUncorrected c o) := by
  unfold State.coreUncorrected
  dsimp only
  refine State.makeSuspect_kept ?_ _ _
  repeat' with_reducible
    first
    | assumption | apply State.satSil_kept | apply State.latchKill_kept | apply State.pondMark_kept | split

theorem State.parityError_kept {r s : State} (h : Kept r s) (c o : Nat) : Kept r (s.parityError c o) := by
  unfold State.parityError
  repeat' with_reducible
    first
    | assumption | apply State.modCore_kept | apply State.freeVal_kept | apply State.satSil_kept
    | apply State.makeSuspect_kept | apply State.pondMark_kept | exact fun _ w => w | exact fun w => h.ponds w _
    | (intro _ w; simpa using w) | (intro w; simpa using h.ponds w _)
    | (intro _ w; dsimp only; split <;> simpa using w) | split | extract_lets | refine Kept.of_snd (by assumption) ?_
    | refine Kept.of_trd (by assumption) ?_ | refine Kept.of_fst (by assumption) ?_

theorem State.memError_kept {r s : State} (h : Kept r s) (e : MemErr) : Kept r (s.memError e) := by
  unfold State.memError
  repeat' with_reducible
    first
    | assumption | apply State.hbmError_kept | apply State.lakeError_kept | apply State.coreCorrected_kept
    | apply State.coreUncorrected_kept | apply State.parityError_kept | split | extract_lets

end Sys2Proof.Machine
end

