-- ==== Sys2Proof/Laws/KeptStream.lean ====
section
/-! SUPPORT. What the operations of Machine/Stream.lean keep (Laws/Kept.lean). -/

namespace Sys2Proof.Machine

open Sys2Proof

theorem State.countDesc_kept {r s : State} (h : Kept r s) (c : Nat) (d : Desc) (ixs : List (List Nat)) :
    Kept r (s.countDesc c d ixs) := by
  unfold State.countDesc
  repeat' with_reducible first | assumption | apply State.countAccess_kept | split

theorem State.countWrite_kept {r s : State} (h : Kept r s) (c : Nat) (d : Desc) (ixs : List (List Nat)) :
    Kept r (s.countWrite c d ixs) := by
  unfold State.countWrite
  repeat' with_reducible first | assumption | apply State.countAccess_kept | split

theorem State.carry_kept {r s : State} (h : Kept r s) (j : Nat) (sec : Bool) (w : PondWrite) : Kept r (s.carry j sec w) := by
  unfold State.carry
  repeat' with_reducible first | assumption | apply State.modJob_kept | split

theorem State.descWrite_kept {r s : State} (h : Kept r s) (c : Nat) (d : Desc) (w : PondWrite) :
    Kept r (s.descWrite c d w) := by
  unfold State.descWrite
  split
  · exact State.carry_kept (h.setMem fun wf => Mem.apply_wf wf _ _) _ _ _
  · exact State.pondApply_kept h _ _

theorem State.streamStart_kept {r s : State} (h : Kept r s) (c code : Nat) (sub : List Word → Bool)
    {eff : List Word → State → State} (he : ∀ ws t, Kept r t → Kept r (eff ws t)) : Kept r (s.streamStart c code sub eff) :=
  State.start_kept h _ _ _ _ he

theorem State.beginXferAs_kept {r s : State} (h : Kept r s) (c : Nat) (ws : List Word) (occ : Nat) (empty : Bool) (scan : Option Nat) :
    Kept r (s.beginXferAs c ws occ empty scan) := by
  unfold State.beginXferAs
  repeat' with_reducible
    first
    | assumption | apply State.modCore_kept | apply done_kept | exact fun _ w => w | exact fun w => h.ponds w _
    | (intro _ w; simpa using w) | (intro w; simpa using h.ponds w _) | split | extract_lets

theorem State.beginXfer_kept {r s : State} (h : Kept r s) (c : Nat) (ws : List Word) (occ : Nat) (empty : Bool) :
    Kept r (s.beginXfer c ws occ empty) := by
  unfold State.beginXfer
  repeat' with_reducible first | assumption | apply State.beginXferAs_kept

theorem State.endXfer_kept {r s : State} (h : Kept r s) (c : Nat) (x : Xfer) : Kept r (s.endXfer c x) := by
  unfold State.endXfer
  repeat' with_reducible
    first
    | assumption | apply State.modCore_kept | apply State.unpin_kept | exact fun _ w => w | exact fun w => h.ponds w _
    | (intro _ w; simpa using w) | (intro w; simpa using h.ponds w _) | split | extract_lets

theorem State.loadTile_kept {r s : State} (h : Kept r s) (c : Nat) (ws : List Word) : Kept r (s.loadTile c ws) := by
  unfold State.loadTile
  repeat' with_reducible
    first
    | assumption | apply State.start_kept | apply State.readKill_kept | apply State.countDesc_kept
    | apply State.countWrite_kept | apply State.descWrite_kept

theorem State.storeTile_kept {r s : State} (h : Kept r s) (c : Nat) (ws : List Word) : Kept r (s.storeTile c ws) := by
  unfold State.storeTile
  repeat' with_reducible
    first
    | assumption | apply State.setReg_kept | apply State.addFld_kept | apply State.start_kept
    | apply State.readKill_kept | apply State.countDesc_kept | apply State.countWrite_kept
    | apply State.descWrite_kept | split | extract_lets

theorem State.track_kept {r s : State} (h : Kept r s) (c key : Nat) (ev : List Int) (next : Tracker → Tracker) :
    Kept r (s.track c key ev next) := by
  have h2 := State.freeVal_kept h 3
  have hk : r.PondsWf → (s.core c).pond.wf := fun w => h.ponds w c
  unfold State.track
  dsimp only
  split
  · exact h
  · split
    · exact State.setCore_kept h _ _ hk
    · split
      · exact State.setCore_kept h _ _ hk
      · exact State.setCore_kept h2 _ _ hk

theorem execLdt_kept {r s : State} (h : Kept r s) (c : Nat) (errs : List MemErr) : KeptOut r (execLdt c errs s) := by
  unfold execLdt
  repeat' with_reducible
    first
    | apply KeptOut.next | assumption | apply State.memError_kept | apply State.streamStart_kept
    | apply State.beginXfer_kept | apply State.track_kept | split | extract_lets
    | refine Kept.foldl (fun s x h => ?_) ?_ _ | intro _ _ _ | intro _ _ | intro _
    | (apply Kept.other; first | assumption | apply State.memError_kept | apply State.streamStart_kept | apply State.beginXfer_kept | apply State.track_kept | split | refine Kept.foldl (fun s x h => ?_) ?_ _)

theorem execStt_kept {r s : State} (h : Kept r s) (c : Nat) : KeptOut r (execStt c s) := by
  unfold execStt
  repeat' with_reducible
    first
    | apply KeptOut.next | assumption | apply State.streamStart_kept | apply State.beginXfer_kept | split
    | extract_lets | intro _ _ _ | intro _ _ | intro _

theorem execPrf_kept {r s : State} (h : Kept r s) (c : Nat) : KeptOut r (execPrf c s) := by
  unfold execPrf
  repeat' with_reducible
    first
    | apply KeptOut.next | assumption | apply State.streamStart_kept | apply State.beginXfer_kept | split
    | extract_lets | intro _ _ _ | intro _ _ | intro _

theorem State.countScan_kept {r s : State} (h : Kept r s) (c : Nat) (d : Desc) : Kept r (s.countScan c d) := by
  unfold State.countScan
  repeat' with_reducible first | assumption | apply State.countAccess_kept | apply State.countDesc_kept | split

theorem execPrfScan_kept {r s : State} (h : Kept r s) (c : Nat) : KeptOut r (execPrfScan c s) := by
  unfold execPrfScan
  repeat' with_reducible
    first
    | apply KeptOut.next | assumption | apply State.modCore_kept | apply State.streamStart_kept
    | apply State.beginXferAs_kept | exact fun _ w => w | exact fun w => h.ponds w _ | (intro _ w; simpa using w)
    | (intro w; simpa using h.ponds w _) | (intro _ w; dsimp only; split <;> simpa using w) | split | extract_lets
    | intro _ _ _ | intro _ _ | intro _

theorem State.scanJoin_kept {r s : State} (h : Kept r s) (c seq : Nat) (x : Xfer) : Kept r (s.scanJoin c seq x) := by
  unfold State.scanJoin
  repeat' with_reducible
    first
    | assumption | apply State.modCore_kept | apply State.modSpan_kept | apply done_kept | apply State.readKill_kept
    | apply State.countScan_kept | exact fun _ w => w | exact fun w => h.ponds w _ | (intro _ w; simpa using w)
    | (intro w; simpa using h.ponds w _) | split | extract_lets

theorem State.endScan_kept {r s : State} (h : Kept r s) (c : Nat) (y : ScanSum) : Kept r (s.endScan c y) := by
  unfold State.endScan
  repeat' with_reducible first | assumption | apply State.setFld_kept | apply State.endXfer_kept | split | extract_lets

theorem State.scanEnds_kept {r s : State} (h : Kept r s) (c seq : Nat) : Kept r (s.scanEnds c seq) := by
  unfold State.scanEnds
  repeat' with_reducible
    first
    | assumption | apply State.modSpan_kept | apply State.endScan_kept | split | extract_lets
    | refine Kept.foldl (fun s x h => ?_) ?_ _

theorem execPrfComplete_kept {r s : State} (h : Kept r s) (c k : Nat) : KeptOut r (execPrfComplete c k s) := by
  unfold execPrfComplete
  repeat' with_reducible
    first
    | apply KeptOut.next | assumption | apply done_kept | apply State.countDesc_kept | apply State.endXfer_kept
    | apply State.scanJoin_kept | apply State.scanEnds_kept | split | extract_lets

theorem execSend_kept {r s : State} (h : Kept r s) (c : Nat) : KeptOut r (execSend c s) := by
  unfold execSend
  repeat' with_reducible
    first
    | apply KeptOut.next | assumption | apply State.flowQueue_kept | apply done_kept | apply State.readKill_kept
    | apply State.streamStart_kept | apply State.beginXfer_kept | split | extract_lets | intro _ _ _ | intro _ _
    | intro _

theorem execSendComplete_kept {r s : State} (h : Kept r s) (c k : Nat) : KeptOut r (execSendComplete c k s) := by
  unfold execSendComplete
  repeat' with_reducible first | apply KeptOut.next | assumption | apply State.endXfer_kept | split | extract_lets

theorem execRecv_kept {r s : State} (h : Kept r s) (c : Nat) : KeptOut r (execRecv c s) := by
  unfold execRecv
  repeat' with_reducible
    first
    | apply KeptOut.next | assumption | apply done_kept | apply State.streamStart_kept | apply State.beginXfer_kept
    | extract_lets | intro _ _ _ | intro _ _ | intro _

theorem execRecvComplete_kept {r s : State} (h : Kept r s) (c k : Nat) : KeptOut r (execRecvComplete c k s) := by
  unfold execRecvComplete
  repeat' with_reducible
    first
    | apply KeptOut.next | assumption | apply State.addFld_kept | apply State.dropMessage_kept
    | apply State.pondApply_kept | apply done_kept | apply State.endXfer_kept | split | extract_lets

theorem State.flagBusy_kept {r s : State} (h : Kept r s) (c : Nat) : Kept r (s.flagBusy c) := by
  unfold State.flagBusy
  repeat' with_reducible
    first
    | assumption | apply State.modCore_kept | exact fun _ w => w | exact fun w => h.ponds w _
    | (intro _ w; simpa using w) | (intro w; simpa using h.ponds w _)

theorem execFlagWait_kept {r s : State} (h : Kept r s) (c : Nat) : KeptOut r (execFlagWait c s) := by
  unfold execFlagWait
  repeat' with_reducible
    first
    | apply KeptOut.next | assumption | apply State.modCore_kept | apply State.streamStart_kept
    | apply State.flagBusy_kept | exact fun _ w => w | exact fun w => h.ponds w _ | (intro _ w; simpa using w)
    | (intro w; simpa using h.ponds w _) | (intro _ w; dsimp only; split <;> simpa using w) | split | intro _ _ _
    | intro _ _ | intro _

theorem State.flagAct_kept {r s : State} (h : Kept r s) (c id : Nat) (ws : List Word) : Kept r (s.flagAct c id ws) := by
  unfold State.flagAct
  repeat' with_reducible
    first
    | assumption | apply State.modCore_kept | apply State.counterAdd_kept | apply State.syncRefuse_kept
    | exact fun _ w => w | exact fun w => h.ponds w _ | (intro _ w; simpa using w)
    | (intro w; simpa using h.ponds w _) | split | extract_lets

theorem State.flagStart_kept {r s : State} (h : Kept r s) (c : Nat) (ws : List Word) : Kept r (s.flagStart c ws) := by
  unfold State.flagStart
  repeat' with_reducible
    first
    | assumption | apply State.modCore_kept | apply State.beginXfer_kept | apply State.flagBusy_kept
    | apply State.flagAct_kept | exact fun _ w => w | exact fun w => h.ponds w _ | (intro _ w; simpa using w)
    | (intro w; simpa using h.ponds w _) | split | extract_lets

theorem execFlagSet_kept {r s : State} (h : Kept r s) (c : Nat) : KeptOut r (execFlagSet c s) := by
  unfold execFlagSet
  repeat' with_reducible
    first
    | apply KeptOut.next | assumption | apply State.streamStart_kept | apply State.flagStart_kept | intro _ _ _
    | intro _ _ | intro _

theorem execFlagClr_kept {r s : State} (h : Kept r s) (c : Nat) : KeptOut r (execFlagClr c s) := by
  unfold execFlagClr
  repeat' with_reducible
    first
    | apply KeptOut.next | assumption | apply State.streamStart_kept | apply State.flagStart_kept | intro _ _ _
    | intro _ _ | intro _

theorem execFlagCtradd_kept {r s : State} (h : Kept r s) (c : Nat) : KeptOut r (execFlagCtradd c s) := by
  unfold execFlagCtradd
  repeat' with_reducible
    first
    | apply KeptOut.next | assumption | apply State.streamStart_kept | apply State.flagStart_kept | intro _ _ _
    | intro _ _ | intro _

theorem execFlagActionDue_kept {r s : State} (h : Kept r s) (c k : Nat) : KeptOut r (execFlagActionDue c k s) := by
  unfold execFlagActionDue
  repeat' with_reducible
    first
    | apply KeptOut.next | assumption | apply State.modCore_kept | apply State.flagAct_kept | exact fun _ w => w
    | exact fun w => h.ponds w _ | (intro _ w; simpa using w) | (intro w; simpa using h.ponds w _) | split

theorem execDescriptorFetch_kept {r s : State} (h0 : Kept r s) (c h : Nat) : KeptOut r (execDescriptorFetch c h s) := by
  unfold execDescriptorFetch
  repeat' with_reducible
    first
    | apply KeptOut.next | assumption | apply State.modCore_kept | apply State.consume_kept
    | apply State.fetchDesc_kept | exact fun _ w => w | exact fun w => h0.ponds w _ | (intro _ w; simpa using w)
    | (intro w; simpa using h0.ponds w _) | split | extract_lets

theorem execPrefetchFill_kept {r s : State} (h : Kept r s) (c t : Nat) : KeptOut r (execPrefetchFill c t s) := by
  unfold execPrefetchFill
  repeat' with_reducible first | apply KeptOut.next | assumption | apply State.lakeFill_kept | split

end Sys2Proof.Machine
end

