-- ==== Sys2Proof/Laws/KeptReservoir.lean ====
section
/-! SUPPORT. What the operations of Machine/Reservoir.lean keep (Laws/Kept.lean). -/

namespace Sys2Proof.Machine

open Sys2Proof

theorem State.rsvRun_kept {r0 s : State} (h : Kept r0 s) (c : Nat) (r : Run) (occ comp : Nat) :
    Kept r0 (s.rsvRun c r occ comp) := by
  unfold State.rsvRun
  repeat' with_reducible
    first
    | assumption | apply State.modCore_kept | apply State.rsvOverflow_kept | exact fun _ w => w
    | exact fun w => h.ponds w _ | (intro _ w; simpa using w) | (intro w; simpa using h.ponds w _)

theorem State.stageUnits_kept {r s : State} (h : Kept r s) (c size : Nat) : Kept r (s.stageUnits c size).2 := by
  unfold State.stageUnits
  repeat' with_reducible first | assumption | apply State.freeVal_kept

theorem State.stageWrite_kept {r s : State} (h : Kept r s) (c : Nat) (x : Staged) (off : Nat) (data : List Byte)
    (bad : List Nat) : Kept r (s.stageWrite c x off data bad) :=
  State.modCore_kept h _ _ fun _ w => Mem.foldl_wf (fun _ _ hm => Mem.marks_wf (Mem.write_wf hm _ _) _) w _

theorem State.rsvReject_kept {r s : State} (h : Kept r s) (c ch size : Nat) : Kept r (s.rsvReject c ch size) := by
  unfold State.rsvReject
  repeat' with_reducible first | assumption | apply State.addFld_kept | apply State.post_kept

theorem State.rsvPiece_kept {r0 s : State} (h : Kept r0 s) (c : Nat) (r : Run) (u : Nat) : Kept r0 (s.rsvPiece c r u).1 := by
  unfold State.rsvPiece
  repeat' with_reducible
    first
    | assumption | apply State.readKill_kept | apply State.stageWrite_kept | split | extract_lets

theorem State.rsvAdvance_kept {r s : State} (h : Kept r s) (c : Nat) : Kept r (s.rsvAdvance c) := by
  unfold State.rsvAdvance
  split
  · exact h
  · exact State.modCore_kept (State.readRuns_kept (fun _ _ _ _ h => State.rsvPiece_kept h _ _ _) h _ _) _ _ fun _ w => w

theorem State.rsvPush_kept {r s : State} (h : Kept r s) (c : Nat) (ws : List Word) : Kept r (s.rsvPush c ws) := by
  unfold State.rsvPush
  repeat' with_reducible
    first
    | assumption | apply State.addFld_kept | apply State.modCore_kept | apply State.rsvRun_kept
    | apply State.stageUnits_kept | apply State.stageWrite_kept | apply State.rsvReject_kept
    | apply State.rsvAdvance_kept | exact fun _ w => w | exact fun w => h.ponds w _ | (intro _ w; simpa using w)
    | (intro w; simpa using h.ponds w _) | split | extract_lets

theorem execRsvpush_kept {r s : State} (h : Kept r s) (c : Nat) : KeptOut r (execRsvpush c s) := by
  unfold execRsvpush
  repeat' with_reducible
    first
    | apply KeptOut.next | assumption | apply State.start_kept | apply State.rsvPush_kept | intro _ _ _ | intro _ _
    | intro _

theorem execRsvpushComplete_kept {r s : State} (h : Kept r s) (c : Nat) : KeptOut r (execRsvpushComplete c s) := by
  unfold execRsvpushComplete
  repeat' with_reducible
    first
    | apply KeptOut.next | assumption | apply State.modCore_kept | apply State.unpin_kept
    | apply State.rsvAdvance_kept | exact fun _ w => w | exact fun w => h.ponds w _ | (intro _ w; simpa using w)
    | (intro w; simpa using h.ponds w _) | split | extract_lets

theorem execRsvEntryWritten_kept {r s : State} (h : Kept r s) (c : Nat) : KeptOut r (execRsvEntryWritten c s) := by
  unfold execRsvEntryWritten
  repeat' with_reducible
    first
    | apply KeptOut.next | assumption | apply State.modCore_kept | apply State.devMark_kept
    | apply State.devWrite_kept | apply State.carry_kept | exact fun _ w => w | exact fun w => h.ponds w _
    | (intro _ w; simpa using w) | (intro w; simpa using h.ponds w _) | split | extract_lets

theorem execRsvEntryStaged_kept {r s : State} (h : Kept r s) (c : Nat) : KeptOut r (execRsvEntryStaged c s) := by
  unfold execRsvEntryStaged
  repeat' with_reducible
    first
    | apply KeptOut.next | assumption | apply State.modCore_kept | apply State.devRead_kept
    | apply State.stageWrite_kept | exact fun _ w => w | exact fun w => h.ponds w _ | (intro _ w; simpa using w)
    | (intro w; simpa using h.ponds w _) | split | extract_lets

theorem State.popDepth_kept {r s : State} (h : Kept r s) (c ch size : Nat) : Kept r (s.popDepth c ch size) := by
  unfold State.popDepth
  repeat' with_reducible
    first
    | assumption | apply State.setFld_kept | apply State.freeVal_kept | split | refine Kept.of_snd (by assumption) ?_
    | refine Kept.of_trd (by assumption) ?_ | refine Kept.of_fst (by assumption) ?_ | apply Kept.other

theorem State.readTrailer_kept {r s : State} (h : Kept r s) (c ch depth : Nat) : Kept r (s.readTrailer c ch depth) := by
  unfold State.readTrailer
  repeat' with_reducible first | assumption | apply State.devRead_kept | split

theorem State.rsvPop_kept {r s : State} (h : Kept r s) (c : Nat) (ws : List Word) : Kept r (s.rsvPop c ws) := by
  unfold State.rsvPop
  repeat' with_reducible
    first
    | assumption | apply State.addFld_kept | apply State.modCore_kept | apply State.post_kept | apply State.track_kept
    | apply State.rsvRun_kept | apply State.rsvReject_kept | apply State.popDepth_kept | apply State.readTrailer_kept
    | exact fun _ w => w | exact fun w => h.ponds w _ | (intro _ w; simpa using w)
    | (intro w; simpa using h.ponds w _) | split | extract_lets

theorem execRsvpop_kept {r s : State} (h : Kept r s) (c : Nat) : KeptOut r (execRsvpop c s) := by
  unfold execRsvpop
  repeat' with_reducible
    first
    | apply KeptOut.next | assumption | apply State.start_kept | apply State.rsvPop_kept | intro _ _ _ | intro _ _
    | intro _

theorem execRsvpopComplete_kept {r s : State} (h : Kept r s) (c : Nat) : KeptOut r (execRsvpopComplete c s) := by
  unfold execRsvpopComplete
  repeat' with_reducible
    first
    | apply KeptOut.next | assumption | apply State.modCore_kept | apply State.pondApply_kept | apply State.unpin_kept
    | exact fun _ w => w | exact fun w => h.ponds w _ | (intro _ w; simpa using w)
    | (intro w; simpa using h.ponds w _) | split | extract_lets

theorem State.beginPath_kept {r s : State} (h : Kept r s) (c : Nat) : Kept r (s.beginPath c) := by
  unfold State.beginPath
  extract_lets k
  repeat' with_reducible
    first
    | assumption | apply State.modCore_kept | refine State.setCore_kept ?_ _ _ fun w => ?_ | exact fun _ w => w
    | refine Kept.of_snd (by assumption) ?_ | apply State.stageUnits_kept | split
  all_goals exact h.ponds (by assumption) c

end Sys2Proof.Machine
end

