-- ==== Sys2Proof/Laws/KeptTick.lean ====
section
/-! SUPPORT. What the operations of Machine/Tick.lean keep (Laws/Kept.lean). -/

namespace Sys2Proof.Machine

open Sys2Proof

theorem State.countStall_kept {r s : State} (h : Kept r s) (c : Nat) : Kept r (s.countStall c) := by
  unfold State.countStall
  repeat' with_reducible first | assumption | apply State.addFld_kept | split

theorem State.watchWaits_kept {r s : State} (h : Kept r s) (c : Nat) : Kept r (s.watchWaits c) := by
  unfold State.watchWaits
  repeat' with_reducible
    first
    | assumption | apply State.modCore_kept | exact fun _ w => w | exact fun w => h.ponds w _
    | (intro _ w; simpa using w) | (intro w; simpa using h.ponds w _)

theorem State.nextCycle_kept {r s : State} (h : Kept r s) (c f : Nat) : Kept r (s.nextCycle c f) := by
  unfold State.nextCycle
  repeat' with_reducible
    first
    | assumption | apply State.modCore_kept | exact fun _ w => w | exact fun w => h.ponds w _
    | (intro _ w; simpa using w) | (intro w; simpa using h.ponds w _)

theorem State.writeRecords_kept {r s : State} (h : Kept r s) (c : Nat) : Kept r (s.writeRecords c) := by
  unfold State.writeRecords
  repeat' with_reducible
    first
    | assumption | apply State.modCore_kept | apply State.pondRecord_kept | exact fun _ w => w
    | exact fun w => h.ponds w _ | (intro _ w; simpa using w) | (intro w; simpa using h.ponds w _)
    | (intro _ w; dsimp only; split <;> simpa using w) | extract_lets | refine Kept.foldl (fun s x h => ?_) ?_ _

theorem State.cycleWork_kept {r s : State} (h : Kept r s) (c : Nat) : Kept r (s.cycleWork c) := by
  unfold State.cycleWork
  split
  · exact h
  · exact State.rsvAdvance_kept (State.arrayAdvance_kept (State.pathAdvance_kept (State.vecAdvance_kept
      (State.writeRecords_kept h _) _) _) _) _

theorem State.tickCore_kept {r s : State} (h : Kept r s) (a : ActiveSpan) (c : Nat) : Kept r (s.tickCore a c) := by
  unfold State.tickCore
  extract_lets f s1 t still goOn
  have h1 : Kept r s1 := State.beginPath_kept (State.rsvOverflow_kept (State.watchWaits_kept (State.countStall_kept h _) _) _ _) _
  have hs : ∀ u, Kept r u → Kept r (still u) := fun _ hu => State.modCore_kept hu _ _ fun _ w => Core.endTick_wf w _
  have hg : ∀ u, Kept r u → Kept r (goOn u) := fun _ hu =>
    State.cycleWork_kept (State.modCore_kept (State.nextCycle_kept hu _ _) _ _ fun _ w => Core.endTick_wf w _) _
  repeat' with_reducible first | assumption | apply hs | apply hg | apply State.addFld_kept | split

theorem execFreezeEnd_kept {r s : State} (h : Kept r s) (c : Nat) : KeptOut r (execFreezeEnd c s) := by
  unfold execFreezeEnd
  repeat' with_reducible
    first
    | apply KeptOut.next | assumption | apply State.modCore_kept | apply State.modSpan_kept | apply State.wake_kept
    | apply State.cycleWork_kept | exact fun _ w => w | exact fun w => h.ponds w _ | (intro _ w; simpa using w)
    | (intro w; simpa using h.ponds w _) | (intro _ w; dsimp only; split <;> simpa using w) | split | extract_lets
    | refine Kept.foldl (fun s x h => ?_) ?_ _

/-- A tick keeps everything of the relation but the tick counter, which counts 1. -/
theorem State.tick_kept (s : State) : Kept { s with ticks := s.ticks + 1 } s.tick := by
  unfold State.tick
  extract_lets spans s1 s2
  have h1 : Kept s s1 :=
    Kept.foldl (fun _ _ h => Kept.foldl (fun _ _ h => State.tickCore_kept h _ _) h _) (Kept.refl s) _
  have h2 : Kept s s2.trace := State.trace_kept h1.other
  refine State.keeperWrites_kept ?_
  exact ⟨h2.pending, h2.fuses, congrArg (· + 1) h1.ticks, h2.free, h2.mem, h2.ponds⟩

end Sys2Proof.Machine
end

