-- ==== Sys2Proof/Laws/KeptCollectives.lean ====
section
/-! SUPPORT. What the operations of Machine/Collectives.lean keep (Laws/Kept.lean). -/

namespace Sys2Proof.Machine

open Sys2Proof

theorem State.sendMessage_kept {r s : State} (h : Kept r s) (f : Nat) (bytes : List Byte) : Kept r (s.sendMessage f bytes) := by
  unfold State.sendMessage
  repeat' with_reducible first | assumption | apply State.flowQueue_kept

theorem State.freeWords_kept {r s : State} (h : Kept r s) (w n : Nat) : Kept r (s.freeWords w n).2 := by
  unfold State.freeWords
  repeat' with_reducible
    first
    | assumption | (apply Kept.other; first | assumption) | (refine Kept.any ?_ ?_ ?_ ?_; first | assumption)
    | exact Nat.le_refl _ | exact Nat.le_add_right _ _ | exact fun w => Mem.write_wf w _ _ | exact id | rfl

theorem State.putColl_kept {r s : State} (h : Kept r s) (x : Coll) : Kept r (s.putColl x) := by
  unfold State.putColl
  repeat' with_reducible first | assumption | split | apply Kept.other

theorem State.sendShard_kept {r s : State} (h : Kept r s) (x : Coll) (phase : Nat) (sum : Summary) (ys : List (Int × Special)) :
    Kept r (s.sendShard x phase sum ys) := by
  unfold State.sendShard
  repeat' with_reducible first | assumption | apply State.sendMessage_kept

theorem State.countBlot_kept {r s : State} (h : Kept r s) (c : Nat) (b : Desc) (half e : Nat) :
    Kept r (s.countBlot c b half e) := by
  unfold State.countBlot
  repeat' with_reducible first | assumption | apply State.countDesc_kept

theorem State.beginReduce_kept {r s : State} (h : Kept r s) (x : Coll) : Kept r (s.beginReduce x) := by
  unfold State.beginReduce
  extract_lets ws d ixs xs s1 blot bs s2 b
  have h1 : Kept r s1 := State.countDesc_kept h _ _ _
  have h2 : Kept r s2 := by
    unfold s2
    clear_value blot s1
    cases blot with
    | none => exact h1
    | some b => exact State.countBlot_kept h1 _ _ _ _
  clear_value s2 xs bs
  repeat' with_reducible
    first
    | assumption | apply State.consume_kept | apply State.putColl_kept | apply State.sendMessage_kept
    | apply State.sendShard_kept | refine Kept.foldl (fun s x h => ?_) ?_ _ | split | extract_lets

theorem State.beginGather_kept {r s : State} (h : Kept r s) (x : Coll) : Kept r (s.beginGather x) := by
  unfold State.beginGather
  repeat' with_reducible
    first
    | assumption | apply State.consume_kept | apply State.countDesc_kept | apply State.sendMessage_kept
    | apply State.putColl_kept | split | apply Kept.other

theorem State.beginColl_kept {r s : State} (h : Kept r s) (x : Coll) : Kept r (s.beginColl x) := by
  unfold State.beginColl
  repeat' with_reducible
    first
    | assumption | apply State.putColl_kept | apply State.beginReduce_kept | apply State.beginGather_kept | split
    | extract_lets

theorem State.tryColl_kept {r s : State} (h : Kept r s) (x : Coll) : Kept r (s.tryColl x) := by
  unfold State.tryColl
  repeat' with_reducible
    first
    | assumption | apply State.putColl_kept | apply State.beginColl_kept | split | extract_lets

theorem State.collEvent_kept {r s : State} (h : Kept r s) (t : Nat) (x : Coll) (fields : List (Nat × Nat)) :
    Kept r (s.collEvent t x fields) := by
  unfold State.collEvent
  repeat' with_reducible first | assumption | apply State.post_kept

theorem State.decideColl_kept {r s : State} (h : Kept r s) (x : Coll) : Kept r (s.decideColl x) := by
  unfold State.decideColl
  repeat' with_reducible
    first
    | assumption | apply State.putColl_kept | apply State.sendShard_kept | apply State.beginReduce_kept
    | apply State.collEvent_kept | split | extract_lets | refine Kept.foldl (fun s x h => ?_) ?_ _
    | refine Kept.of_snd (by assumption) ?_ | refine Kept.of_trd (by assumption) ?_
    | refine Kept.of_fst (by assumption) ?_
    | (apply Kept.other; first | assumption | apply State.putColl_kept | apply State.sendShard_kept | apply State.beginReduce_kept | apply State.collEvent_kept | split | refine Kept.foldl (fun s x h => ?_) ?_ _)

theorem State.decideColls_kept {r s : State} (h : Kept r s) : Kept r (s.decideColls) := by
  unfold State.decideColls
  repeat' with_reducible
    first
    | assumption | apply State.decideColl_kept | split | refine Kept.foldl (fun s x h => ?_) ?_ _

theorem State.advanceColls_kept {r s : State} (h : Kept r s) : Kept r (s.advanceColls) := by
  unfold State.advanceColls
  repeat' with_reducible first | assumption | apply State.decideColls_kept

theorem State.collStart_kept {r s : State} (h : Kept r s) (c : Nat) (ws : List Word) : Kept r (s.collStart c ws) := by
  unfold State.collStart
  repeat' with_reducible
    first
    | assumption | apply State.beginXfer_kept | apply State.putColl_kept | apply State.tryColl_kept
    | apply State.advanceColls_kept | split | extract_lets
    | (apply Kept.other; first | assumption | apply State.beginXfer_kept | apply State.putColl_kept | apply State.tryColl_kept | apply State.advanceColls_kept | split)

theorem execCollReduceScatter_kept {r s : State} (h : Kept r s) (c : Nat) : KeptOut r (execCollReduceScatter c s) := by
  unfold execCollReduceScatter
  repeat' with_reducible
    first
    | apply KeptOut.next | assumption | apply done_kept | apply State.streamStart_kept | apply State.collStart_kept
    | intro _ _ _ | intro _ _ | intro _

theorem execCollAllGather_kept {r s : State} (h : Kept r s) (c : Nat) : KeptOut r (execCollAllGather c s) := by
  unfold execCollAllGather
  repeat' with_reducible
    first
    | apply KeptOut.next | assumption | apply done_kept | apply State.streamStart_kept | apply State.collStart_kept
    | intro _ _ _ | intro _ _ | intro _

theorem execCollAllReduce_kept {r s : State} (h : Kept r s) (c : Nat) : KeptOut r (execCollAllReduce c s) := by
  unfold execCollAllReduce
  repeat' with_reducible
    first
    | apply KeptOut.next | assumption | apply done_kept | apply State.streamStart_kept | apply State.collStart_kept
    | intro _ _ _ | intro _ _ | intro _

theorem execCollBroadcast_kept {r s : State} (h : Kept r s) (c : Nat) : KeptOut r (execCollBroadcast c s) := by
  unfold execCollBroadcast
  repeat' with_reducible
    first
    | apply KeptOut.next | assumption | apply done_kept | apply State.streamStart_kept | apply State.collStart_kept
    | intro _ _ _ | intro _ _ | intro _

theorem State.resumeColls_kept {r s : State} (h : Kept r s) (c : Nat) : Kept r (s.resumeColls c) := by
  unfold State.resumeColls
  repeat' with_reducible
    first
    | assumption | apply State.settle_kept | apply State.tryColl_kept | apply State.advanceColls_kept | split
    | extract_lets | refine Kept.foldl (fun s x h => ?_) ?_ _

theorem execLdtComplete_kept {r s : State} (h : Kept r s) (c k : Nat) : KeptOut r (execLdtComplete c k s) := by
  unfold execLdtComplete
  repeat' with_reducible
    first
    | apply KeptOut.next | assumption | apply State.endXfer_kept | apply State.loadTile_kept
    | apply State.resumeColls_kept | split

theorem execSttComplete_kept {r s : State} (h : Kept r s) (c k : Nat) : KeptOut r (execSttComplete c k s) := by
  unfold execSttComplete
  repeat' with_reducible
    first
    | apply KeptOut.next | assumption | apply State.endXfer_kept | apply State.storeTile_kept
    | apply State.resumeColls_kept | split

theorem State.markMismatch_kept {r s : State} (h : Kept r s) (x : Coll) (f : Nat) (field : Nat) :
    Kept r (s.markMismatch x f field).2 := by
  unfold State.markMismatch
  repeat' with_reducible first | assumption | apply State.collEvent_kept | split

theorem State.reduceMessage_kept {r s : State} (h : Kept r s) (x : Coll) (f : Nat) (m : List Byte) :
    Kept r (s.reduceMessage x f m) := by
  unfold State.reduceMessage
  repeat' with_reducible
    first
    | assumption | apply State.freeWords_kept | apply State.putColl_kept | apply State.sendShard_kept
    | apply State.advanceColls_kept | apply State.markMismatch_kept | split | refine Kept.of_snd (by assumption) ?_
    | refine Kept.of_trd (by assumption) ?_ | refine Kept.of_fst (by assumption) ?_ | apply Kept.other

theorem State.gatherMessage_kept {r s : State} (h : Kept r s) (x : Coll) (f : Nat) (m : List Byte) :
    Kept r (s.gatherMessage x f m) := by
  unfold State.gatherMessage
  generalize headDiffers m (s.collHead x 1 x.t x.sum) = fails
  cases fails with
  | none =>
    dsimp only [Option.isSome]
    repeat' with_reducible
      first
      | assumption | apply State.sendShard_kept | apply State.putColl_kept | apply State.sendMessage_kept
      | apply State.freeWords_kept | exact h.setFree (Nat.le_add_right _ _) | split
  | some field =>
    have h1 := State.markMismatch_kept h x f field
    dsimp only [Option.isSome]
    repeat' with_reducible
      first
      | assumption | apply State.sendShard_kept | apply State.putColl_kept | apply State.sendMessage_kept
      | apply State.freeWords_kept | exact h1.setFree (Nat.le_add_right _ _) | split

theorem State.s1Message_kept {r s : State} (h : Kept r s) (x : Coll) (f q : Nat) (m : List Byte) :
    Kept r (s.s1Message x f q m) := by
  unfold State.s1Message
  repeat' with_reducible
    first
    | assumption | apply State.putColl_kept | apply State.advanceColls_kept | apply State.markMismatch_kept | split
    | refine Kept.of_snd (by assumption) ?_ | refine Kept.of_trd (by assumption) ?_
    | refine Kept.of_fst (by assumption) ?_ | apply Kept.other

theorem State.collMessage_kept {r s : State} (h : Kept r s) (x : Coll) (f : Nat) (m : List Byte) :
    Kept r (s.collMessage x f m) := by
  unfold State.collMessage
  repeat' with_reducible
    first
    | assumption | apply State.reduceMessage_kept | apply State.gatherMessage_kept | apply State.s1Message_kept
    | split

theorem State.nanWrite_kept {r s : State} (h : Kept r s) (d : Desc) (n : Nat) : Kept r (s.nanWrite d n).2 := by
  unfold State.nanWrite
  repeat' with_reducible
    first
    | assumption | split | extract_lets | (apply Kept.other; first | assumption | split)
    | (refine Kept.any ?_ ?_ ?_ ?_; first | assumption | split) | exact Nat.le_refl _ | exact Nat.le_add_right _ _
    | exact fun w => Mem.write_wf w _ _ | exact id | rfl

theorem State.collOutput_kept {r s : State} (h : Kept r s) (x : Coll) (sat : Bool) (d : Desc) :
    Kept r (s.collOutput x sat d).2 := by
  unfold State.collOutput
  repeat' with_reducible first | assumption | apply State.nanWrite_kept | split

theorem State.collStat_kept {r s : State} (h : Kept r s) (e : CollEntry) : Kept r (s.collStat e) := by
  unfold State.collStat
  repeat' with_reducible first | assumption | apply State.setFld_kept | apply State.addFld_kept

theorem State.collEnded_kept {r s : State} (h : Kept r s) (x : Coll) : Kept r (s.collEnded x) := by
  unfold State.collEnded
  extract_lets s1 e key u s2 s3
  have h1 : Kept r s1 := h.other
  have h2 : Kept r s2 := by
    unfold s2
    split
    · have hu : Kept r u := State.collStat_kept h1.other _
      split
      · exact State.collEvent_kept hu _ _ _
      · exact hu
    · exact h1.other
  have h3 : Kept r s3 := by
    unfold s3
    split
    · exact State.modJob_kept h2 _ _
    · exact h2
  clear_value s3
  repeat' with_reducible first | assumption | apply State.advanceColls_kept | apply State.tryColl_kept | split

theorem State.finishColl_kept {r s : State} (h : Kept r s) (x : Coll) : Kept r (s.finishColl x) := by
  unfold State.finishColl
  repeat' with_reducible
    first
    | assumption | apply State.countWrite_kept | apply State.descWrite_kept | apply State.collOutput_kept
    | apply State.collEnded_kept | split | extract_lets

theorem execCollComplete_kept {r s : State} (h : Kept r s) (c k : Nat) : KeptOut r (execCollComplete c k s) := by
  unfold execCollComplete
  repeat' with_reducible
    first
    | apply KeptOut.next | assumption | apply done_kept | apply State.endXfer_kept | apply State.collEnded_kept
    | apply State.finishColl_kept | split

end Sys2Proof.Machine
end

