-- ==== Sys2Proof/Laws/KeptRecords.lean ====
section
/-! SUPPORT. What the operations of Machine/Records.lean keep (Laws/Kept.lean). -/

namespace Sys2Proof.Machine

open Sys2Proof

theorem State.writeRecord_kept {r s : State} (h : Kept r s) (j : Nat) (rec_ : List Byte) : Kept r (s.writeRecord j rec_) := by
  unfold State.writeRecord
  repeat' with_reducible
    first
    | assumption | apply State.setFld_kept | apply State.satFld_kept | apply State.modJob_kept
    | apply State.devWrite_kept | split

theorem State.flushRecords_kept {r s : State} (h : Kept r s) (j n : Nat) : Kept r (s.flushRecords j n) := by
  induction n generalizing s with
  | zero => exact h
  | succ n ih =>
    unfold State.flushRecords
    repeat' with_reducible
      first | assumption | apply ih | apply State.writeRecord_kept | apply State.modJob_kept | split

theorem State.handRecord_kept {r s : State} (h : Kept r s) (j : Nat) (rec_ : List Byte) : Kept r (s.handRecord j rec_) := by
  unfold State.handRecord
  repeat' with_reducible first | assumption | apply State.modJob_kept | apply State.flushRecords_kept | split

theorem State.handHeld_kept {r s : State} (h : Kept r s) (j : Nat) : Kept r (s.handHeld j) := by
  unfold State.handHeld
  repeat' with_reducible
    first
    | assumption | apply State.modJob_kept | apply State.handRecord_kept | refine Kept.foldl (fun s x h => ?_) ?_ _

end Sys2Proof.Machine
end

