-- ==== Sys2Proof/Laws/KeptCheckpoint.lean ====
section
/-! SUPPORT. What the operations of Machine/Checkpoint.lean keep (Laws/Kept.lean). -/

namespace Sys2Proof.Machine

open Sys2Proof

theorem State.countReads_kept {r s : State} (h : Kept r s) (sec : Bool) (rs : List (Nat × Nat)) :
    Kept r (s.countReads sec rs) := by
  unfold State.countReads
  repeat' with_reducible first | assumption | apply State.countAccess_kept | refine Kept.foldl (fun s x h => ?_) ?_ _

theorem State.countList_kept {r s : State} (h : Kept r s) (j : Nat) : Kept r (s.countList j) := by
  unfold State.countList
  repeat' with_reducible first | assumption | apply State.countReads_kept

theorem State.countSet_kept {r s : State} (h : Kept r s) (j : Nat) : Kept r (s.countSet j) := by
  unfold State.countSet
  repeat' with_reducible first | assumption | apply State.countReads_kept | apply State.countList_kept

theorem State.devWriteMarked_kept {r s : State} (h : Kept r s) (sec : Bool) (a : Nat) (d : List Byte) (bad : List Bool) :
    Kept r (s.devWriteMarked sec a d bad) := by
  unfold State.devWriteMarked
  repeat' with_reducible first | assumption | apply State.devMark_kept | apply State.devWrite_kept

theorem State.sendData_kept {r s : State} (h : Kept r s) (flows : List Nat) (rank step : Nat) (data : List Byte) (bad : List Bool) :
    Kept r (s.sendData flows rank step data bad) := by
  unfold State.sendData
  repeat' with_reducible
    first
    | assumption | apply State.flowQueue_kept | extract_lets | refine Kept.foldl (fun s x h => ?_) ?_ _

theorem State.ckResult_kept {r0 s : State} (h : Kept r0 s) (j r : Nat) : Kept r0 (s.ckResult j r) :=
  h.other

theorem State.readSet_kept {r s : State} (h : Kept r s) (j : Nat) {f : State → State} (hf : ∀ t, Kept r t → Kept r (f t)) :
    Kept r (s.readSet j f) := by
  unfold State.readSet
  repeat' with_reducible
    first
    | assumption | apply hf | apply State.countSet_kept | apply State.latchKill_kept | split | extract_lets

theorem State.putSnapshot_kept {r s : State} (h : Kept r s) (j step : Nat) (correlated : Bool) :
    Kept r (s.putSnapshot j step correlated) := by
  unfold State.putSnapshot
  repeat' with_reducible first | assumption | apply State.modJob_kept | apply State.devWrite_kept

theorem State.fillSnapshot_kept {r s : State} (h : Kept r s) (j step : Nat) (correlated : Bool) :
    Kept r (s.fillSnapshot j step correlated) := by
  unfold State.fillSnapshot
  repeat' with_reducible
    first
    | assumption | apply State.readSet_kept | apply State.putSnapshot_kept | intro _ _ _ | intro _ _ | intro _

theorem State.flashStart_kept {r s : State} (h : Kept r s) (j : Nat) : Kept r (s.flashStart j) := h.other

theorem State.leaveBoundary_kept {r s : State} (h : Kept r s) (j : Nat) : Kept r (s.leaveBoundary j) := by
  unfold State.leaveBoundary
  repeat' with_reducible
    first
    | assumption | apply State.addHold_kept | apply State.resumeJob_kept | apply State.dropHold_kept
    | apply State.checkpoint_kept | split | apply Kept.other

theorem State.ckLeave_kept {r s : State} (h : Kept r s) (j : Nat) (ok correlated : Bool) :
    Kept r (s.ckLeave j ok correlated) := by
  unfold State.ckLeave
  repeat' with_reducible
    first
    | assumption | apply State.modJob_kept | apply State.orphan_kept | apply State.handRecord_kept
    | apply State.ckShow_kept | apply State.flashStart_kept | apply State.leaveBoundary_kept | split

theorem State.ckAbort_kept {r s : State} (h : Kept r s) (j result : Nat) : Kept r (s.ckAbort j result) := by
  unfold State.ckAbort
  repeat' with_reducible first | assumption | apply State.ckFail_kept | apply State.ckLeave_kept

theorem State.ckBegin_kept {r s : State} (h : Kept r s) (j : Nat) : Kept r (s.ckBegin j) := by
  unfold State.ckBegin
  repeat' with_reducible
    first
    | assumption | apply State.setFld_kept | apply State.modJob_kept | apply State.ckShow_kept
    | apply State.sendMessage_kept | apply State.sendData_kept | apply State.readSet_kept | apply State.ckAbort_kept
    | split | extract_lets | intro _ _ _ | intro _ _ | intro _

theorem State.checkpoint_kept {r s : State} (h : Kept r s) (j : Nat) : Kept r (s.checkpoint j) := by
  unfold State.checkpoint
  repeat' with_reducible first | assumption | apply State.addHold_kept | apply State.ckBegin_kept

theorem State.whenScribe_kept {r s : State} (h : Kept r s) {a : Answer} (ha : KeptOut r a) : KeptOut r (s.whenScribe a) := by
  unfold State.whenScribe
  split
  · exact ha
  · exact h

theorem execSnapshotCopyComplete_kept {r s : State} (h : Kept r s) (j : Nat) : KeptOut r (execSnapshotCopyComplete j s) := by
  unfold execSnapshotCopyComplete
  repeat' with_reducible
    first
    | apply KeptOut.next | assumption | apply State.fillSnapshot_kept | apply State.whenScribe_kept | split

theorem State.flashFirst_kept {r s : State} (h : Kept r s) (j step : Nat) : Kept r (s.flashFirst j step) := by
  unfold State.flashFirst
  repeat' with_reducible
    first
    | assumption | apply State.setFld_kept | apply State.modJob_kept | apply State.ckShow_kept
    | apply State.readSet_kept | apply State.putSnapshot_kept | apply State.ckLeave_kept | split | extract_lets
    | intro _ _ _ | intro _ _ | intro _

theorem State.copyAcked_kept {r s : State} (h : Kept r s) (j step : Nat) (correlated : Bool) :
    Kept r (s.copyAcked j step correlated) := by
  unfold State.copyAcked
  repeat' with_reducible
    first
    | assumption | apply State.setFld_kept | apply State.post_kept | apply State.ckResult_kept
    | apply State.ckLeave_kept | apply State.flashFirst_kept | split | extract_lets

theorem execCkptAck_kept {r s : State} (h : Kept r s) (f : Nat) : KeptOut r (execCkptAck f s) := by
  unfold execCkptAck
  repeat' with_reducible
    first
    | apply KeptOut.next | assumption | apply State.modJob_kept | apply State.dropMessage_kept | apply done_kept
    | apply State.readSet_kept | apply State.putSnapshot_kept | apply State.whenScribe_kept
    | apply State.copyAcked_kept | split | extract_lets | intro _ _ _ | intro _ _ | intro _

theorem State.countHold_kept {r s : State} (h : Kept r s) (j f : Nat) : Kept r (s.countHold j f) := by
  unfold State.countHold
  repeat' with_reducible first | assumption | apply State.countReads_kept

theorem State.holdFor_kept {r s : State} (h : Kept r s) (j f : Nat) (m : List Byte) : Kept r (s.holdFor j f m).2 := by
  unfold State.holdFor
  repeat' with_reducible
    first
    | assumption | apply State.devWrite_kept | apply State.feed_kept | apply State.countHold_kept | split
    | extract_lets

theorem State.holdCommit_kept {r s : State} (h0 : Kept r s) (j f : Nat) (h : HoldIn) : Kept r (s.holdCommit j f h) := by
  unfold State.holdCommit
  repeat' with_reducible
    first
    | assumption | apply State.modJob_kept | apply State.devWrite_kept | apply State.feed_kept
    | apply State.sendMessage_kept | apply State.countReads_kept | split | extract_lets

theorem State.holdData_kept {r s : State} (h : Kept r s) (j f : Nat) (m : List Byte) (bad : List Bool) :
    Kept r (s.holdData j f m bad) := by
  unfold State.holdData
  repeat' with_reducible
    first
    | assumption | apply State.carry_kept | apply State.devWriteMarked_kept | apply State.holdFor_kept
    | apply State.holdCommit_kept | split | extract_lets

theorem execCkptData_kept {r s : State} (h : Kept r s) (f : Nat) : KeptOut r (execCkptData f s) := by
  unfold execCkptData
  repeat' with_reducible
    first
    | apply KeptOut.next | assumption | apply State.modJob_kept | apply State.dropMessage_kept | apply done_kept
    | apply State.whenScribe_kept | apply State.holdData_kept | split | extract_lets

theorem execCkptEndOfData_kept {r s : State} (h : Kept r s) (f : Nat) : KeptOut r (execCkptEndOfData f s) := by
  unfold execCkptEndOfData
  repeat' with_reducible
    first
    | apply KeptOut.next | assumption | apply State.modJob_kept | apply State.dropMessage_kept | apply done_kept
    | apply State.whenScribe_kept | apply State.holdFor_kept | apply State.holdCommit_kept | split | extract_lets

theorem State.sendHeld_kept {r s : State} (h : Kept r s) (j f k rank step : Nat) : Kept r (s.sendHeld j f k rank step) := by
  unfold State.sendHeld
  repeat' with_reducible
    first
    | assumption | apply State.sendMessage_kept | apply State.countReads_kept | apply State.sendData_kept

theorem execCkptRestoreRequest_kept {r s : State} (h : Kept r s) (f : Nat) : KeptOut r (execCkptRestoreRequest f s) := by
  unfold execCkptRestoreRequest
  refine State.whenScribe_kept h ?_
  split
  · exact h
  · rename_i m x _
    extract_lets j s1 rank step found s2
    have h1 : Kept r s1 := State.dropMessage_kept h f
    have h2 : Kept r s2 := State.countHold_kept h1 _ _
    clear_value s1 s2 found
    split
    · exact h
    · split
      · exact done_kept (State.sendMessage_kept h1 _ _)
      · cases found with
        | none => exact done_kept (State.sendMessage_kept h2 _ _)
        | some k => exact done_kept (State.sendHeld_kept h2 _ _ _ _ _)

theorem State.restoreEnd_kept {r0 s : State} (h : Kept r0 s) (j r : Nat) : Kept r0 (s.restoreEnd j r) :=
  h.other

theorem execCkptAbsent_kept {r s : State} (h : Kept r s) (f : Nat) : KeptOut r (execCkptAbsent f s) := by
  unfold execCkptAbsent
  repeat' with_reducible
    first
    | apply KeptOut.next | assumption | apply State.dropMessage_kept | apply done_kept | apply State.ckAbort_kept
    | apply State.whenScribe_kept | apply State.restoreEnd_kept | split | extract_lets

theorem foldSlots_pond (l : List (Slot × Nat)) (k : Core) :
    (l.foldl (fun k t => k.setSlot t.2 t.1) k).pond = k.pond := by
  induction l generalizing k with
  | nil => rfl
  | cons x xs ih => exact ih _

theorem State.restorePart_kept {r s : State} (h : Kept r s) (j step : Nat) (m : List Byte) :
    Kept r (s.restorePart j step m) := by
  unfold State.restorePart
  extract_lets c slots saved new s1 s2 s3
  have h1 : Kept r s1 := State.modCore_kept h _ _ fun k w => by simpa only [foldSlots_pond] using w
  have h3 : Kept r s3 :=
    State.setFld_kept (Kept.foldl (fun _ _ h => State.setReg_kept (State.setReg_kept h _ _) _ _) h1 _) _ _ _ _
  split
  · split
    · exact State.post_kept h3 _ _
    · exact h3
  · exact h3

theorem State.putRegions_kept {r s : State} (h : Kept r s) (sec : Bool) (l : List (Nat × Nat)) (d : List Byte) (bad : List Bool) :
    Kept r (s.putRegions sec l d bad) := by
  induction l generalizing s d bad with
  | nil => exact h
  | cons x xs ih => exact ih (State.devWriteMarked_kept h _ _ _ _) _ _

theorem State.restoreData_kept {r s : State} (h : Kept r s) (j step : Nat) (d : List Byte) (bad : List Bool) :
    Kept r (s.restoreData j step d bad) := by
  unfold State.restoreData
  extract_lets n parts cs rest len rec_ front s1 s2
  have h1 : Kept r s1 := Kept.foldl (fun _ _ h => State.restorePart_kept h _ _ _) h _
  exact State.putRegions_kept (State.countList_kept (State.modJob_kept h1 _ _) _) _ _ _ _

theorem State.countSnapshot_kept {r s : State} (h : Kept r s) (sec : Bool) (a n : Nat) : Kept r (s.countSnapshot sec a n) := by
  unfold State.countSnapshot
  repeat' with_reducible first | assumption | apply State.countReads_kept

theorem execCkptRestoreDataDone_kept {r s : State} (h : Kept r s) (j : Nat) : KeptOut r (execCkptRestoreDataDone j s) := by
  unfold execCkptRestoreDataDone
  repeat' with_reducible
    first
    | apply KeptOut.next | assumption | apply State.post_kept | apply State.whenScribe_kept
    | apply State.restoreEnd_kept | apply State.restoreData_kept | apply State.countSnapshot_kept | split
    | extract_lets

theorem State.checkSpare_kept {r s : State} (h : Kept r s) : Kept r s.checkSpare := by
  unfold State.checkSpare
  repeat' with_reducible first | assumption | apply State.setFld_kept | split

theorem State.retireBlocks_kept {r s : State} (h : Kept r s) (bad : Nat) : Kept r (s.retireBlocks bad) := by
  unfold State.retireBlocks
  repeat' with_reducible first | assumption | apply State.setFld_kept | apply State.satFld_kept | split | extract_lets

theorem State.wearFlash_kept {r s : State} (h : Kept r s) : Kept r s.wearFlash := by
  unfold State.wearFlash
  repeat' with_reducible first | assumption | apply State.setFld_kept | apply State.freeVal_kept | split | extract_lets

theorem State.flashCommit_kept {r s : State} (h : Kept r s) (j step : Nat) : Kept r (s.flashCommit j step) := by
  unfold State.flashCommit
  repeat' with_reducible
    first
    | assumption | apply State.setFld_kept | apply State.modJob_kept | apply State.post_kept
    | apply State.countSnapshot_kept | split | extract_lets

theorem State.flashDone_kept {r s : State} (h : Kept r s) (j step : Nat) : Kept r (s.flashDone j step) := by
  unfold State.flashDone
  repeat' with_reducible first | assumption | apply State.modJob_kept | apply State.post_kept | split | extract_lets

theorem execFlashWriteComplete_kept {r s : State} (h : Kept r s) (j bad : Nat) :
    KeptOut r (execFlashWriteComplete j bad s) := by
  unfold execFlashWriteComplete
  repeat' with_reducible
    first
    | apply KeptOut.next | assumption | apply done_kept | apply State.ckShow_kept | apply State.ckResult_kept
    | apply State.ckLeave_kept | apply State.whenScribe_kept | apply State.flashFirst_kept
    | apply State.retireBlocks_kept | apply State.wearFlash_kept | apply State.flashCommit_kept
    | apply State.flashDone_kept | split | extract_lets

end Sys2Proof.Machine
end

