-- ==== Sys2Proof/Laws/KeptCommit.lean ====
section
/-! SUPPORT. What the operations of Machine/Commit.lean keep (Laws/Kept.lean). -/

namespace Sys2Proof.Machine

open Sys2Proof

theorem State.afterCommit_kept {r s : State} (h : Kept r s) (j committed : Nat) (rec_ : List Byte) :
    Kept r (s.afterCommit j committed rec_) := by
  unfold State.afterCommit
  repeat' with_reducible
    first
    | assumption | apply State.modJob_kept | apply State.handRecord_kept | apply State.leaveBoundary_kept
    | apply State.checkpoint_kept | split | apply Kept.other

theorem State.commitJob_kept {r s : State} (h : Kept r s) (j : Nat) (v : CommitVec) : Kept r (s.commitJob j v) := by
  unfold State.commitJob
  repeat' with_reducible
    first
    | assumption | apply State.setReg_kept | apply State.setFld_kept | apply State.addFld_kept
    | apply State.modCore_kept | apply State.modJob_kept | apply State.saveObjs_kept | apply State.takeShadow_kept
    | apply State.addHold_kept | apply State.enterStep_kept | apply State.handHeld_kept | apply State.afterCommit_kept
    | exact fun _ w => w | exact fun w => h.ponds w _ | (intro _ w; simpa using w)
    | (intro w; simpa using h.ponds w _) | (intro _ w; dsimp only; split <;> simpa using w) | split | extract_lets
    | refine Kept.foldl (fun s x h => ?_) ?_ _

theorem State.recordLeave_kept {r0 s : State} (h : Kept r0 s) (j : Nat) (r : List Byte) : Kept r0 (s.recordLeave j r) := by
  unfold State.recordLeave
  repeat' with_reducible
    first
    | assumption | apply State.modJob_kept | apply State.addHold_kept | apply State.dropHold_kept
    | apply State.handRecord_kept | apply State.checkpoint_kept | split | extract_lets

theorem State.recordsGo_kept {r s : State} (h : Kept r s) (j n : Nat) : Kept r (s.recordsGo j n) := by
  induction n generalizing s with
  | zero => exact h
  | succ n ih =>
    unfold State.recordsGo
    split
    · exact h
    · split
      · exact h
      · extract_lets s1
        have h1 : Kept r s1 := State.modJob_kept h _ _
        split
        · exact State.recordLeave_kept h1 _ _
        · exact ih (State.handRecord_kept h1 _ _)

theorem State.recordFreed_kept {r s : State} (h : Kept r s) (j : Nat) : Kept r (s.recordFreed j) := by
  unfold State.recordFreed
  repeat' with_reducible first | assumption | apply State.recordsGo_kept

theorem State.sendVector_kept {r s : State} (h : Kept r s) (j : Nat) (x : Exchange) (body : List Byte) :
    Kept r (s.sendVector j x body) := by
  unfold State.sendVector
  repeat' with_reducible first | assumption | apply State.sendMessage_kept

theorem execCommitExchangeEnter_kept {r s : State} (h : Kept r s) (j : Nat) : KeptOut r (execCommitExchangeEnter j s) := by
  unfold execCommitExchangeEnter
  repeat' with_reducible
    first
    | apply KeptOut.next | assumption | apply State.modJob_kept | apply State.latchKill_kept | apply done_kept
    | apply State.commitJob_kept | apply State.sendVector_kept | split | extract_lets
    | refine Kept.of_snd (by assumption) ?_ | refine Kept.of_trd (by assumption) ?_
    | refine Kept.of_fst (by assumption) ?_
    | (apply Kept.other; first | assumption | apply State.modJob_kept | apply State.latchKill_kept | apply done_kept | apply State.commitJob_kept | apply State.sendVector_kept | split)

theorem State.commitClean_kept {r s : State} (h : Kept r s) (j : Nat) (v : CommitVec) : Kept r (s.commitClean j v) := by
  unfold State.commitClean
  repeat' with_reducible first | assumption | apply State.latchKill_kept | apply State.commitJob_kept | split

theorem State.exchangeMessage_kept {r s : State} (h : Kept r s) (j : Nat) (x : Exchange) (f : Nat) (m : List Byte) :
    Kept r (s.exchangeMessage j x f m) := by
  unfold State.exchangeMessage
  generalize headDiffers m (s.exchangeHead j x) = bad
  cases bad with
  | none =>
    dsimp only [Option.isSome]
    repeat' with_reducible
      first
      | assumption | apply State.sendVector_kept | apply State.modJob_kept | apply State.parkExchange_kept
      | apply State.commitClean_kept | refine Kept.setFree ?_ (Nat.le_add_right _ _) | split
  | some field =>
    dsimp only [Option.isSome]
    repeat' with_reducible
      first
      | assumption | apply State.sendVector_kept | apply State.modJob_kept | apply State.parkExchange_kept
      | apply State.commitClean_kept | apply State.post_kept | refine Kept.setFree ?_ (Nat.le_add_right _ _) | split

theorem execCollMessage_kept {r s : State} (h : Kept r s) (f : Nat) : KeptOut r (execCollMessage f s) := by
  unfold execCollMessage
  repeat' with_reducible
    first
    | apply KeptOut.next | assumption | apply State.dropMessage_kept | apply done_kept | apply State.collMessage_kept
    | apply State.exchangeMessage_kept | split | extract_lets

theorem execStepBarrierTimeout_kept {r s : State} (h : Kept r s) (j : Nat) : KeptOut r (execStepBarrierTimeout j s) := by
  unfold execStepBarrierTimeout
  repeat' with_reducible
    first
    | apply KeptOut.next | assumption | apply State.abortJob_kept | apply State.parkExchange_kept | apply done_kept
    | split | extract_lets

end Sys2Proof.Machine
end

