-- ==== Sys2Proof/Laws/KeptHostQueue.lean ====
section
/-! SUPPORT. What the operations of Machine/HostQueue.lean keep (Laws/Kept.lean). -/

namespace Sys2Proof.Machine

open Sys2Proof

theorem State.kill_kept {r s : State} (h : Kept r s) (j kind : Nat) (core : Option Nat) (flow addr : Nat) :
    Kept r (s.kill j kind core flow addr) := by
  unfold State.kill
  repeat' with_reducible
    first
    | assumption | apply State.modJob_kept | apply State.killJob_kept | apply State.handRecord_kept | split

theorem execPoisonKill_kept {r s : State} (h : Kept r s) (j : Nat) : KeptOut r (execPoisonKill j s) := by
  unfold execPoisonKill
  repeat' with_reducible first | apply KeptOut.next | assumption | apply done_kept | apply State.kill_kept | split

theorem State.entryDone_kept {r s : State} (h : Kept r s) (q : Nat) (m : List Byte) (status : Nat) :
    Kept r (s.entryDone q m status) := by
  unfold State.entryDone
  repeat' with_reducible first | assumption | apply State.complete_kept | split

theorem State.onEntry_kept {r s : State} (h : Kept r s) (q : Nat) (isKind : List Byte → Bool)
    {eff : List Byte → State → State} (he : ∀ m t, Kept r t → Kept r (eff m t)) : KeptOut r (s.onEntry q isKind eff) := by
  unfold State.onEntry
  repeat' with_reducible
    first
    | assumption | apply KeptOut.next | apply he | apply done_kept | apply State.latchKill_kept | apply State.complete_kept
    | apply State.entryDone_kept | apply State.setFld_kept | apply State.devRead_kept | split | refine Kept.of_trd (by assumption) ?_ | extract_lets

theorem State.enterEpochs_kept {r s : State} (h : Kept r s) (cs : List Nat) (e : BitVec 16) (wrap : Bool) :
    Kept r (s.enterEpochs cs e wrap) := by
  unfold State.enterEpochs
  repeat' with_reducible
    first
    | assumption | apply State.modCore_kept | exact fun _ w => w | exact fun w => h.ponds w _
    | (intro _ w; simpa using w) | (intro w; simpa using h.ponds w _)
    | (intro _ w; dsimp only; split <;> simpa using w) | split | extract_lets
    | refine Kept.foldl (fun s x h => ?_) ?_ _

theorem execProgram_kept {r s : State} (h : Kept r s) (q : Nat) : KeptOut r (execProgram q s) := by
  unfold execProgram
  repeat' with_reducible
    first
    | apply KeptOut.next | assumption | apply State.modHq_kept | apply State.devRead_kept | apply State.latchKill_kept
    | apply State.onEntry_kept | apply State.enterEpochs_kept | split | extract_lets | intro _ _ _ | intro _ _
    | intro _ | refine Kept.of_snd (by assumption) ?_ | refine Kept.of_trd (by assumption) ?_
    | refine Kept.of_fst (by assumption) ?_

theorem State.programDone_kept {r s : State} (h : Kept r s) (q : Nat) (m : List Byte) (cs : List Nat) (e : BitVec 16) (ws : List Word) :
    Kept r (s.programDone q m cs e ws) := by
  unfold State.programDone
  repeat' with_reducible
    first
    | assumption | apply State.modCore_kept | apply State.modHq_kept | apply State.entryDone_kept | exact fun _ w => w
    | exact fun w => h.ponds w _ | (intro _ w; simpa using w) | (intro w; simpa using h.ponds w _)
    | (intro _ w; dsimp only; split <;> simpa using w) | extract_lets | refine Kept.foldl (fun s x h => ?_) ?_ _
    | (apply Kept.other; first | assumption | apply State.modCore_kept | apply State.modHq_kept | apply State.entryDone_kept | refine Kept.foldl (fun s x h => ?_) ?_ _)

theorem execProgramComplete_kept {r s : State} (h : Kept r s) (q : Nat) : KeptOut r (execProgramComplete q s) := by
  unfold execProgramComplete
  repeat' with_reducible
    first
    | apply KeptOut.next | assumption | apply State.enterEpochs_kept | apply State.programDone_kept | split
    | extract_lets

theorem execLaunch_kept {r s : State} (h : Kept r s) (q : Nat) : KeptOut r (execLaunch q s) := by
  unfold execLaunch
  repeat' with_reducible
    first
    | apply KeptOut.next | assumption | apply State.modHq_kept | apply State.onEntry_kept | intro _ _ _ | intro _ _
    | intro _

theorem State.startSeqs_kept {r s : State} (h : Kept r s) (ms : List Nat) : Kept r (s.startSeqs ms) :=
  h.other

theorem State.startLaunch_kept {r s : State} (h : Kept r s) (q : Nat) (m : List Byte) : Kept r (s.startLaunch q m) := by
  unfold State.startLaunch
  extract_lets k job epoch a fresh s1 args pc s2 s3 s4
  have h1 : Kept r s1 := by
    unfold s1
    split
    · exact State.modJob_kept h _ _
    · exact h
  have h2 : Kept r s2 := State.startSeqs_kept (State.wake_kept h1.other _) _
  have h3 : Kept r s3 := Kept.foldl (fun _ _ h =>
    State.takeShadow_kept (State.setFld_kept (State.modCore_kept h _ _ fun _ w => by simpa using w) _ _ _ _) _) h2 _
  have h4 : Kept r s4 := State.saveObjs_kept h3 _
  split
  · exact State.enterStep_kept h4 _
  · exact h4

theorem execSpanActivate_kept {r s : State} (h : Kept r s) (q : Nat) : KeptOut r (execSpanActivate q s) := by
  unfold execSpanActivate
  repeat' with_reducible
    first
    | apply KeptOut.next | assumption | apply State.modHq_kept | apply State.post_kept | apply State.complete_kept
    | apply done_kept | apply State.startLaunch_kept | split | extract_lets

theorem State.flushCore_kept {r s : State} (h : Kept r s) (c : Nat) : Kept r (s.flushCore c) := by
  unfold State.flushCore
  refine State.modCore_kept (Kept.foldl (fun _ _ h => State.pondRecord_kept h _ _ _) ?_ _) _ _ fun _ w => w
  exact State.modCore_kept h _ _ fun _ w => Core.flushStores_wf w

theorem execLaunchEnd_kept {r s : State} (h : Kept r s) (sp : Nat) : KeptOut r (execLaunchEnd sp s) := by
  unfold execLaunchEnd
  repeat' with_reducible
    first
    | apply KeptOut.next | assumption | apply State.modJob_kept | apply State.latchKill_kept
    | apply State.endSpan_kept | apply State.writeDrain_kept | apply State.flushCore_kept | split | extract_lets
    | refine Kept.foldl (fun s x h => ?_) ?_ _

theorem execStepEntry_kept {r s : State} (h : Kept r s) (q : Nat) : KeptOut r (execStepEntry q s) := by
  unfold execStepEntry
  repeat' with_reducible
    first
    | apply KeptOut.next | assumption | apply State.modJob_kept | apply State.entryDone_kept
    | apply State.onEntry_kept | split | extract_lets | intro _ _ _ | intro _ _ | intro _

theorem State.noteReset_kept {r s : State} (h : Kept r s) (f : Nat) (reset : Bool) : Kept r (s.noteReset f reset) := by
  unfold State.noteReset
  repeat' with_reducible
    first
    | assumption | split | refine Kept.of_snd (by assumption) ?_ | refine Kept.of_trd (by assumption) ?_
    | refine Kept.of_fst (by assumption) ?_ | apply Kept.other

theorem execFlowOpen_kept {r s : State} (h : Kept r s) (q : Nat) : KeptOut r (execFlowOpen q s) := by
  unfold execFlowOpen
  repeat' with_reducible
    first
    | apply KeptOut.next | assumption | apply State.openFlow_kept | apply State.entryDone_kept
    | apply State.onEntry_kept | apply State.noteReset_kept | split | extract_lets | intro _ _ _ | intro _ _ | intro _

theorem execFlowClose_kept {r s : State} (h : Kept r s) (q : Nat) : KeptOut r (execFlowClose q s) := by
  unfold execFlowClose
  repeat' with_reducible
    first
    | apply KeptOut.next | assumption | apply State.closeFlow_kept | apply State.entryDone_kept
    | apply State.onEntry_kept | split | intro _ _ _ | intro _ _ | intro _

theorem execFlowReset_kept {r s : State} (h : Kept r s) (q : Nat) : KeptOut r (execFlowReset q s) := by
  unfold execFlowReset
  repeat' with_reducible
    first
    | apply KeptOut.next | assumption | apply State.openFlow_kept | apply State.entryDone_kept
    | apply State.onEntry_kept | apply State.noteReset_kept | split | extract_lets | intro _ _ _ | intro _ _ | intro _

theorem execKill_kept {r s : State} (h : Kept r s) (q : Nat) : KeptOut r (execKill q s) := by
  unfold execKill
  repeat' with_reducible
    first
    | apply KeptOut.next | assumption | apply State.kill_kept | apply State.entryDone_kept | apply State.onEntry_kept
    | split | intro _ _ _ | intro _ _ | intro _

theorem execResume_kept {r s : State} (h : Kept r s) (q : Nat) : KeptOut r (execResume q s) := by
  unfold execResume
  repeat' with_reducible
    first
    | apply KeptOut.next | assumption | apply State.dropHold_kept | apply State.unpark_kept
    | apply State.enterStep_kept | apply State.entryDone_kept | apply State.onEntry_kept | split | extract_lets
    | intro _ _ _ | intro _ _ | intro _

theorem execFence_kept {r s : State} (h : Kept r s) (q : Nat) : KeptOut r (execFence q s) := by
  unfold execFence
  repeat' with_reducible
    first
    | apply KeptOut.next | assumption | apply State.modHq_kept | apply State.entryDone_kept | apply State.onEntry_kept
    | split | intro _ _ _ | intro _ _ | intro _

theorem execNopEntry_kept {r s : State} (h : Kept r s) (q : Nat) : KeptOut r (execNopEntry q s) := by
  unfold execNopEntry
  repeat' with_reducible
    first
    | apply KeptOut.next | assumption | apply State.entryDone_kept | apply State.onEntry_kept | intro _ _ _
    | intro _ _ | intro _

end Sys2Proof.Machine
end

