-- ==== Sys2Proof/Laws/KeptTimeouts.lean ====
section
/-! SUPPORT. What the operations of Machine/Timeouts.lean keep (Laws/Kept.lean). -/

namespace Sys2Proof.Machine

open Sys2Proof

theorem State.postTimeout_kept {r s : State} (h0 : Kept r s) (h : EventHead) (secret : Bool) (value cls object flow rank operand : Nat) :
    Kept r (s.postTimeout h secret value cls object flow rank operand) := by
  unfold State.postTimeout
  repeat' with_reducible
    first
    | assumption | apply State.addFld_kept | apply State.postAs_kept | apply State.post_kept | split

theorem execFlagTimeout_kept {r s : State} (h : Kept r s) (c : Nat) (eng : Option Nat) :
    KeptOut r (execFlagTimeout c eng s) := by
  unfold execFlagTimeout
  repeat' with_reducible
    first
    | apply KeptOut.next | assumption | apply State.modCore_kept | apply State.postTimeout_kept | exact fun _ w => w
    | exact fun w => h.ponds w _ | (intro _ w; simpa using w) | (intro w; simpa using h.ponds w _) | split
    | extract_lets

theorem State.waitTimeout_kept {r s : State} (h : Kept r s) (c cls n : Nat) (rd : BitVec 5) (operand : Nat) :
    Kept r (s.waitTimeout c cls n rd operand) := by
  unfold State.waitTimeout
  repeat' with_reducible
    first
    | assumption | apply State.modCore_kept | apply State.postTimeout_kept | exact fun _ w => w
    | exact fun w => h.ponds w _ | (intro _ w; simpa using w) | (intro w; simpa using h.ponds w _)
    | (intro _ w; dsimp only; split <;> simpa using w) | extract_lets
    | (apply Kept.other; first | assumption | apply State.modCore_kept | apply State.postTimeout_kept)

theorem execCounterTimeout_kept {r s : State} (h : Kept r s) (c : Nat) : KeptOut r (execCounterTimeout c s) := by
  unfold execCounterTimeout
  repeat' with_reducible
    first
    | apply KeptOut.next | assumption | apply State.releaseWait_kept | apply State.waitTimeout_kept | split

theorem execSluiceTimeout_kept {r s : State} (h : Kept r s) (c : Nat) : KeptOut r (execSluiceTimeout c s) := by
  unfold execSluiceTimeout
  repeat' with_reducible
    first
    | apply KeptOut.next | assumption | apply State.releaseWait_kept | apply State.waitTimeout_kept | split

theorem execTokenTimeout_kept {r s : State} (h : Kept r s) (n : Nat) : KeptOut r (execTokenTimeout n s) := by
  unfold execTokenTimeout
  repeat' with_reducible
    first
    | apply KeptOut.next | assumption | apply State.modObj_kept | apply State.postTimeout_kept | split | extract_lets

theorem State.ckStalled_kept {r s : State} (h : Kept r s) (f : Nat) : Kept r (s.ckStalled f) := by
  unfold State.ckStalled
  extract_lets j
  split
  · split
    · exact State.ckAbort_kept h _ _
    · exact h
  · split
    · exact State.restoreEnd_kept h _ _
    · exact h
  · exact h

theorem execFlowRetransmitTimeout_kept {r s : State} (h : Kept r s) (f : Nat) : KeptOut r (execFlowRetransmitTimeout f s) := by
  unfold execFlowRetransmitTimeout
  repeat' with_reducible
    first
    | apply KeptOut.next | assumption | apply State.setFld_kept | apply State.satFld_kept | apply State.modFlow_kept
    | apply State.postFlow_kept | apply State.resend_kept | apply done_kept | apply State.ckStalled_kept | split
    | extract_lets

theorem execFlowProbeTimeout_kept {r s : State} (h : Kept r s) (f : Nat) : KeptOut r (execFlowProbeTimeout f s) := by
  unfold execFlowProbeTimeout
  repeat' with_reducible
    first
    | apply KeptOut.next | assumption | apply State.sendFack_kept | apply done_kept | split | extract_lets

theorem execFlowLateTimeout_kept {r s : State} (h : Kept r s) (f : Nat) : KeptOut r (execFlowLateTimeout f s) := by
  unfold execFlowLateTimeout
  split
  · exact h
  · extract_lets x coll s1 s2
    have h2 : Kept r s2 := by
      unfold s2 s1
      repeat' with_reducible
        first | assumption | apply State.postFlow_kept | apply State.modFlow_kept | apply State.satFld_kept | split
    clear_value coll s2
    split
    · exact h
    · split
      · exact done_kept (State.abortJob_kept h2 _ _ _)
      · exact done_kept h2

end Sys2Proof.Machine
end

