-- ==== Sys2Proof/Laws/KeptFabric.lean ====
section
/-! SUPPORT. What the operations of Machine/Fabric.lean keep (Laws/Kept.lean). -/

namespace Sys2Proof.Machine

open Sys2Proof

theorem State.takeFrame_kept {r s : State} (h : Kept r s) (p : Nat) (f : Flit) : Kept r (s.takeFrame p f) := by
  unfold State.takeFrame
  repeat' with_reducible first | assumption | apply State.counted_kept | apply State.frameArrives_kept

theorem execFlitData_kept {r s : State} (h : Kept r s) (p : Nat) (f : Flit) : KeptOut r (execFlitData p f s) := by
  unfold execFlitData
  repeat' with_reducible
    first
    | apply KeptOut.next | assumption | apply State.counted_kept | apply State.linkViolation_kept
    | apply State.takeAck_kept | apply done_kept | apply State.takeFrame_kept | split

theorem execFlitFack_kept {r s : State} (h : Kept r s) (p : Nat) (f : Flit) : KeptOut r (execFlitFack p f s) := by
  unfold execFlitFack
  repeat' with_reducible first | apply KeptOut.next | assumption | apply done_kept | apply State.takeFrame_kept | split

theorem execFlitToken_kept {r s : State} (h : Kept r s) (p : Nat) (f : Flit) : KeptOut r (execFlitToken p f s) := by
  unfold execFlitToken
  repeat' with_reducible first | apply KeptOut.next | assumption | apply done_kept | apply State.takeFrame_kept | split

theorem execAttemptMarker_kept {r s : State} (h : Kept r s) (p : Nat) (f : Flit) : KeptOut r (execAttemptMarker p f s) := by
  unfold execAttemptMarker
  repeat' with_reducible first | apply KeptOut.next | assumption | apply done_kept | apply State.takeFrame_kept | split

theorem State.replayLimit_kept {r s : State} (h : Kept r s) (p n : Nat) : Kept r (s.replayLimit p n) := by
  unfold State.replayLimit
  repeat' with_reducible first | assumption | apply State.retrain_kept | split

theorem State.hostResend_kept {r s : State} (h : Kept r s) (k : Nat) : Kept r (s.hostResend k) := by
  unfold State.hostResend
  repeat' with_reducible
    first
    | assumption | apply State.satFld_kept | extract_lets
    | (apply Kept.other; first | assumption | apply State.satFld_kept)

theorem State.hostReplay_kept {r s : State} (h : Kept r s) (k : Nat) : Kept r (s.hostReplay k) := by
  unfold State.hostReplay
  repeat' with_reducible first | assumption | apply State.replayLimit_kept | apply State.hostResend_kept

theorem execFlitLnak_kept {r s : State} (h : Kept r s) (p : Nat) (f : Flit) : KeptOut r (execFlitLnak p f s) := by
  unfold execFlitLnak
  repeat' with_reducible
    first
    | apply KeptOut.next | assumption | apply State.counted_kept | apply State.portPump_kept
    | apply State.replayFrom_kept | apply State.ackOnly_kept | apply done_kept | apply State.replayLimit_kept | split
    | extract_lets

theorem State.hostLnakOut_kept {r s : State} (h : Kept r s) : Kept r (s.hostLnakOut) := h.other

theorem State.hostNakAgain_kept {r s : State} (h : Kept r s) : Kept r (s.hostNakAgain) := by
  unfold State.hostNakAgain
  repeat' with_reducible
    first
    | assumption | apply State.freeVal_kept | apply State.hostLnakOut_kept | split | extract_lets
    | refine Kept.of_snd (by assumption) ?_ | refine Kept.of_trd (by assumption) ?_
    | refine Kept.of_fst (by assumption) ?_

theorem State.lnakOut_kept {r s : State} (h : Kept r s) (p : Nat) : Kept r (s.lnakOut p) := by
  unfold State.lnakOut
  repeat' with_reducible first | assumption | apply State.sendLnak_kept | apply State.hostLnakOut_kept | split

theorem execFlitCrcFail_kept {r s : State} (h : Kept r s) (p : Nat) : KeptOut r (execFlitCrcFail p s) := by
  unfold execFlitCrcFail
  repeat' with_reducible
    first
    | apply KeptOut.next | assumption | apply State.satFld_kept | apply State.modPort_kept | apply State.sendLnak_kept
    | apply State.nakAgain_kept | apply State.hostLnakOut_kept | apply State.hostNakAgain_kept | split | extract_lets
    | (apply Kept.other; first | assumption | apply State.satFld_kept | apply State.modPort_kept | apply State.sendLnak_kept | apply State.nakAgain_kept | apply State.hostLnakOut_kept | apply State.hostNakAgain_kept | split)

theorem execLinkReplayTimeout_kept {r s : State} (h : Kept r s) (p : Nat) : KeptOut r (execLinkReplayTimeout p s) := by
  unfold execLinkReplayTimeout
  repeat' with_reducible
    first
    | apply KeptOut.next | assumption | apply State.replayFrom_kept | apply State.replayLimit_kept
    | apply State.hostReplay_kept | split

theorem State.sendHostCredit_kept {r s : State} (h : Kept r s) : Kept r (s.sendHostCredit) := by
  unfold State.sendHostCredit
  repeat' with_reducible first | assumption | apply State.hostSend_kept | split | extract_lets

theorem execLcreditInterval_kept {r s : State} (h : Kept r s) (p : Nat) : KeptOut r (execLcreditInterval p s) := by
  unfold execLcreditInterval
  repeat' with_reducible
    first
    | apply KeptOut.next | assumption | apply State.sendLcredit_kept | apply State.sendHostCredit_kept | split

theorem State.takeEarly_kept {r s : State} (h : Kept r s) (p : Nat) (f : Flit) : Kept r (s.takeEarly p f) := by
  unfold State.takeEarly
  repeat' with_reducible first | assumption | apply State.modPort_kept | apply State.takeAck_kept

theorem State.lmgt_kept {r s : State} (h : Kept r s) (p : Nat) (f : Flit) (k : Nat) {eff : State → State}
    (he : ∀ t, Kept r t → Kept r (eff t)) : KeptOut r (s.lmgt p f k eff) := by
  unfold State.lmgt
  split
  · extract_lets s1 early again
    have h1 : Kept r s1 := State.counted_kept h _ _
    clear_value s1
    have ht : Kept r (if p = 8 then (true, s1) else if early then (true, s1.takeEarly p f) else s1.acceptSeq p f).2 := by
      split
      · exact h1
      · split
        · exact State.takeEarly_kept h1 _ _
        · exact State.acceptSeq_kept h1 _ _
    revert ht
    generalize (if p = 8 then (true, s1) else if early then (true, s1.takeEarly p f) else s1.acceptSeq p f) = x
    obtain ⟨ok, t⟩ := x
    intro ht
    simp only at ht ⊢
    repeat' with_reducible
      first
      | assumption | apply he | apply done_kept | apply State.sendLmgt_kept | apply State.linkViolation_kept
      | apply State.modPort_kept | split
  · exact h

theorem execLcredit_kept {r s : State} (h : Kept r s) (p : Nat) (f : Flit) : KeptOut r (execLcredit p f s) := by
  unfold execLcredit
  repeat' with_reducible
    first
    | apply KeptOut.next | assumption | apply State.modPort_kept | apply State.portPump_kept
    | apply State.linkGood_kept | apply State.lmgt_kept | split | extract_lets | intro _ _ _ | intro _ _ | intro _

theorem execNack_kept {r s : State} (h : Kept r s) (p : Nat) (f : Flit) : KeptOut r (execNack p f s) := by
  unfold execNack
  repeat' with_reducible
    first
    | apply KeptOut.next | assumption | apply State.sendLmgt_kept | apply State.linkViolation_kept
    | apply State.linkGood_kept | apply State.lmgt_kept | split | extract_lets | intro _ _ _ | intro _ _ | intro _

theorem State.postDegraded_kept {r s : State} (h : Kept r s) (tx : Bool) (p : Nat) : Kept r (s.postDegraded tx p) := by
  unfold State.postDegraded
  repeat' with_reducible first | assumption | apply State.postLink_kept

theorem State.portDark_kept {r s : State} (h : Kept r s) (p st : Nat) : Kept r (s.portDark p st) := by
  unfold State.portDark
  repeat' with_reducible
    first
    | assumption | apply State.setFld_kept | apply State.modPort_kept | apply State.setWave_kept
    | apply State.freeRelay_kept | split | refine Kept.foldl (fun s x h => ?_) ?_ _ | apply Kept.other

theorem State.portStart_kept {r s : State} (h : Kept r s) (p : Nat) (fast : Bool) : Kept r (s.portStart p fast) := by
  unfold State.portStart
  repeat' with_reducible
    first
    | assumption | apply State.setFld_kept | apply State.modPort_kept | apply State.portDark_kept

theorem State.nextPort_kept {r s : State} (h : Kept r s) : Kept r (s.nextPort) := by
  unfold State.nextPort
  repeat' with_reducible first | assumption | apply State.portStart_kept | split

theorem State.firstDone_kept {r s : State} (h : Kept r s) (p : Nat) : Kept r (s.firstDone p) := by
  unfold State.firstDone
  repeat' with_reducible first | assumption | apply State.modPort_kept | apply State.nextPort_kept

theorem State.portDown_kept {r s : State} (h : Kept r s) (p : Nat) : Kept r (s.portDown p) := by
  unfold State.portDown
  repeat' with_reducible
    first
    | assumption | apply State.postLink_kept | apply State.portDark_kept | apply State.firstDone_kept

theorem State.attemptFails_kept {r s : State} (h : Kept r s) (p : Nat) : Kept r (s.attemptFails p) := by
  unfold State.attemptFails
  repeat' with_reducible
    first
    | assumption | apply State.setFld_kept | apply State.modPort_kept | apply State.firstDone_kept
    | apply State.portDown_kept | split | apply Kept.other

theorem State.portUp_kept {r s : State} (h : Kept r s) (p : Nat) : Kept r (s.portUp p) := by
  unfold State.portUp
  repeat' with_reducible
    first
    | assumption | apply State.setFld_kept | apply State.modPort_kept | apply State.hostPump_kept
    | apply State.portPump_kept | apply State.replayFrom_kept | apply State.postLink_kept
    | apply State.hostResend_kept | apply State.postDegraded_kept | apply State.firstDone_kept | split | extract_lets
    | (apply Kept.other; first | assumption | apply State.setFld_kept | apply State.modPort_kept | apply State.hostPump_kept | apply State.portPump_kept | apply State.replayFrom_kept | apply State.postLink_kept | apply State.hostResend_kept | apply State.postDegraded_kept | apply State.firstDone_kept | split)

theorem State.sendWidth_kept {r s : State} (h : Kept r s) (p n : Nat) : Kept r (s.sendWidth p n) := by
  unfold State.sendWidth
  repeat' with_reducible
    first
    | assumption | apply State.hostSend_kept | apply State.sendLmgt_kept | apply State.hostEmit_kept | split

theorem State.bankUp_kept {r s : State} (h : Kept r s) (p : Nat) : Kept r (s.bankUp p) := h.other

theorem State.greet_kept {r s : State} (h : Kept r s) (p : Nat) : Kept r (s.greet p) := by
  unfold State.greet
  repeat' with_reducible
    first
    | assumption | apply State.sendHello_kept | apply State.sendWidth_kept | split | extract_lets

theorem State.fitTx_kept {r s : State} (h : Kept r s) (p : Nat) : Kept r (s.fitTx p) := by
  unfold State.fitTx
  repeat' with_reducible
    first
    | assumption | apply State.modPort_kept | apply State.assignTx_kept | apply State.portDown_kept
    | apply State.greet_kept | split | extract_lets
    | (apply Kept.other; first | assumption | apply State.modPort_kept | apply State.assignTx_kept | apply State.portDown_kept | apply State.greet_kept | split)

theorem State.bankReady_kept {r s : State} (h : Kept r s) (p : Nat) : Kept r (s.bankReady p) := by
  unfold State.bankReady
  repeat' with_reducible first | assumption | apply State.bankUp_kept | split

theorem execTrainingStateComplete_kept {r s : State} (h : Kept r s) (p : Nat) : KeptOut r (execTrainingStateComplete p s) := by
  unfold execTrainingStateComplete
  repeat' with_reducible
    first
    | apply KeptOut.next | assumption | apply State.setFld_kept | apply State.modPort_kept | apply State.assignTx_kept
    | apply State.assignRx_kept | apply done_kept | apply State.portUp_kept | apply State.greet_kept
    | apply State.fitTx_kept | apply State.bankReady_kept | split | extract_lets

theorem execTrainingStateTimeout_kept {r s : State} (h : Kept r s) (p : Nat) : KeptOut r (execTrainingStateTimeout p s) := by
  unfold execTrainingStateTimeout
  repeat' with_reducible
    first
    | apply KeptOut.next | assumption | apply done_kept | apply State.attemptFails_kept | split | extract_lets

theorem execDownRetry_kept {r s : State} (h : Kept r s) (p : Nat) : KeptOut r (execDownRetry p s) := by
  unfold execDownRetry
  repeat' with_reducible first | apply KeptOut.next | assumption | apply State.portStart_kept | split

theorem State.setWidth_kept {r s : State} (h : Kept r s) (tx : Bool) (p n : Nat) : Kept r (s.setWidth tx p n) := by
  unfold State.setWidth
  repeat' with_reducible
    first
    | assumption | apply State.setFld_kept | apply State.modPort_kept | apply State.retrain_kept
    | apply State.postDegraded_kept | split | extract_lets

theorem State.checkWidth_kept {r s : State} (h : Kept r s) (tx : Bool) (p : Nat) : Kept r (s.checkWidth tx p) := by
  unfold State.checkWidth
  repeat' with_reducible
    first
    | assumption | apply State.portDown_kept | apply State.sendWidth_kept | apply State.setWidth_kept | split
    | extract_lets

theorem State.takeWidth_kept {r s : State} (h : Kept r s) (p n : Nat) : Kept r (s.takeWidth p n) := by
  unfold State.takeWidth
  repeat' with_reducible
    first
    | assumption | apply State.modPort_kept | apply State.assign_kept | apply State.setWidth_kept | split
    | extract_lets

theorem execLmgtWidth_kept {r s : State} (h : Kept r s) (p : Nat) (f : Flit) : KeptOut r (execLmgtWidth p f s) := by
  unfold execLmgtWidth
  repeat' with_reducible
    first
    | apply KeptOut.next | assumption | apply State.linkGood_kept | apply State.lmgt_kept | apply State.takeWidth_kept
    | split | extract_lets | intro _ _ _ | intro _ _ | intro _

theorem execLmgtRetrain_kept {r s : State} (h : Kept r s) (p : Nat) (f : Flit) : KeptOut r (execLmgtRetrain p f s) := by
  unfold execLmgtRetrain
  repeat' with_reducible
    first
    | apply KeptOut.next | assumption | apply State.enterRetrain_kept | apply State.linkGood_kept
    | apply State.lmgt_kept | split | intro _ _ _ | intro _ _ | intro _
    | (apply Kept.other; first | assumption | apply State.enterRetrain_kept | apply State.linkGood_kept | apply State.lmgt_kept | split)

theorem State.takeMap_kept {r s : State} (h : Kept r s) (p : Nat) (f : Flit) : Kept r (s.takeMap p f) := by
  unfold State.takeMap
  repeat' with_reducible first | assumption | apply State.setReg_kept

theorem execHello_kept {r s : State} (h : Kept r s) (p : Nat) (f : Flit) : KeptOut r (execHello p f s) := by
  unfold execHello
  repeat' with_reducible
    first
    | apply KeptOut.next | assumption | apply State.setFld_kept | apply State.modPort_kept | apply State.retrain_kept
    | apply State.linkGood_kept | apply State.lmgt_kept | apply State.takeMap_kept | split | extract_lets
    | intro _ _ _ | intro _ _ | intro _

theorem State.sendSwapReq_kept {r s : State} (h : Kept r s) (p : Nat) (x : Swap) : Kept r (s.sendSwapReq p x) := by
  unfold State.sendSwapReq
  repeat' with_reducible first | assumption | apply State.freeVal_kept | apply State.sendLmgt_kept

theorem State.moveLane_kept {r s : State} (h : Kept r s) (tx : Bool) (p lane w : Nat) : Kept r (s.moveLane tx p lane w) := by
  unfold State.moveLane
  repeat' with_reducible
    first
    | assumption | apply State.modPort_kept | apply State.setWave_kept | apply State.postLink_kept | split
    | extract_lets

theorem State.dropSwap_kept {r s : State} (h : Kept r s) (p : Nat) (x : Swap) : Kept r (s.dropSwap p x) := by
  unfold State.dropSwap
  repeat' with_reducible first | assumption | apply State.modPort_kept | apply State.lnakOut_kept | split | extract_lets

theorem State.replaceSwap_kept {r s : State} (h : Kept r s) (p : Nat) (x y : Swap) : Kept r (s.replaceSwap p x y) :=
  h.other

theorem State.serveAsked_kept {r s : State} (h : Kept r s) (p : Nat) (x : Swap) : Kept r (s.serveAsked p x).2 := by
  unfold State.serveAsked
  repeat' with_reducible
    first
    | assumption | apply State.sendLmgt_kept | apply State.moveLane_kept | apply State.dropSwap_kept
    | apply State.replaceSwap_kept | split | extract_lets

theorem State.serveOwn_kept {r s : State} (h : Kept r s) (p : Nat) (x : Swap) : Kept r (s.serveOwn p x).2 := by
  unfold State.serveOwn
  repeat' with_reducible
    first
    | assumption | apply State.setWave_kept | apply State.checkWidth_kept | apply State.sendSwapReq_kept
    | apply State.dropSwap_kept | apply State.replaceSwap_kept | split | extract_lets

theorem State.beginSwap_kept {r s : State} (h : Kept r s) (tx : Bool) (p n : Nat) : Kept r (s.beginSwap tx p n) := by
  induction n generalizing s with
  | zero => exact h
  | succ n ih =>
    unfold State.beginSwap
    split
    · exact h
    · rename_i x _
      split
      · exact h
      · have h1 : Kept r (if x.asked then s.serveAsked p x else s.serveOwn p x).2 := by
          split
          · exact State.serveAsked_kept h _ _
          · exact State.serveOwn_kept h _ _
        revert h1
        cases (if x.asked then s.serveAsked p x else s.serveOwn p x) with
        | mk gone t =>
          intro h1
          dsimp only at h1 ⊢
          split
          · exact ih h1
          · exact h1

theorem State.nextSwap_kept {r s : State} (h : Kept r s) (tx : Bool) (p : Nat) : Kept r (s.nextSwap tx p) := by
  unfold State.nextSwap
  repeat' with_reducible first | assumption | apply State.beginSwap_kept

theorem State.addSwap_kept {r s : State} (h : Kept r s) (p : Nat) (x : Swap) : Kept r (s.addSwap p x) := by
  unfold State.addSwap
  repeat' with_reducible first | assumption | apply State.modPort_kept | apply State.nextSwap_kept | split

theorem State.endSwap_kept {r s : State} (h : Kept r s) (p : Nat) (x : Swap) : Kept r (s.endSwap p x) := by
  unfold State.endSwap
  repeat' with_reducible first | assumption | apply State.dropSwap_kept | apply State.nextSwap_kept

theorem execRingMarginLow_kept {r s : State} (h : Kept r s) (p lane : Nat) : KeptOut r (execRingMarginLow p lane s) := by
  unfold execRingMarginLow
  repeat' with_reducible first | apply KeptOut.next | assumption | apply State.addSwap_kept | split

theorem execAbruptLoss_kept {r s : State} (h : Kept r s) (p lane : Nat) : KeptOut r (execAbruptLoss p lane s) := by
  unfold execAbruptLoss
  repeat' with_reducible first | apply KeptOut.next | assumption | apply done_kept | apply State.addSwap_kept | split

theorem execSwapReq_kept {r s : State} (h : Kept r s) (p : Nat) (f : Flit) : KeptOut r (execSwapReq p f s) := by
  unfold execSwapReq
  repeat' with_reducible
    first
    | apply KeptOut.next | assumption | apply State.linkGood_kept | apply State.lmgt_kept | apply State.addSwap_kept
    | extract_lets | intro _ _ _ | intro _ _ | intro _

theorem execSwapAck_kept {r s : State} (h : Kept r s) (p : Nat) (f : Flit) : KeptOut r (execSwapAck p f s) := by
  unfold execSwapAck
  repeat' with_reducible
    first
    | apply KeptOut.next | assumption | apply State.modPort_kept | apply State.linkGood_kept | apply State.lmgt_kept
    | apply State.moveLane_kept | apply State.replaceSwap_kept | apply State.endSwap_kept | split | extract_lets
    | intro _ _ _ | intro _ _ | intro _

theorem execSwapSwitch_kept {r s : State} (h : Kept r s) (p : Nat) : KeptOut r (execSwapSwitch p s) := by
  unfold execSwapSwitch
  repeat' with_reducible
    first
    | apply KeptOut.next | assumption | apply done_kept | apply State.moveLane_kept | apply State.endSwap_kept | split
    | extract_lets

theorem execLaneSwapTimeout_kept {r s : State} (h : Kept r s) (p : Nat) : KeptOut r (execLaneSwapTimeout p s) := by
  unfold execLaneSwapTimeout
  repeat' with_reducible first | apply KeptOut.next | assumption | apply State.retrain_kept | apply done_kept | split

theorem State.waveDark_kept {r s : State} (h : Kept r s) (p w : Nat) : Kept r (s.waveDark p w) := by
  unfold State.waveDark
  repeat' with_reducible
    first
    | assumption | apply State.modPort_kept | apply State.setWave_kept | apply State.fitTx_kept
    | apply State.checkWidth_kept | split | extract_lets
    | (apply Kept.other; first | assumption | apply State.modPort_kept | apply State.setWave_kept | apply State.fitTx_kept | apply State.checkWidth_kept | split)

theorem execSourceFailure_kept {r s : State} (h : Kept r s) (p w : Nat) : KeptOut r (execSourceFailure p w s) := by
  unfold execSourceFailure
  repeat' with_reducible
    first
    | apply KeptOut.next | assumption | apply State.setFld_kept | apply State.modPort_kept | apply done_kept
    | apply State.waveDark_kept | split | extract_lets

theorem execSpareTuningComplete_kept {r s : State} (h : Kept r s) (p : Nat) : KeptOut r (execSpareTuningComplete p s) := by
  unfold execSpareTuningComplete
  repeat' with_reducible
    first
    | apply KeptOut.next | assumption | apply State.setFld_kept | apply State.modPort_kept | apply State.setWave_kept
    | apply State.sendHello_kept | apply State.postLink_kept | split | extract_lets

theorem execSpareTuningTimeout_kept {r s : State} (h : Kept r s) (p : Nat) : KeptOut r (execSpareTuningTimeout p s) := by
  unfold execSpareTuningTimeout
  repeat' with_reducible
    first
    | apply KeptOut.next | assumption | apply State.setFld_kept | apply State.modPort_kept | split

end Sys2Proof.Machine
end

