-- ==== Sys2Proof/Laws/KeptRegisters.lean ====
section
/-! SUPPORT. What the operations of Machine/Registers.lean keep (Laws/Kept.lean). -/

namespace Sys2Proof.Machine

open Sys2Proof

theorem State.regRead_kept {r s : State} (h : Kept r s) (sec : Bool) (a : Nat) : Kept r (s.regRead sec a).2 := by
  unfold State.regRead
  repeat' with_reducible first | assumption | apply State.blockAccess_kept | split

theorem State.storeReg_kept {r s : State} (h : Kept r s) (sec : Bool) (a : Nat) (w : Reg) : Kept r (s.storeReg sec a w) := by
  have h1 (c n : Nat) (f : Slot → Slot) : Kept r (s.modCore c fun k => k.setSlot n (f (k.slot n))) :=
    State.modCore_kept h _ _ fun _ w => w
  delta State.storeReg
  generalize regDesc a = o
  cases o with
  | none => exact h
  | some d =>
    dsimp only
    split
    · exact h1 _ _ fun t => t.setReg _ _
    · exact State.setReg_kept h _ _

theorem State.onWrite_kept {r s : State} (h : Kept r s) (sec : Bool) (a : Nat) {eff : State → State}
    (he : ∀ t, Kept r t → Kept r (eff t)) : Kept r (s.onWrite sec a eff) := by
  unfold State.onWrite
  repeat' with_reducible first | assumption | apply he | apply State.blockAccess_kept | split

end Sys2Proof.Machine
end

