-- ==== Sys2Proof/Laws/KeptWrites.lean ====
section
/-! SUPPORT. What the operations of Machine/Writes.lean keep (Laws/Kept.lean). -/

namespace Sys2Proof.Machine

open Sys2Proof

theorem State.countViolation_kept {r s : State} (h : Kept r s) (c : Nat) : Kept r (s.countViolation c) := by
  unfold State.countViolation
  repeat' with_reducible first | assumption | apply State.satFld_kept | apply State.post_kept | split | apply Kept.other

theorem State.hostViolation_kept {r s : State} (h : Kept r s) (c : Nat) : Kept r (s.hostViolation c) := by
  unfold State.hostViolation
  repeat' with_reducible
    first
    | assumption | apply State.retrain_kept | apply State.countViolation_kept | split | apply Kept.other

theorem State.hostGood_kept {r s : State} (h : Kept r s) : Kept r (s.hostGood) := by
  unfold State.hostGood
  repeat' with_reducible first | assumption | split | (apply Kept.other; first | assumption | split)

theorem State.queueViolation_kept {r s : State} (h : Kept r s) (q : Nat) : Kept r (s.queueViolation q) := by
  unfold State.queueViolation
  repeat' with_reducible
    first
    | assumption | apply State.setFld_kept | apply State.modHq_kept | apply State.post_kept
    | apply State.hostViolation_kept | split | apply Kept.other

theorem State.doorbell_kept {r s : State} (h : Kept r s) (q t : Nat) : Kept r (s.doorbell q t) := by
  unfold State.doorbell
  repeat' with_reducible
    first
    | assumption | apply State.setFld_kept | apply State.modHq_kept | apply State.queueViolation_kept | split

theorem State.cqHeadWrite_kept {r s : State} (h : Kept r s) (q w : Nat) : Kept r (s.cqHeadWrite q w) := by
  unfold State.cqHeadWrite
  repeat' with_reducible
    first
    | assumption | apply State.setFld_kept | apply State.modHq_kept | apply State.sendMsg_kept
    | apply State.cqFlush_kept | split

theorem State.hqptrWrite_kept {r s : State} (h : Kept r s) (q : Nat) (v : Reg) : Kept r (s.hqptrWrite q v) := by
  unfold State.hqptrWrite
  repeat' with_reducible first | assumption | apply State.doorbell_kept | apply State.cqHeadWrite_kept

theorem execHqptrWrite_kept {r s : State} (h : Kept r s) (sec : Bool) (q : Nat) (v : BitVec 64) :
    KeptOut r (execHqptrWrite sec q v s) := by
  unfold execHqptrWrite
  repeat' with_reducible
    first
    | apply KeptOut.next | assumption | apply State.onWrite_kept | apply State.hqptrWrite_kept | intro _ _ _
    | intro _ _ | intro _

theorem State.hqcfgWrite_kept {r s : State} (h : Kept r s) (sec : Bool) (q : Nat) (v : Reg) :
    Kept r (s.hqcfgWrite sec q v) := by
  unfold State.hqcfgWrite
  repeat' with_reducible
    first
    | assumption | apply State.setFld_kept | apply State.modJob_kept | apply State.modHq_kept
    | apply State.storeReg_kept | split | apply Kept.other

theorem execHqcfgWrite_kept {r s : State} (h : Kept r s) (sec : Bool) (q : Nat) (v : BitVec 64) :
    KeptOut r (execHqcfgWrite sec q v s) := by
  unfold execHqcfgWrite
  repeat' with_reducible
    first
    | apply KeptOut.next | assumption | apply State.onWrite_kept | apply State.hqcfgWrite_kept | intro _ _ _
    | intro _ _ | intro _

theorem State.ringHeadWrite_kept {r s : State} (h : Kept r s) (log : Bool) (w : Nat) : Kept r (s.ringHeadWrite log w) := by
  unfold State.ringHeadWrite
  repeat' with_reducible
    first
    | assumption | apply State.setFld_kept | apply State.sendMsg_kept | apply State.drainPending_kept | split
    | refine Kept.of_snd (by assumption) ?_ | refine Kept.of_trd (by assumption) ?_
    | refine Kept.of_fst (by assumption) ?_ | apply Kept.other

theorem execEvptrWrite_kept {r s : State} (h : Kept r s) (sec : Bool) (v : BitVec 64) : KeptOut r (execEvptrWrite sec v s) := by
  unfold execEvptrWrite
  repeat' with_reducible
    first
    | apply KeptOut.next | assumption | apply State.onWrite_kept | apply State.ringHeadWrite_kept | intro _ _ _
    | intro _ _ | intro _

theorem execLogptrWrite_kept {r s : State} (h : Kept r s) (sec : Bool) (v : BitVec 64) :
    KeptOut r (execLogptrWrite sec v s) := by
  unfold execLogptrWrite
  repeat' with_reducible
    first
    | apply KeptOut.next | assumption | apply State.onWrite_kept | apply State.ringHeadWrite_kept | intro _ _ _
    | intro _ _ | intro _

theorem State.srptrWrite_kept {r s : State} (h : Kept r s) (j : Nat) (v : Reg) : Kept r (s.srptrWrite j v) := by
  unfold State.srptrWrite
  repeat' with_reducible
    first
    | assumption | apply State.setFld_kept | apply State.modJob_kept | apply State.recordFreed_kept

theorem execSrptrWrite_kept {r s : State} (h : Kept r s) (sec : Bool) (j : Nat) (v : BitVec 64) :
    KeptOut r (execSrptrWrite sec j v s) := by
  unfold execSrptrWrite
  repeat' with_reducible
    first
    | apply KeptOut.next | assumption | apply done_kept | apply State.onWrite_kept | apply State.srptrWrite_kept
    | intro _ _ _ | intro _ _ | intro _

theorem State.slogptrWrite_kept {r s : State} (h : Kept r s) (v : Reg) : Kept r (s.slogptrWrite v) :=
  h.other

theorem execSlogptrWrite_kept {r s : State} (h : Kept r s) (sec : Bool) (v : BitVec 64) :
    KeptOut r (execSlogptrWrite sec v s) := by
  unfold execSlogptrWrite
  repeat' with_reducible
    first
    | apply KeptOut.next | assumption | apply State.onWrite_kept | apply State.slogptrWrite_kept | intro _ _ _
    | intro _ _ | intro _

theorem State.ringConfigWrite_kept {r s : State} (h : Kept r s) (sec : Bool) (a : Nat) (v : Reg) :
    Kept r (s.ringConfigWrite sec a v) := by
  unfold State.ringConfigWrite
  repeat' with_reducible
    first
    | assumption | apply State.setFld_kept | apply State.modJob_kept | apply State.modHq_kept
    | apply State.drainPending_kept | apply State.cqFlush_kept | apply State.recordFreed_kept
    | apply State.storeReg_kept | split | apply Kept.other

theorem execRingConfigWrite_kept {r s : State} (h : Kept r s) (sec : Bool) (addr : Nat) (v : BitVec 64) :
    KeptOut r (execRingConfigWrite sec addr v s) := by
  unfold execRingConfigWrite
  repeat' with_reducible
    first
    | apply KeptOut.next | assumption | apply done_kept | apply State.onWrite_kept | apply State.ringConfigWrite_kept
    | split | intro _ _ _ | intro _ _ | intro _

theorem State.reattach_kept {r s : State} (h : Kept r s) : Kept r (s.reattach) := by
  unfold State.reattach
  repeat' with_reducible first | assumption | apply State.post_kept | split | refine Kept.foldl (fun s x h => ?_) ?_ _

theorem State.leaseWrite_kept {r s : State} (h : Kept r s) (renew : Bool) (v : Reg) : Kept r (s.leaseWrite renew v) := by
  unfold State.leaseWrite
  repeat' with_reducible
    first
    | assumption | apply State.hostViolation_kept | apply State.reattach_kept | split
    | refine Kept.of_snd (by assumption) ?_ | refine Kept.of_trd (by assumption) ?_
    | refine Kept.of_fst (by assumption) ?_ | apply Kept.other

theorem execAttach_kept {r s : State} (h : Kept r s) (sec : Bool) (v : BitVec 64) : KeptOut r (execAttach sec v s) := by
  unfold execAttach
  repeat' with_reducible
    first
    | apply KeptOut.next | assumption | apply State.onWrite_kept | apply State.leaseWrite_kept | intro _ _ _
    | intro _ _ | intro _

theorem execRenew_kept {r s : State} (h : Kept r s) (sec : Bool) (v : BitVec 64) : KeptOut r (execRenew sec v s) := by
  unfold execRenew
  repeat' with_reducible
    first
    | apply KeptOut.next | assumption | apply State.onWrite_kept | apply State.leaseWrite_kept | intro _ _ _
    | intro _ _ | intro _

theorem execLeaseExpiry_kept {r s : State} (h : Kept r s) : KeptOut r (execLeaseExpiry s) := by
  unfold execLeaseExpiry
  repeat' with_reducible
    first
    | apply KeptOut.next | assumption | apply State.modJob_kept | apply State.post_kept | apply State.orphan_kept
    | apply done_kept | split | refine Kept.foldl (fun s x h => ?_) ?_ _ | refine Kept.of_snd (by assumption) ?_
    | refine Kept.of_trd (by assumption) ?_ | refine Kept.of_fst (by assumption) ?_ | apply Kept.other

theorem State.syOcfgWrite_kept {r s : State} (h : Kept r s) (sec : Bool) (n : Nat) (v : Reg) :
    Kept r (s.syOcfgWrite sec n v) := by
  unfold State.syOcfgWrite
  repeat' with_reducible
    first
    | assumption | apply State.setObj_kept | apply State.evalObj_kept | apply State.storeReg_kept

theorem execSyOcfgWrite_kept {r s : State} (h : Kept r s) (sec : Bool) (n : Nat) (v : BitVec 64) :
    KeptOut r (execSyOcfgWrite sec n v s) := by
  unfold execSyOcfgWrite
  repeat' with_reducible
    first
    | apply KeptOut.next | assumption | apply State.onWrite_kept | apply State.syOcfgWrite_kept | intro _ _ _
    | intro _ _ | intro _

theorem State.syOvalWrite_kept {r s : State} (h : Kept r s) (n : Nat) (v : Reg) : Kept r (s.syOvalWrite n v) := by
  unfold State.syOvalWrite
  repeat' with_reducible first | assumption | apply State.modObj_kept | apply State.evalObj_kept | split

theorem State.onOval_kept {r s : State} (h : Kept r s) (sec : Bool) (n : Nat) (v : Reg) : Kept r (s.onOval sec n v) := by
  unfold State.onOval
  repeat' with_reducible
    first
    | assumption | apply State.onWrite_kept | apply State.syOvalWrite_kept | split | intro _ _ _ | intro _ _ | intro _

theorem execSyOvalWrite_kept {r s : State} (h : Kept r s) (sec : Bool) (n : Nat) (v : BitVec 64) :
    KeptOut r (execSyOvalWrite sec n v s) := by
  unfold execSyOvalWrite
  repeat' with_reducible first | apply KeptOut.next | assumption | apply State.onOval_kept

theorem State.syOaddWrite_kept {r s : State} (h : Kept r s) (n : Nat) (v : Reg) : Kept r (s.syOaddWrite n v) := by
  unfold State.syOaddWrite
  repeat' with_reducible
    first
    | assumption | apply State.addFld_kept | apply State.counterAdd_kept | apply State.arrive_kept | split

theorem execSyOaddWrite_kept {r s : State} (h : Kept r s) (sec : Bool) (n : Nat) (v : BitVec 64) :
    KeptOut r (execSyOaddWrite sec n v s) := by
  unfold execSyOaddWrite
  repeat' with_reducible
    first
    | apply KeptOut.next | assumption | apply done_kept | apply State.onWrite_kept | apply State.syOaddWrite_kept
    | intro _ _ _ | intro _ _ | intro _

theorem execNwSpanWrite_kept {r s : State} (h : Kept r s) (sec : Bool) (k : Nat) (v : BitVec 64) :
    KeptOut r (execNwSpanWrite sec k v s) := by
  unfold execNwSpanWrite
  repeat' with_reducible
    first
    | apply KeptOut.next | assumption | apply State.storeReg_kept | apply State.onWrite_kept | intro _ _ _ | intro _ _
    | intro _

theorem State.rvChanbaseWrite_kept {r s : State} (h : Kept r s) (sec : Bool) (c ch : Nat) (v : Reg) :
    Kept r (s.rvChanbaseWrite sec c ch v) := by
  unfold State.rvChanbaseWrite
  repeat' with_reducible
    first
    | assumption | apply State.setFld_kept | apply State.modCore_kept | apply State.storeReg_kept | exact fun _ w => w
    | exact fun w => h.ponds w _ | (intro _ w; simpa using w) | (intro w; simpa using h.ponds w _)

theorem execRvChanbaseWrite_kept {r s : State} (h : Kept r s) (sec : Bool) (c ch : Nat) (v : BitVec 64) :
    KeptOut r (execRvChanbaseWrite sec c ch v s) := by
  unfold execRvChanbaseWrite
  repeat' with_reducible
    first
    | apply KeptOut.next | assumption | apply State.onWrite_kept | apply State.rvChanbaseWrite_kept | intro _ _ _
    | intro _ _ | intro _

theorem execRvChanWrite_kept {r s : State} (h : Kept r s) (sec : Bool) (c ch : Nat) (v : BitVec 64) :
    KeptOut r (execRvChanWrite sec c ch v s) := by
  unfold execRvChanWrite
  repeat' with_reducible
    first
    | apply KeptOut.next | assumption | apply State.storeReg_kept | apply State.onWrite_kept | intro _ _ _ | intro _ _
    | intro _

theorem State.rvStageWrite_kept {r s : State} (h : Kept r s) (sec : Bool) (c : Nat) (v : Reg) :
    Kept r (s.rvStageWrite sec c v) := by
  unfold State.rvStageWrite
  repeat' with_reducible
    first
    | assumption | apply State.modCore_kept | apply State.storeReg_kept | exact fun _ w => w
    | exact fun w => h.ponds w _ | (intro _ w; simpa using w) | (intro w; simpa using h.ponds w _)

theorem execRvStageWrite_kept {r s : State} (h : Kept r s) (sec : Bool) (c : Nat) (v : BitVec 64) :
    KeptOut r (execRvStageWrite sec c v s) := by
  unfold execRvStageWrite
  repeat' with_reducible
    first
    | apply KeptOut.next | assumption | apply State.onWrite_kept | apply State.rvStageWrite_kept | intro _ _ _
    | intro _ _ | intro _

theorem State.rebuildRoutes_kept {r s : State} (h : Kept r s) : Kept r (s.rebuildRoutes) := by
  unfold State.rebuildRoutes
  repeat' with_reducible
    first
    | assumption | apply State.setFld_kept | split | refine Kept.foldl (fun s x h => ?_) ?_ _
    | refine Kept.of_snd (by assumption) ?_ | refine Kept.of_trd (by assumption) ?_
    | refine Kept.of_fst (by assumption) ?_ | apply Kept.other

theorem State.profileWrite_kept {r s : State} (h : Kept r s) (sec : Bool) (v : Reg) : Kept r (s.profileWrite sec v) := by
  unfold State.profileWrite
  repeat' with_reducible
    first
    | assumption | apply State.storeReg_kept | apply State.rebuildRoutes_kept | split
    | (apply Kept.other; first | assumption | apply State.storeReg_kept | apply State.rebuildRoutes_kept | split)

theorem execFbProfileWrite_kept {r s : State} (h : Kept r s) (sec : Bool) (v : BitVec 64) :
    KeptOut r (execFbProfileWrite sec v s) := by
  unfold execFbProfileWrite
  repeat' with_reducible
    first
    | apply KeptOut.next | assumption | apply State.onWrite_kept | apply State.profileWrite_kept | intro _ _ _
    | intro _ _ | intro _

theorem execFbRouteWrite_kept {r s : State} (h : Kept r s) (sec : Bool) (n : Nat) (v : BitVec 64) :
    KeptOut r (execFbRouteWrite sec n v s) := by
  unfold execFbRouteWrite
  repeat' with_reducible
    first
    | apply KeptOut.next | assumption | apply State.storeReg_kept | apply State.onWrite_kept | intro _ _ _ | intro _ _
    | intro _

theorem State.rankmapWrite_kept {r s : State} (h : Kept r s) (sec : Bool) (n : Nat) (v : Reg) :
    Kept r (s.rankmapWrite sec n v) := by
  unfold State.rankmapWrite
  repeat' with_reducible
    first
    | assumption | apply State.post_kept | apply State.flowPump_kept | apply State.storeReg_kept | split
    | refine Kept.foldl (fun s x h => ?_) ?_ _

theorem execFbRankmapWrite_kept {r s : State} (h : Kept r s) (sec : Bool) (n : Nat) (v : BitVec 64) :
    KeptOut r (execFbRankmapWrite sec n v s) := by
  unfold execFbRankmapWrite
  repeat' with_reducible
    first
    | apply KeptOut.next | assumption | apply done_kept | apply State.onWrite_kept | apply State.rankmapWrite_kept
    | intro _ _ _ | intro _ _ | intro _

theorem State.pctlWrite_kept {r s : State} (h : Kept r s) (sec : Bool) (p : Nat) (v : Reg) : Kept r (s.pctlWrite sec p v) := by
  unfold State.pctlWrite
  repeat' with_reducible
    first
    | assumption | apply State.retrain_kept | apply State.portDark_kept | apply State.portStart_kept
    | apply State.nextPort_kept | apply State.storeReg_kept | split | apply Kept.other

theorem execPortEnable_kept {r s : State} (h : Kept r s) (sec : Bool) (p : Nat) (v : BitVec 64) :
    KeptOut r (execPortEnable sec p v s) := by
  unfold execPortEnable
  repeat' with_reducible
    first
    | apply KeptOut.next | assumption | apply done_kept | apply State.onWrite_kept | apply State.pctlWrite_kept
    | intro _ _ _ | intro _ _ | intro _

theorem execPortRetrain_kept {r s : State} (h : Kept r s) (sec : Bool) (p : Nat) (v : BitVec 64) :
    KeptOut r (execPortRetrain sec p v s) := by
  unfold execPortRetrain
  repeat' with_reducible
    first
    | apply KeptOut.next | assumption | apply done_kept | apply State.onWrite_kept | apply State.pctlWrite_kept
    | intro _ _ _ | intro _ _ | intro _

theorem execFbCcfgWrite_kept {r s : State} (h : Kept r s) (sec : Bool) (ch : Nat) (v : BitVec 64) :
    KeptOut r (execFbCcfgWrite sec ch v s) := by
  unfold execFbCcfgWrite
  repeat' with_reducible
    first
    | apply KeptOut.next | assumption | apply State.storeReg_kept | apply State.onWrite_kept | intro _ _ _ | intro _ _
    | intro _

theorem State.release_kept {r s : State} (h : Kept r s) (j : Nat) : Kept r (s.release j) := by
  unfold State.release
  repeat' with_reducible
    first
    | assumption | apply State.modJob_kept | apply State.dropHold_kept | apply State.endPark_kept
    | apply State.enterStep_kept | split | extract_lets

theorem State.jobpolWrite_kept {r s : State} (h : Kept r s) (sec : Bool) (j : Nat) (v : Reg) :
    Kept r (s.jobpolWrite sec j v) := by
  unfold State.jobpolWrite
  repeat' with_reducible first | assumption | apply State.storeReg_kept | apply State.release_kept | split

theorem execRelease_kept {r s : State} (h : Kept r s) (sec : Bool) (j : Nat) (v : BitVec 64) :
    KeptOut r (execRelease sec j v s) := by
  unfold execRelease
  repeat' with_reducible
    first
    | apply KeptOut.next | assumption | apply done_kept | apply State.onWrite_kept | apply State.jobpolWrite_kept
    | intro _ _ _ | intro _ _ | intro _

theorem State.restoreBegin_kept {r s : State} (h : Kept r s) (j op step : Nat) : Kept r (s.restoreBegin j op step) := by
  unfold State.restoreBegin
  repeat' with_reducible
    first
    | assumption | apply State.modJob_kept | apply State.ckShow_kept | apply State.start_kept
    | apply State.sendMessage_kept | apply State.countReads_kept | apply State.restoreEnd_kept | split | extract_lets

theorem State.restoreAsk_kept {r s : State} (h : Kept r s) (j op step : Nat) : Kept r (s.restoreAsk j op step) := by
  unfold State.restoreAsk
  repeat' with_reducible
    first
    | assumption | apply State.modJob_kept | apply State.ckShow_kept | apply State.restoreBegin_kept | split

theorem State.ckctl_kept {r s : State} (h : Kept r s) (j : Nat) (v : Reg) : Kept r (s.ckctl j v) := by
  unfold State.ckctl
  repeat' with_reducible
    first
    | assumption | apply State.modJob_kept | apply State.ckShow_kept | apply State.ckResult_kept
    | apply State.checkpoint_kept | apply State.restoreAsk_kept | split | extract_lets

theorem execCheckpointNow_kept {r s : State} (h : Kept r s) (sec : Bool) (j : Nat) (v : BitVec 64) :
    KeptOut r (execCheckpointNow sec j v s) := by
  unfold execCheckpointNow
  repeat' with_reducible
    first
    | apply KeptOut.next | assumption | apply done_kept | apply State.onWrite_kept | apply State.ckctl_kept
    | intro _ _ _ | intro _ _ | intro _

theorem execRestoreFromPartner_kept {r s : State} (h : Kept r s) (sec : Bool) (j : Nat) (v : BitVec 64) :
    KeptOut r (execRestoreFromPartner sec j v s) := by
  unfold execRestoreFromPartner
  repeat' with_reducible
    first
    | apply KeptOut.next | assumption | apply done_kept | apply State.onWrite_kept | apply State.ckctl_kept
    | intro _ _ _ | intro _ _ | intro _

theorem execRestoreFromFlash_kept {r s : State} (h : Kept r s) (sec : Bool) (j : Nat) (v : BitVec 64) :
    KeptOut r (execRestoreFromFlash sec j v s) := by
  unfold execRestoreFromFlash
  repeat' with_reducible
    first
    | apply KeptOut.next | assumption | apply done_kept | apply State.onWrite_kept | apply State.ckctl_kept
    | intro _ _ _ | intro _ _ | intro _

theorem execRestoreFromSnapshot_kept {r s : State} (h : Kept r s) (sec : Bool) (j : Nat) (v : BitVec 64) :
    KeptOut r (execRestoreFromSnapshot sec j v s) := by
  unfold execRestoreFromSnapshot
  repeat' with_reducible
    first
    | apply KeptOut.next | assumption | apply done_kept | apply State.onWrite_kept | apply State.ckctl_kept
    | intro _ _ _ | intro _ _ | intro _

theorem execReleaseSnapshot_kept {r s : State} (h : Kept r s) (sec : Bool) (j : Nat) (v : BitVec 64) :
    KeptOut r (execReleaseSnapshot sec j v s) := by
  unfold execReleaseSnapshot
  repeat' with_reducible
    first
    | apply KeptOut.next | assumption | apply done_kept | apply State.onWrite_kept | apply State.ckctl_kept
    | intro _ _ _ | intro _ _ | intro _

theorem State.invalidate_kept {r s : State} (h : Kept r s) : Kept r (s.invalidate) := h.other

theorem execInvalidate_kept {r s : State} (h : Kept r s) (sec : Bool) (v : BitVec 64) : KeptOut r (execInvalidate sec v s) := by
  unfold execInvalidate
  repeat' with_reducible
    first
    | apply KeptOut.next | assumption | apply State.onWrite_kept | apply State.invalidate_kept | split | intro _ _ _
    | intro _ _ | intro _

end Sys2Proof.Machine
end

