-- ==== Sys2Proof/Laws/KeptResets.lean ====
section
/-! SUPPORT. What the operations of Machine/Resets.lean keep (Laws/Kept.lean). -/

namespace Sys2Proof.Machine

open Sys2Proof

theorem State.dropSends_kept {r s : State} (h : Kept r s) (c : Nat) : Kept r (s.dropSends c) := h.other

theorem State.resetCore_kept {r s : State} (h : Kept r s) (c : Nat) : Kept r (s.resetCore c) := by
  unfold State.resetCore
  repeat' with_reducible
    first
    | assumption | apply State.setReg_kept | apply State.setFld_kept | apply State.modCore_kept
    | apply State.stopUnits_kept | apply State.dropSends_kept | exact fun _ w => by simpa using w
    | refine Kept.foldl (fun s x h => ?_) ?_ _ | apply Kept.other

theorem State.coreReset_kept {r s : State} (h : Kept r s) (c : Nat) : Kept r (s.coreReset c) := by
  unfold State.coreReset
  repeat' with_reducible
    first
    | assumption | apply State.kill_kept | apply State.resetCore_kept | split
    | refine Kept.foldl (fun s x h => ?_) ?_ _

theorem State.runResets_kept {r s : State} (h : Kept r s) : Kept r (s.runResets) := by
  unfold State.runResets
  repeat' with_reducible
    first
    | assumption | apply State.coreReset_kept | split | refine Kept.foldl (fun s x h => ?_) ?_ _ | apply Kept.other

theorem State.corerstWrite_kept {r s : State} (h : Kept r s) (sec : Bool) (v : Reg) : Kept r (s.corerstWrite sec v) := by
  unfold State.corerstWrite
  repeat' with_reducible first | assumption | apply State.coreReset_kept | split | apply Kept.other

theorem execPerCoreReset_kept {r s : State} (h : Kept r s) (sec : Bool) (v : BitVec 64) :
    KeptOut r (execPerCoreReset sec v s) := by
  unfold execPerCoreReset
  repeat' with_reducible
    first
    | apply KeptOut.next | assumption | apply done_kept | apply State.onWrite_kept | apply State.corerstWrite_kept
    | intro _ _ _ | intro _ _ | intro _

theorem State.discardJob_kept {r s : State} (h : Kept r s) (j : Nat) : Kept r (s.discardJob j) := by
  unfold State.discardJob
  repeat' with_reducible
    first
    | assumption | apply State.setReg_kept | apply State.setFld_kept | apply State.setJob_kept
    | apply State.closeFlow_kept | apply State.cancelWaits_kept | apply State.stopJob_kept | apply State.ckShow_kept
    | split | refine Kept.foldl (fun s x h => ?_) ?_ _ | apply Kept.other

theorem State.clearQueue_kept {r s : State} (h : Kept r s) (q : Nat) : Kept r (s.clearQueue q) := by
  unfold State.clearQueue
  repeat' with_reducible
    first
    | assumption | apply State.setReg_kept | extract_lets | refine Kept.foldl (fun s x h => ?_) ?_ _
    | (apply Kept.other; first | assumption | apply State.setReg_kept | refine Kept.foldl (fun s x h => ?_) ?_ _)

theorem State.flrStart_kept {r s : State} (h : Kept r s) : Kept r (s.flrStart) := by
  unfold State.flrStart
  repeat' with_reducible
    first
    | assumption | apply State.setReg_kept | apply State.setFld_kept | apply State.resetCore_kept
    | apply State.discardJob_kept | apply State.clearQueue_kept | extract_lets
    | refine Kept.foldl (fun s x h => ?_) ?_ _
    | (apply Kept.other; first | assumption | apply State.setReg_kept | apply State.setFld_kept | apply State.resetCore_kept | apply State.discardJob_kept | apply State.clearQueue_kept | refine Kept.foldl (fun s x h => ?_) ?_ _)

theorem State.flrWrite_kept {r s : State} (h : Kept r s) (v : Reg) : Kept r (s.flrWrite v) := by
  unfold State.flrWrite
  repeat' with_reducible
    first
    | assumption | apply State.flrStart_kept | split
    | (apply Kept.other; first | assumption | apply State.flrStart_kept | split)

theorem execFunctionLevelReset_kept {r s : State} (h : Kept r s) (sec : Bool) (v : BitVec 64) :
    KeptOut r (execFunctionLevelReset sec v s) := by
  unfold execFunctionLevelReset
  repeat' with_reducible
    first
    | apply KeptOut.next | assumption | apply done_kept | apply State.onWrite_kept | apply State.flrWrite_kept
    | intro _ _ _ | intro _ _ | intro _

theorem State.zeroNonSecure_kept {r s : State} (h : Kept r s) : Kept r s.zeroNonSecure :=
  h.any rfl (Nat.le_refl _) fun w => Mem.filter_wf w _ _

theorem execFlrComplete_kept {r s : State} (h : Kept r s) : KeptOut r (execFlrComplete s) := by
  unfold execFlrComplete
  repeat' with_reducible
    first
    | apply KeptOut.next | assumption | apply State.setFld_kept | apply State.zeroNonSecure_kept | split

theorem State.deviceReset_kept {r s : State} (h : Kept r s) : Kept r s.deviceReset := by
  refine State.setFld_kept ?_ _ _ _ _
  exact ⟨h.pending, h.fuses, h.ticks, h.free, fun _ => Mem.reset_wf, fun _ _ => Mem.reset_wf⟩

theorem State.releaseReset_kept {r s : State} (h : Kept r s) : Kept r (s.releaseReset) := h.other

theorem State.resetWith_kept {r s : State} (h : Kept r s) (cause : Nat) : Kept r (s.resetWith cause) := by
  unfold State.resetWith
  repeat' with_reducible
    first
    | assumption | apply State.setFld_kept | apply State.deviceReset_kept | apply State.releaseReset_kept

theorem State.powerLost_kept {r s : State} (h : Kept r s) : Kept r (s.powerLost) := by
  unfold State.powerLost
  repeat' with_reducible first | assumption | apply State.resetWith_kept

theorem State.startAgain_kept {r s : State} (h : Kept r s) : Kept r (s.startAgain) := by
  unfold State.startAgain
  repeat' with_reducible
    first
    | assumption | apply State.setFld_kept | apply State.powerLost_kept | extract_lets
    | refine Kept.foldl (fun s x h => ?_) ?_ _
    | (apply Kept.other; first | assumption | apply State.setFld_kept | apply State.powerLost_kept | refine Kept.foldl (fun s x h => ?_) ?_ _)

end Sys2Proof.Machine
end

