-- ==== Sys2Proof/Laws/KeptWorlds.lean ====
section
/-! SUPPORT. What the operations of Machine/Worlds.lean keep (Laws/Kept.lean). -/

namespace Sys2Proof.Machine

open Sys2Proof

theorem State.showScrub_kept {r s : State} (h : Kept r s) : Kept r (s.showScrub) := by
  unfold State.showScrub
  repeat' with_reducible first | assumption | apply State.setReg_kept | apply State.setFld_kept | split

theorem State.regionWrite_kept {r s : State} (h : Kept r s) (n : Nat) (v : Reg) : Kept r (s.regionWrite n v) := by
  unfold State.regionWrite
  repeat' with_reducible
    first
    | assumption | apply State.setReg_kept | apply State.storeReg_kept | apply State.showScrub_kept | split
    | apply Kept.other

theorem State.worldWrite_kept {r s : State} (h : Kept r s) (a : Nat) (v : Reg) : Kept r (s.worldWrite a v) := by
  unfold State.worldWrite
  repeat' with_reducible first | assumption | apply State.storeReg_kept | apply State.regionWrite_kept | split

theorem execSwRegionWrite_kept {r s : State} (h : Kept r s) (sec : Bool) (addr : Nat) (v : BitVec 64) :
    KeptOut r (execSwRegionWrite sec addr v s) := by
  unfold execSwRegionWrite
  repeat' with_reducible
    first
    | apply KeptOut.next | assumption | apply State.onWrite_kept | apply State.worldWrite_kept | split | intro _ _ _
    | intro _ _ | intro _

theorem execRegionZeroingComplete_kept {r s : State} (h : Kept r s) : KeptOut r (execRegionZeroingComplete s) := by
  unfold execRegionZeroingComplete
  split
  · exact h
  · rename_i x rest _
    have h1 := State.setFld_kept h (swRegion (x / 64)) (x % 64) 1 0
    have hm : s.mem.wf → _ := fun w => Mem.filter_wf w (fun e => e.1 / 0x200000 != x) (fun g => g * 32 / 0x200000 != x)
    exact State.showScrub_kept (h1.any rfl (Nat.le_refl _) hm)

theorem State.fencereqWrite_kept {r s : State} (h : Kept r s) (v : Reg) : Kept r (s.fencereqWrite v) := by
  unfold State.fencereqWrite
  repeat' with_reducible first | assumption | apply State.makeSuspect_kept | split | apply Kept.other

theorem execNwFencereq_kept {r s : State} (h : Kept r s) (sec : Bool) (v : BitVec 64) : KeptOut r (execNwFencereq sec v s) := by
  unfold execNwFencereq
  repeat' with_reducible
    first
    | apply KeptOut.next | assumption | apply State.onWrite_kept | apply State.fencereqWrite_kept | intro _ _ _
    | intro _ _ | intro _

end Sys2Proof.Machine
end

