-- ==== Sys2Proof/Laws/KeptImage.lean ====
section
/-! SUPPORT. What the operations of Machine/Image.lean keep (Laws/Kept.lean). -/

namespace Sys2Proof.Machine

open Sys2Proof

theorem State.readTables_kept {r s : State} (h : Kept r s) : Kept r (s.readTables) := h.other

theorem State.enterRecovery_kept {r s : State} (h : Kept r s) (reason : Nat) : Kept r (s.enterRecovery reason) := by
  unfold State.enterRecovery
  repeat' with_reducible
    first
    | assumption | apply State.setFld_kept | apply State.portStart_kept | split | apply Kept.other

theorem State.recovWrite_kept {r s : State} (h : Kept r s) : Kept r (s.recovWrite) := h.other

theorem State.recovFinish_kept {r s : State} (h : Kept r s) : Kept r (s.recovFinish) := by
  unfold State.recovFinish
  repeat' with_reducible
    first
    | assumption | apply State.setFld_kept | apply State.startAgain_kept | split
    | refine Kept.of_snd (by assumption) ?_ | refine Kept.of_trd (by assumption) ?_
    | refine Kept.of_fst (by assumption) ?_ | apply Kept.other

theorem State.recovctlWrite_kept {r s : State} (h : Kept r s) (sec : Bool) (v : Reg) : Kept r (s.recovctlWrite sec v) := by
  unfold State.recovctlWrite
  repeat' with_reducible
    first
    | assumption | apply State.storeReg_kept | apply State.recovWrite_kept | apply State.recovFinish_kept | split
    | apply Kept.other

theorem execRecoveryWrite_kept {r s : State} (h : Kept r s) (sec : Bool) (v : BitVec 64) :
    KeptOut r (execRecoveryWrite sec v s) := by
  unfold execRecoveryWrite
  repeat' with_reducible
    first
    | apply KeptOut.next | assumption | apply State.onWrite_kept | apply State.recovctlWrite_kept | intro _ _ _
    | intro _ _ | intro _

theorem execRecoveryFinish_kept {r s : State} (h : Kept r s) (sec : Bool) (v : BitVec 64) :
    KeptOut r (execRecoveryFinish sec v s) := by
  unfold execRecoveryFinish
  repeat' with_reducible
    first
    | apply KeptOut.next | assumption | apply State.onWrite_kept | apply State.recovctlWrite_kept | intro _ _ _
    | intro _ _ | intro _

theorem execRecoveryWriteDone_kept {r s : State} (h : Kept r s) : KeptOut r (execRecoveryWriteDone s) := by
  unfold execRecoveryWriteDone
  repeat' with_reducible first | apply KeptOut.next | assumption | apply State.setFld_kept | split | apply Kept.other

theorem State.copyImage_kept {r s : State} (h : Kept r s) : Kept r (s.copyImage) := by
  unfold State.copyImage
  repeat' with_reducible
    first
    | assumption | apply State.devRead_kept | split | refine Kept.of_snd (by assumption) ?_
    | refine Kept.of_trd (by assumption) ?_ | refine Kept.of_fst (by assumption) ?_ | apply Kept.other

theorem State.updlenWrite_kept {r s : State} (h : Kept r s) (sec : Bool) (v : Reg) : Kept r (s.updlenWrite sec v) := by
  unfold State.updlenWrite
  repeat' with_reducible
    first
    | assumption | apply State.setFld_kept | apply State.storeReg_kept | apply State.copyImage_kept | split
    | apply Kept.other

theorem execImageUpdateGo_kept {r s : State} (h : Kept r s) (sec : Bool) (v : BitVec 64) :
    KeptOut r (execImageUpdateGo sec v s) := by
  unfold execImageUpdateGo
  repeat' with_reducible
    first
    | apply KeptOut.next | assumption | apply State.onWrite_kept | apply State.updlenWrite_kept | intro _ _ _
    | intro _ _ | intro _

theorem execImageUpdateChecked_kept {r s : State} (h : Kept r s) : KeptOut r (execImageUpdateChecked s) := by
  unfold execImageUpdateChecked
  split
  · extract_lets s1
    have h1 : Kept r s1 := by
      unfold s1
      split
      · exact State.copyImage_kept h
      · exact h
    clear_value s1
    generalize s1.copyReason = reason
    split
    · exact KeptOut.next (State.setFld_kept h1 _ _ _ _).other
    · exact KeptOut.next (State.setFld_kept (State.setFld_kept h1 _ _ _ _) _ _ _ _)
  · exact h

theorem execImageUpdateWritten_kept {r s : State} (h : Kept r s) : KeptOut r (execImageUpdateWritten s) := by
  unfold execImageUpdateWritten
  repeat' with_reducible first | apply KeptOut.next | assumption | apply State.setFld_kept | split | apply Kept.other

end Sys2Proof.Machine
end

