-- ==== Sys2Proof/Laws/KeptSpdm.lean ====
section
/-! SUPPORT. What the operations of Machine/Spdm.lean keep (Laws/Kept.lean). -/

namespace Sys2Proof.Machine

open Sys2Proof

theorem State.spdmAnswer_kept {r0 s : State} (h : Kept r0 s) (r : SpdmRequest) : Kept r0 (s.spdmAnswer r) := by
  unfold State.spdmAnswer
  repeat' with_reducible
    first
    | assumption | apply State.hostSend_kept | extract_lets | refine Kept.foldl (fun s x h => ?_) ?_ _
    | (apply Kept.other; first | assumption | apply State.hostSend_kept | refine Kept.foldl (fun s x h => ?_) ?_ _)

theorem State.spdmServe_kept {r s : State} (h : Kept r s) : Kept r (s.spdmServe) := by
  unfold State.spdmServe
  repeat' with_reducible
    first
    | assumption | apply State.spdmAnswer_kept | split | refine Kept.foldl (fun s x h => ?_) ?_ _
    | (apply Kept.other; first | assumption | apply State.spdmAnswer_kept | split | refine Kept.foldl (fun s x h => ?_) ?_ _)

theorem State.spdmAsk_kept {r0 s : State} (h : Kept r0 s) (r : SpdmRequest) : Kept r0 (s.spdmAsk r) := by
  unfold State.spdmAsk
  repeat' with_reducible
    first
    | assumption | apply State.spdmServe_kept | (apply Kept.other; first | assumption | apply State.spdmServe_kept)

end Sys2Proof.Machine
end

