-- ==== Sys2Proof/Laws/KeptKeeper.lean ====
section
/-! SUPPORT. What the operations of Machine/Keeper.lean keep (Laws/Kept.lean). -/

namespace Sys2Proof.Machine

open Sys2Proof

theorem State.keeperState_kept {r s : State} (h : Kept r s) (st reason : Nat) : Kept r (s.keeperState st reason) :=
  h.other

theorem State.keeperCheck_kept {r s : State} (h : Kept r s) : Kept r (s.keeperCheck) := by
  unfold State.keeperCheck
  repeat' with_reducible
    first
    | assumption | apply State.worldWrite_kept | apply State.keeperState_kept | split
    | refine Kept.of_snd (by assumption) ?_ | refine Kept.of_trd (by assumption) ?_
    | refine Kept.of_fst (by assumption) ?_ | apply Kept.other

theorem State.kctlWrite_kept {r s : State} (h : Kept r s) (v : Reg) : Kept r (s.kctlWrite v) := by
  unfold State.kctlWrite
  repeat' with_reducible
    first
    | assumption | apply State.keeperState_kept | apply State.keeperCheck_kept | split | apply Kept.other

theorem execKeeperRequest_kept {r s : State} (h : Kept r s) (sec : Bool) (v : BitVec 64) :
    KeptOut r (execKeeperRequest sec v s) := by
  unfold execKeeperRequest
  repeat' with_reducible
    first
    | apply KeptOut.next | assumption | apply State.onWrite_kept | apply State.kctlWrite_kept | intro _ _ _
    | intro _ _ | intro _

theorem State.scrubCore_kept {r s : State} (h : Kept r s) (c : Nat) : Kept r (s.scrubCore c) := by
  unfold State.scrubCore
  split
  · exact State.modCore_kept (State.coreReset_kept h _) _ _ fun _ _ => Mem.reset_wf
  · exact h

theorem State.worldScrub_kept {r s : State} (h : Kept r s) (a : Nat) (v : Reg) : Kept r (s.worldScrub a v) := by
  unfold State.worldScrub
  repeat' with_reducible
    first
    | assumption | apply State.setFld_kept | apply State.closeFlow_kept | apply State.scrubCore_kept | split
    | refine Kept.foldl (fun s x h => ?_) ?_ _ | apply Kept.other

theorem State.keeperApply_kept {r s : State} (h : Kept r s) (w : KeeperWork) : Kept r (s.keeperApply w) := by
  unfold State.keeperApply
  repeat' with_reducible
    first
    | assumption | apply State.storeReg_kept | apply State.profileWrite_kept | apply State.pctlWrite_kept
    | apply State.worldWrite_kept | apply State.fencereqWrite_kept | apply State.worldScrub_kept | split

theorem execKeeperRequestDone_kept {r s : State} (h : Kept r s) : KeptOut r (execKeeperRequestDone s) := by
  unfold execKeeperRequestDone
  repeat' with_reducible
    first
    | apply KeptOut.next | assumption | apply done_kept | apply State.keeperState_kept | apply State.keeperApply_kept
    | split | refine Kept.of_snd (by assumption) ?_ | refine Kept.of_trd (by assumption) ?_
    | refine Kept.of_fst (by assumption) ?_ | apply Kept.other

theorem execRankRemapApply_kept {r s : State} (h : Kept r s) (rank : Nat) : KeptOut r (execRankRemapApply rank s) := by
  unfold execRankRemapApply
  repeat' with_reducible
    first
    | apply KeptOut.next | assumption | apply done_kept | apply State.rankmapWrite_kept | apply State.keeperState_kept
    | split | refine Kept.of_snd (by assumption) ?_ | refine Kept.of_trd (by assumption) ?_
    | refine Kept.of_fst (by assumption) ?_ | apply Kept.other

end Sys2Proof.Machine
end

