-- ==== Sys2Proof/Laws/KeptCrash.lean ====
section
/-! SUPPORT. What the operations of Machine/Crash.lean keep (Laws/Kept.lean). -/

namespace Sys2Proof.Machine

open Sys2Proof

theorem State.crash_kept {r s : State} (h : Kept r s) (p : Nat) : Kept r (s.crash p) := by
  unfold State.crash
  repeat' with_reducible
    first
    | assumption | apply State.setFld_kept | apply State.complete_kept | apply State.startAgain_kept | split
    | apply Kept.other

theorem execWatchdogExpiry_kept {r s : State} (h : Kept r s) (fp : Nat) : KeptOut r (execWatchdogExpiry fp s) := by
  unfold execWatchdogExpiry
  repeat' with_reducible first | apply KeptOut.next | assumption | apply State.crash_kept

theorem execProcessorCrash_kept {r s : State} (h : Kept r s) (fp : Nat) : KeptOut r (execProcessorCrash fp s) := by
  unfold execProcessorCrash
  repeat' with_reducible first | apply KeptOut.next | assumption | apply State.crash_kept

theorem State.keeperBack_kept {r s : State} (h : Kept r s) : Kept r (s.keeperBack) := by
  unfold State.keeperBack
  repeat' with_reducible
    first
    | assumption | apply State.flushRecords_kept | apply State.flrStart_kept | apply State.copyImage_kept
    | apply State.spdmServe_kept | apply State.keeperCheck_kept | split | extract_lets
    | refine Kept.foldl (fun s x h => ?_) ?_ _
    | (apply Kept.other; first | assumption | apply State.flushRecords_kept | apply State.flrStart_kept | apply State.copyImage_kept | apply State.spdmServe_kept | apply State.keeperCheck_kept | split | refine Kept.foldl (fun s x h => ?_) ?_ _)

theorem State.pilotBack_kept {r s : State} (h : Kept r s) : Kept r s.pilotBack := by
  unfold State.pilotBack
  extract_lets s0 f0 s1 ports f1 s2 s3
  have h1 : Kept r s1 := by
    unfold s1
    split
    · exact (State.rebuildRoutes_kept h).other
    · exact h
  have h3 : Kept r s3 := Kept.foldl (fun _ _ h => State.retrain_kept h _) h1.other _
  clear_value s3
  repeat' with_reducible
    first
    | assumption | apply State.portStart_kept | apply State.nextPort_kept | split | refine Kept.foldl (fun s x h => ?_) ?_ _

theorem State.scribeBack_kept {r s : State} (h : Kept r s) : Kept r (s.scribeBack) := by
  unfold State.scribeBack
  repeat' with_reducible
    first
    | assumption | apply State.drainPending_kept | apply State.flushRecords_kept | apply State.ckBegin_kept
    | apply State.checkpoint_kept | apply State.ckStalled_kept | apply State.restoreBegin_kept | split | extract_lets
    | refine Kept.foldl (fun s x h => ?_) ?_ _

theorem State.postFenced_kept {r s : State} (h : Kept r s) (p reason : Nat) : Kept r (s.postFenced p reason) := by
  unfold State.postFenced
  repeat' with_reducible first | assumption | apply State.post_kept

theorem State.routerFailure_kept {r s : State} (h : Kept r s) (p : Nat) : Kept r (s.routerFailure p) := by
  unfold State.routerFailure
  repeat' with_reducible
    first
    | assumption | apply State.setFld_kept | apply State.freeVal_kept
    | apply State.kill_kept | apply State.postFenced_kept | split | refine Kept.foldl (fun s x h => ?_) ?_ _
    | refine Kept.of_snd (by assumption) ?_ | refine Kept.of_trd (by assumption) ?_
    | refine Kept.of_fst (by assumption) ?_

theorem State.routerFails_kept {r s : State} (h : Kept r s) (p : Nat) : Kept r (s.routerFails p) := by
  unfold State.routerFails
  split
  · exact State.routerFailure_kept h p
  · exact h.other

theorem State.stewardBack_kept {r s : State} (h : Kept r s) : Kept r s.stewardBack := by
  unfold State.stewardBack
  exact State.runResets_kept (Kept.foldl (fun _ _ h => State.routerFailure_kept h _) h.other _)

theorem State.dispatcherBack_kept {r s : State} (h : Kept r s) : Kept r (s.dispatcherBack) := by
  unfold State.dispatcherBack
  repeat' with_reducible
    first
    | assumption | apply State.modJob_kept | apply State.cqFlush_kept | apply State.abortJob_kept
    | apply State.parkExchange_kept | split | extract_lets | refine Kept.foldl (fun s x h => ?_) ?_ _

theorem State.roleBack_kept {r0 s : State} (h : Kept r0 s) (r : Nat) : Kept r0 (s.roleBack r) := by
  unfold State.roleBack
  repeat' with_reducible
    first
    | assumption | apply State.keeperBack_kept | apply State.pilotBack_kept | apply State.scribeBack_kept
    | apply State.stewardBack_kept | apply State.dispatcherBack_kept | split

theorem State.postRestart_kept {r0 s : State} (h : Kept r0 s) (p r : Nat) (moved : Bool) :
    Kept r0 (s.postRestart p r moved) := by
  unfold State.postRestart
  repeat' with_reducible first | assumption | apply State.post_kept

theorem State.restartStage_kept {r s : State} (h : Kept r s) : Kept r (s.restartStage) := by
  unfold State.restartStage
  repeat' with_reducible
    first
    | assumption | apply State.modPort_kept | apply State.portDark_kept | apply State.nextPort_kept | split
    | refine Kept.foldl (fun s x h => ?_) ?_ _ | apply Kept.other

theorem State.restarted_kept {r s : State} (h : Kept r s) (p : Nat) : Kept r (s.restarted p) := h.other

theorem execFwRestartComplete_kept {r s : State} (h : Kept r s) (fp : Nat) (ok : Bool) :
    KeptOut r (execFwRestartComplete fp ok s) := by
  unfold execFwRestartComplete
  repeat' with_reducible
    first
    | apply KeptOut.next | assumption | apply State.setFld_kept | apply State.satFld_kept | apply State.complete_kept
    | apply done_kept | apply State.roleBack_kept | apply State.postRestart_kept | apply State.restartStage_kept
    | apply State.restarted_kept | split | extract_lets

theorem execKeeperRomRestartComplete_kept {r s : State} (h : Kept r s) : KeptOut r (execKeeperRomRestartComplete s) := by
  unfold execKeeperRomRestartComplete
  split
  · exact h
  · rename_i p _
    extract_lets reason s1 f1 s2
    have h1 : Kept r s1 := State.satFld_kept (State.restarted_kept h _) _ _ _ _
    have h2 : Kept r s2 := h1.other
    clear_value reason f1 s2
    split
    · exact h
    · split
      · exact KeptOut.next (State.spdmServe_kept (State.enterRecovery_kept h reason))
      · exact done_kept (State.roleBack_kept (State.postRestart_kept h2 _ _ _) _)

end Sys2Proof.Machine
end

