-- ==== Sys2Proof/Laws/KeptStartup.lean ====
section
/-! SUPPORT. What the operations of Machine/Startup.lean keep (Laws/Kept.lean). -/

namespace Sys2Proof.Machine

open Sys2Proof

theorem State.modPower_kept {r s : State} (h : Kept r s) (f : Power → Power) : Kept r (s.modPower f) :=
  h.other

theorem State.drawReads_kept {r s : State} (h : Kept r s) : Kept r (s.drawReads) := by
  unfold State.drawReads
  repeat' with_reducible first | assumption | apply State.freeVal_kept | apply State.modPower_kept

theorem State.inputReads_kept {r s : State} (h : Kept r s) (lo n : Nat) : Kept r (s.inputReads lo n) := by
  unfold State.inputReads
  repeat' with_reducible
    first
    | assumption | apply State.freeVal_kept | apply State.modPower_kept | apply State.drawReads_kept

theorem execPowerOnReset_kept {r s : State} (h : Kept r s) : KeptOut r (execPowerOnReset s) := by
  unfold execPowerOnReset
  repeat' with_reducible
    first
    | apply KeptOut.next | assumption | apply State.resetWith_kept | apply State.modPower_kept
    | apply State.inputReads_kept

theorem execRstNAssert_kept {r s : State} (h : Kept r s) : KeptOut r (execRstNAssert s) := by
  unfold execRstNAssert
  repeat' with_reducible
    first
    | apply KeptOut.next | assumption | apply State.resetWith_kept | apply State.modPower_kept
    | apply State.drawReads_kept | split | extract_lets

theorem execRstNDeassert_kept {r s : State} (h : Kept r s) (feed slot : Nat) : KeptOut r (execRstNDeassert feed slot s) := by
  unfold execRstNDeassert
  repeat' with_reducible
    first
    | apply KeptOut.next | assumption | apply State.feed_kept | apply State.releaseReset_kept
    | apply State.modPower_kept | apply State.drawReads_kept | split

theorem execVinLowTimeout_kept {r s : State} (h : Kept r s) : KeptOut r (execVinLowTimeout s) := by
  unfold execVinLowTimeout
  repeat' with_reducible
    first
    | apply KeptOut.next | assumption | apply State.resetWith_kept | apply State.modPower_kept
    | apply State.inputReads_kept | split

theorem execVinRestored_kept {r s : State} (h : Kept r s) : KeptOut r (execVinRestored s) := by
  unfold execVinRestored
  repeat' with_reducible
    first
    | apply KeptOut.next | assumption | apply State.releaseReset_kept | apply State.modPower_kept
    | apply State.inputReads_kept | split

theorem execVinBelow36_kept {r s : State} (h : Kept r s) : KeptOut r (execVinBelow36 s) := by
  unfold execVinBelow36
  repeat' with_reducible
    first
    | apply KeptOut.next | assumption | apply State.powerLost_kept | apply State.modPower_kept
    | apply State.inputReads_kept | split

theorem execRefclkLoss_kept {r s : State} (h : Kept r s) : KeptOut r (execRefclkLoss s) := by
  unfold execRefclkLoss
  repeat' with_reducible
    first
    | apply KeptOut.next | assumption | apply State.freeVal_kept | apply State.resetWith_kept
    | apply State.modPower_kept | apply State.drawReads_kept | split | extract_lets

theorem execRefclkRestored_kept {r s : State} (h : Kept r s) : KeptOut r (execRefclkRestored s) := by
  unfold execRefclkRestored
  repeat' with_reducible
    first
    | apply KeptOut.next | assumption | apply State.releaseReset_kept | apply State.modPower_kept
    | apply State.drawReads_kept | split

theorem execThermalTrip_kept {r s : State} (h : Kept r s) : KeptOut r (execThermalTrip s) := by
  unfold execThermalTrip
  repeat' with_reducible
    first
    | apply KeptOut.next | assumption | apply State.powerLost_kept | apply State.modPower_kept
    | apply State.drawReads_kept | split

theorem State.toStage_kept {r s : State} (h : Kept r s) (k : Nat) : Kept r (s.toStage k) := h.other

theorem execFirmwareSelfTestDone_kept {r s : State} (h : Kept r s) (failed : List Bool) (temp : Nat) :
    KeptOut r (execFirmwareSelfTestDone failed temp s) := by
  unfold execFirmwareSelfTestDone
  repeat' with_reducible
    first
    | apply KeptOut.next | assumption | apply State.setFld_kept | apply State.toStage_kept | split | extract_lets
    | refine Kept.foldl (fun s x h => ?_) ?_ _
    | (apply Kept.other; first | assumption | apply State.setFld_kept | apply State.toStage_kept | split | refine Kept.foldl (fun s x h => ?_) ?_ _)

theorem State.imageLoaded_kept {r s : State} (h : Kept r s) : Kept r s.imageLoaded :=
  State.toStage_kept (State.setFld_kept h.other _ _ _ _) _

theorem execImageCheckDone_kept {r s : State} (h : Kept r s) : KeptOut r (execImageCheckDone s) := by
  unfold execImageCheckDone
  extract_lets s1
  have h1 : Kept r s1 := State.readTables_kept h
  clear_value s1
  split
  · exact h
  · generalize s1.flashReason = n
    split
    · exact KeptOut.next (State.spdmServe_kept (State.enterRecovery_kept h1 _))
    · exact KeptOut.next (State.spdmServe_kept (State.imageLoaded_kept h1))

theorem execPowerWave_kept {r s : State} (h : Kept r s) (k : Nat) : KeptOut r (execPowerWave k s) := by
  unfold execPowerWave
  repeat' with_reducible first | apply KeptOut.next | assumption | split | apply Kept.other

theorem execStackPowerUp_kept {r s : State} (h : Kept r s) (k : Nat) : KeptOut r (execStackPowerUp k s) := by
  unfold execStackPowerUp
  repeat' with_reducible first | apply KeptOut.next | assumption | split | apply Kept.other

theorem execLaserBankPowerUp_kept {r s : State} (h : Kept r s) (p : Nat) : KeptOut r (execLaserBankPowerUp p s) := by
  unfold execLaserBankPowerUp
  repeat' with_reducible
    first
    | apply KeptOut.next | assumption | apply State.toStage_kept | apply State.bankUp_kept | split | apply Kept.other

theorem execBistDone_kept {r s : State} (h : Kept r s) (failures : List Nat) : KeptOut r (execBistDone failures s) := by
  unfold execBistDone
  repeat' with_reducible
    first
    | apply KeptOut.next | assumption | apply State.setSil_kept | apply State.addWrites_kept
    | apply State.toStage_kept | split | extract_lets | refine Kept.foldl (fun s x h => ?_) ?_ _
    | (apply Kept.other; first | assumption | apply State.setSil_kept | apply State.addWrites_kept | apply State.toStage_kept | split | refine Kept.foldl (fun s x h => ?_) ?_ _)

theorem execHbmTrainingDone_kept {r s : State} (h : Kept r s) (failedSaved : List Nat) :
    KeptOut r (execHbmTrainingDone failedSaved s) := by
  unfold execHbmTrainingDone
  repeat' with_reducible
    first
    | apply KeptOut.next | assumption | apply State.setFld_kept | apply State.toStage_kept | split

theorem execMemoryTestDone_kept {r s : State} (h : Kept r s) (mc : Nat) (pages : List Nat) (pchs : List Nat) (uncorr : Nat) :
    KeptOut r (execMemoryTestDone mc pages pchs uncorr s) := by
  unfold execMemoryTestDone
  repeat' with_reducible
    first
    | apply KeptOut.next | assumption | apply State.setFld_kept | apply State.sparePch_kept
    | apply State.retirePage_kept | apply State.nextPort_kept | apply State.toStage_kept | split
    | refine Kept.foldl (fun s x h => ?_) ?_ _ | apply Kept.other

theorem execOpticalTuningDone_kept {r s : State} (h : Kept r s) : KeptOut r (execOpticalTuningDone s) := by
  unfold execOpticalTuningDone
  repeat' with_reducible first | apply KeptOut.next | assumption | apply State.toStage_kept | split

theorem State.saveSettings_kept {r s : State} (h : Kept r s) : Kept r s.saveSettings := by
  have h1 := State.freeVals_kept h 64 128
  have h2 := State.freeVals_kept h1 64 272
  have h3 := State.freeVals_kept h2 64 272
  exact State.addWrites_kept (State.freeVals_kept h3 64 272) _

theorem execStartupComplete_kept {r s : State} (h : Kept r s) : KeptOut r (execStartupComplete s) := by
  unfold execStartupComplete
  repeat' with_reducible
    first
    | apply KeptOut.next | assumption | apply State.setFld_kept | apply State.freeVal_kept | apply State.post_kept
    | apply State.addWrites_kept | apply State.checkSpare_kept | apply State.saveSettings_kept | split | extract_lets
    | refine Kept.of_snd (by assumption) ?_ | refine Kept.of_trd (by assumption) ?_
    | refine Kept.of_fst (by assumption) ?_
    | (apply Kept.other; first | assumption | apply State.setFld_kept | apply State.freeVal_kept | apply State.post_kept | apply State.addWrites_kept | apply State.checkSpare_kept | apply State.saveSettings_kept | split)

end Sys2Proof.Machine
end

