-- ==== Sys2Proof/Laws/KeptSupply.lean ====
section
/-! SUPPORT. What the operations of Machine/Supply.lean keep (Laws/Kept.lean). -/

namespace Sys2Proof.Machine

open Sys2Proof

/-- A fold of operations on a state and what goes with it, that each keep. -/
theorem Kept.foldl_fst {α β : Type} {r : State} {f : State × β → α → State × β}
    (hf : ∀ x a, Kept r x.1 → Kept r (f x a).1) (l : List α) (x : State × β) (h : Kept r x.1) : Kept r (l.foldl f x).1 := by
  induction l generalizing x with
  | nil => exact h
  | cons a as ih => exact ih _ (hf _ _ h)

theorem govServe_kept {r : State} {x : State × List Nat} (h : Kept r x.1) (allow : List Nat) (a : ActiveSpan) :
    Kept r (govServe allow x a).1 := govUnit_kept h _ _ _ _ _

theorem govTest_kept {r : State} {x : State × List Nat} (h : Kept r x.1) (t : Nat) (allow : List Nat) (p : Nat) :
    Kept r (govTest t allow x p).1 := govUnit_kept h _ _ _ _ _

theorem State.testInterval_kept {r s : State} (h : Kept r s) (loads allow : List Nat) : Kept r (s.testInterval loads allow) := by
  unfold State.testInterval
  generalize s.testUnits = us
  have h1 := Kept.foldl_fst (f := govTest s.firm.bistTicks allow) (fun _ _ h => govTest_kept h _ _ _) us (s, loads) h
  revert h1
  generalize us.foldl (govTest s.firm.bistTicks allow) (s, loads) = x
  exact fun h1 => Kept.other h1

theorem execGovernorInterval_kept {r s : State} (h : Kept r s) : KeptOut r (execGovernorInterval s) := by
  unfold execGovernorInterval
  extract_lets loads p s1 allow units
  have h1 : Kept r s1 := h.other
  clear_value units allow p s1 loads
  split
  · exact State.testInterval_kept h1 _ _
  · exact State.applyStretch_kept (Kept.foldl_fst (fun _ _ h => govServe_kept h _ _) units (s1, loads) h1)

theorem State.postThrottle_kept {r s : State} (h : Kept r s) (mode old : Nat) : Kept r (s.postThrottle mode old) := by
  unfold State.postThrottle
  repeat' with_reducible first | assumption | apply State.post_kept | split | apply Kept.other

theorem State.sense_kept {r s : State} (h : Kept r s) (temps : List Int) : Kept r (s.sense temps) :=
  (State.freeVals_kept h 8 8).other

theorem execThermalEvaluation_kept {r s : State} (h : Kept r s) (temps : List Int) :
    KeptOut r (execThermalEvaluation temps s) := by
  unfold execThermalEvaluation
  repeat' with_reducible
    first
    | apply KeptOut.next | assumption | apply State.setFld_kept | apply State.applyStretch_kept
    | apply State.postThrottle_kept | apply State.sense_kept | split

theorem execPowerCapEvaluation_kept {r s : State} (h : Kept r s) (vin iin pin : Nat) :
    KeptOut r (execPowerCapEvaluation vin iin pin s) := by
  unfold execPowerCapEvaluation
  repeat' with_reducible
    first
    | apply KeptOut.next | assumption | apply State.setFld_kept | apply State.applyStretch_kept
    | apply State.postThrottle_kept | split | extract_lets
    | (apply Kept.other; first | assumption | apply State.setFld_kept | apply State.applyStretch_kept | apply State.postThrottle_kept | split)

theorem State.smbusAnswer_kept {r s : State} (h : Kept r s) (before d : List Byte) : KeptOut r (s.smbusAnswer before d) := by
  unfold State.smbusAnswer
  repeat' with_reducible
    first
    | apply KeptOut.next | assumption | split | (apply Kept.other; first | assumption | split)

theorem State.smbusRead_kept {r s : State} (h : Kept r s) (code : Byte) (d : List Byte) : KeptOut r (s.smbusRead code d) := by
  unfold State.smbusRead
  repeat' with_reducible first | apply KeptOut.next | assumption | apply State.smbusAnswer_kept

theorem execSmbusReadIdentity_kept {r s : State} (h : Kept r s) : KeptOut r (execSmbusReadIdentity s) := by
  unfold execSmbusReadIdentity
  repeat' with_reducible first | apply KeptOut.next | assumption | apply State.smbusAnswer_kept

theorem execSmbusReadStatus_kept {r s : State} (h : Kept r s) : KeptOut r (execSmbusReadStatus s) := by
  unfold execSmbusReadStatus
  repeat' with_reducible first | apply KeptOut.next | assumption | apply State.smbusRead_kept

theorem execSmbusReadTmax_kept {r s : State} (h : Kept r s) : KeptOut r (execSmbusReadTmax s) := by
  unfold execSmbusReadTmax
  repeat' with_reducible first | apply KeptOut.next | assumption | apply State.smbusRead_kept

theorem execSmbusReadVin_kept {r s : State} (h : Kept r s) : KeptOut r (execSmbusReadVin s) := by
  unfold execSmbusReadVin
  repeat' with_reducible first | apply KeptOut.next | assumption | apply State.smbusRead_kept

theorem execSmbusReadIin_kept {r s : State} (h : Kept r s) : KeptOut r (execSmbusReadIin s) := by
  unfold execSmbusReadIin
  repeat' with_reducible first | apply KeptOut.next | assumption | apply State.smbusRead_kept

theorem execSmbusReadPin_kept {r s : State} (h : Kept r s) : KeptOut r (execSmbusReadPin s) := by
  unfold execSmbusReadPin
  repeat' with_reducible first | apply KeptOut.next | assumption | apply State.smbusRead_kept

theorem execSmbusReadResetcause_kept {r s : State} (h : Kept r s) : KeptOut r (execSmbusReadResetcause s) := by
  unfold execSmbusReadResetcause
  repeat' with_reducible first | apply KeptOut.next | assumption | apply State.smbusRead_kept

theorem execSmbusReadFeedId_kept {r s : State} (h : Kept r s) : KeptOut r (execSmbusReadFeedId s) := by
  unfold execSmbusReadFeedId
  repeat' with_reducible first | apply KeptOut.next | assumption | apply State.smbusRead_kept

theorem execSmbusAlertResponse_kept {r s : State} (h : Kept r s) : KeptOut r (execSmbusAlertResponse s) := by
  unfold execSmbusAlertResponse
  repeat' with_reducible first | apply KeptOut.next | assumption | apply State.smbusAnswer_kept | split

theorem execSmbusNack_kept {r s : State} (h : Kept r s) (code : Nat) (write : Bool) :
    KeptOut r (execSmbusNack code write s) := by
  unfold execSmbusNack
  repeat' with_reducible first | apply KeptOut.next | assumption | split | apply Kept.other

end Sys2Proof.Machine
end

