-- ==== Sys2Proof/Laws/KeptFaults.lean ====
section
/-! SUPPORT. What the operations of Machine/Faults.lean keep (Laws/Kept.lean). -/

namespace Sys2Proof.Machine

open Sys2Proof

theorem execRowFence_kept {r s : State} (h : Kept r s) (y : Nat) : KeptOut r (execRowFence y s) := by
  unfold execRowFence
  repeat' with_reducible
    first
    | apply KeptOut.next | assumption | split | extract_lets | refine Kept.of_snd (by assumption) ?_
    | refine Kept.of_trd (by assumption) ?_ | refine Kept.of_fst (by assumption) ?_
    | (apply Kept.other; first | assumption | split)

theorem State.dropCaches_kept {r s : State} (h : Kept r s) (y x : Nat) : Kept r (s.dropCaches y x) := by
  unfold State.dropCaches
  repeat' with_reducible
    first
    | assumption | apply State.modCore_kept | exact fun _ w => w | exact fun w => h.ponds w _
    | (intro _ w; simpa using w) | (intro w; simpa using h.ponds w _)
    | (intro _ w; dsimp only; split <;> simpa using w) | refine Kept.foldl (fun s x h => ?_) ?_ _

theorem State.forgetCore_kept {r s : State} (h : Kept r s) (c : Nat) : Kept r (s.forgetCore c) := by
  have h1 : Kept r { s with cores := mdel s.cores c } := h.setCores fun w i => by
    rw [mget_mdel]
    split
    · exact Mem.reset_wf
    · exact h.ponds w i
  exact h1.other

theorem State.endNarrowed_kept {r s : State} (h : Kept r s) (j : Nat) : Kept r (s.endNarrowed j) := by
  unfold State.endNarrowed
  repeat' with_reducible
    first
    | assumption | apply State.modJob_kept | apply State.stopJob_kept | apply State.endSpan_kept | split
    | refine Kept.foldl (fun s x h => ?_) ?_ _

theorem State.narrowTo_kept {r s : State} (h : Kept r s) (y : Nat) : Kept r (s.narrowTo y) := by
  unfold State.narrowTo
  repeat' with_reducible
    first
    | assumption | apply State.setFld_kept | apply State.post_kept | apply State.forgetCore_kept
    | apply State.endNarrowed_kept | split | refine Kept.foldl (fun s x h => ?_) ?_ _
    | refine Kept.of_snd (by assumption) ?_ | refine Kept.of_trd (by assumption) ?_
    | refine Kept.of_fst (by assumption) ?_ | apply Kept.other

theorem State.fenceRelease_kept {r s : State} (h : Kept r s) : Kept r (s.fenceRelease) := by
  unfold State.fenceRelease
  repeat' with_reducible
    first
    | assumption | apply State.dropHold_kept | split | refine Kept.foldl (fun s x h => ?_) ?_ _

theorem execRowShiftComplete_kept {r s : State} (h : Kept r s) (y : Nat) : KeptOut r (execRowShiftComplete y s) := by
  unfold execRowShiftComplete
  repeat' with_reducible
    first
    | apply KeptOut.next | assumption | apply done_kept | apply State.runResets_kept | apply State.postFenced_kept
    | apply State.dropCaches_kept | apply State.narrowTo_kept | apply State.fenceRelease_kept | split
    | refine Kept.foldl (fun s x h => ?_) ?_ _ | refine Kept.of_snd (by assumption) ?_
    | refine Kept.of_trd (by assumption) ?_ | refine Kept.of_fst (by assumption) ?_ | apply Kept.other

theorem State.linkFails_kept {r s : State} (h : Kept r s) (pc : Nat) : Kept r (s.linkFails pc).2 := by
  unfold State.linkFails
  repeat' with_reducible first | assumption | apply State.freeVal_kept | apply State.setSil_kept

theorem execMeshLinkError_kept {r s : State} (h : Kept r s) (pc : Nat) : KeptOut r (execMeshLinkError pc s) := by
  unfold execMeshLinkError
  repeat' with_reducible
    first
    | apply KeptOut.next | assumption | apply done_kept | apply State.satSil_kept | apply State.makeSuspect_kept
    | apply State.routerFails_kept | apply State.linkFails_kept | split | extract_lets
    | refine Kept.of_snd (by assumption) ?_ | refine Kept.of_trd (by assumption) ?_
    | refine Kept.of_fst (by assumption) ?_
    | (apply Kept.other; first | assumption | apply done_kept | apply State.satSil_kept | apply State.makeSuspect_kept | apply State.routerFails_kept | apply State.linkFails_kept | split)

theorem execErrorDecay_kept {r s : State} (h : Kept r s) : KeptOut r (execErrorDecay s) := by
  unfold execErrorDecay
  repeat' with_reducible
    first
    | apply KeptOut.next | assumption | apply State.setSil_kept | split | refine Kept.foldl (fun s x h => ?_) ?_ _

theorem State.copyDone_kept {r s : State} (h : Kept r s) (m : Nat) (x : McCopy) : Kept r (s.copyDone m x) :=
  h.other

theorem execPageRetiredCopyDone_kept {r s : State} (h : Kept r s) (mc : Nat) : KeptOut r (execPageRetiredCopyDone mc s) := by
  unfold execPageRetiredCopyDone
  repeat' with_reducible
    first
    | apply KeptOut.next | assumption | apply State.post_kept | apply State.copyDone_kept | split

theorem execPchSpareCopyDone_kept {r s : State} (h : Kept r s) (mc : Nat) : KeptOut r (execPchSpareCopyDone mc s) := by
  unfold execPchSpareCopyDone
  repeat' with_reducible
    first
    | apply KeptOut.next | assumption | apply State.post_kept | apply State.copyDone_kept | split

theorem execPatrolScrub_kept {r s : State} (h : Kept r s) (mc : Nat) (errs : List MemErr) :
    KeptOut r (execPatrolScrub mc errs s) := by
  unfold execPatrolScrub
  repeat' with_reducible
    first
    | apply KeptOut.next | assumption | apply State.memError_kept | split | refine Kept.foldl (fun s x h => ?_) ?_ _

end Sys2Proof.Machine
end

