-- ==== Sys2Proof/Laws/KeptRegSpace.lean ====
section
/-! SUPPORT. What the operations of Machine/RegSpace.lean keep (Laws/Kept.lean). -/

namespace Sys2Proof.Machine

open Sys2Proof

theorem Kept.ite {r a b : State} {c : Prop} [Decidable c] (ha : Kept r a) (hb : Kept r b) : Kept r (if c then a else b) := by
  split <;> assumption

theorem State.writeEffect_kept {r s : State} (h : Kept r s) (sec : Bool) (a : Nat) (v : Reg) :
    Kept r (s.writeEffect sec a v) := by
  have hs := State.storeReg_kept h sec a v
  delta State.writeEffect
  apply Kept.ite
  · apply Kept.ite
    · exact State.rvChanbaseWrite_kept h _ _ _ _
    · exact Kept.ite (State.rvStageWrite_kept h _ _ _) hs
  apply Kept.ite (State.ringConfigWrite_kept h _ _ _)
  apply Kept.ite
  · apply Kept.ite (State.leaseWrite_kept h _ _)
    apply Kept.ite (State.leaseWrite_kept h _ _)
    apply Kept.ite (State.ringHeadWrite_kept h _ _)
    apply Kept.ite (State.ringHeadWrite_kept h _ _)
    apply Kept.ite (State.hqcfgWrite_kept h _ _ _)
    exact Kept.ite (State.hqptrWrite_kept h _ _) hs
  apply Kept.ite
  · apply Kept.ite (State.profileWrite_kept h _ _)
    apply Kept.ite (State.pctlWrite_kept h _ _ _)
    apply Kept.ite (State.rankmapWrite_kept h _ _ _)
    exact Kept.ite (State.jobpolWrite_kept h _ _ _) hs
  apply Kept.ite (State.worldWrite_kept h _ _)
  apply Kept.ite
  · apply Kept.ite (Kept.ite (State.invalidate_kept h) h)
    apply Kept.ite (State.flrWrite_kept h _)
    apply Kept.ite (State.corerstWrite_kept h _ _)
    apply Kept.ite (State.updlenWrite_kept h _ _)
    apply Kept.ite (State.slogptrWrite_kept h _)
    apply Kept.ite (Kept.other h)
    apply Kept.ite (State.kctlWrite_kept h _)
    apply Kept.ite (State.srptrWrite_kept h _ _)
    exact Kept.ite (State.ckctl_kept h _ _) hs
  apply Kept.ite (State.checkSpare_kept hs)
  apply Kept.ite (State.recovctlWrite_kept h _ _)
  apply Kept.ite (State.fencereqWrite_kept h _)
  apply Kept.ite
  · exact Kept.ite (State.syOcfgWrite_kept h _ _ _) (State.syOaddWrite_kept h _ _)
  · exact hs

theorem State.writeReg_kept {r s : State} (h : Kept r s) (sec : Bool) (a : Nat) (v : Reg) : Kept r (s.writeReg sec a v) := by
  unfold State.writeReg
  split
  · exact State.onOval_kept h _ _ _
  · exact State.onWrite_kept h _ _ fun _ h => State.writeEffect_kept h _ _ _

theorem execRegisterWrite_kept {r s : State} (h : Kept r s) (sec : Bool) (addr : Nat) (v : BitVec 64) :
    KeptOut r (execRegisterWrite sec addr v s) := by
  unfold execRegisterWrite
  repeat' with_reducible first | apply KeptOut.next | assumption | apply done_kept | apply State.writeReg_kept

theorem State.imemPut_kept {r s : State} (h : Kept r s) (c idx : Nat) (w : Word) : Kept r (s.imemPut c idx w) := by
  unfold State.imemPut
  repeat' with_reducible
    first
    | assumption | apply State.modCore_kept | exact fun _ w => w | exact fun w => h.ponds w _
    | (intro _ w; simpa using w) | (intro w; simpa using h.ponds w _)

theorem execCoreWindowImemWrite_kept {r s : State} (h : Kept r s) (sec : Bool) (c : Nat) (idx : Nat) (v : BitVec 32) :
    KeptOut r (execCoreWindowImemWrite sec c idx v s) := by
  unfold execCoreWindowImemWrite
  repeat' with_reducible
    first
    | apply KeptOut.next | assumption | apply State.blockAccess_kept | apply State.imemPut_kept | split

theorem State.windowPondPut_kept {r s : State} (h : Kept r s) (c off : Nat) (d : List Byte) :
    Kept r (s.windowPondPut c off d) :=
  State.modCore_kept h _ _ fun _ w => Mem.write_wf w _ _

theorem execCoreWindowPondAccess_kept {r s : State} (h : Kept r s) (sec : Bool) (c : Nat) (off : Nat) (len : Nat) (wr : Option (List (BitVec 8))) :
    KeptOut r (execCoreWindowPondAccess sec c off len wr s) := by
  unfold execCoreWindowPondAccess
  repeat' with_reducible
    first
    | apply KeptOut.next | assumption | apply State.blockAccess_kept | apply State.windowPondPut_kept | split

theorem State.unitReg_kept {r s : State} (h : Kept r s) (u : Nat) : Kept r (s.unitReg u).2.2 := State.regRead_kept h false u

theorem State.unitWindow_kept {r s : State} (h : Kept r s) (u : Nat) : Kept r (s.unitWindow u).2.2 := by
  have h1 := State.unitReg_kept h u
  unfold State.unitWindow
  extract_lets o k
  split
  · exact h
  · split
    · exact h
    · exact h1

theorem State.unitRead_kept {r s : State} (h : Kept r s) (u : Nat) : Kept r (s.unitRead u).2.2 := by
  unfold State.unitRead
  split
  · split
    · exact State.unitWindow_kept h u
    · exact h
  · exact State.unitReg_kept h u

theorem State.countWindows_kept {r s : State} (h : Kept r s) (us : List Nat) : Kept r (s.countWindows us) := by
  unfold State.countWindows
  repeat' with_reducible first | assumption | apply State.blockAccess_kept | refine Kept.foldl (fun s x h => ?_) ?_ _

theorem State.spaceRead_kept {r s : State} (h : Kept r s) (a n : Nat) : Kept r (s.spaceRead a n).2.2 := by
  have hu : ∀ (l : List Nat) (x : List Byte × Bool × State), Kept r x.2.2 →
      Kept r (l.foldl (fun (x : List Byte × Bool × State) u =>
        let (d, b, t) := x.2.2.unitRead u
        (x.1 ++ d, x.2.1 || b, t)) x).2.2 := by
    intro l
    induction l with
    | nil => exact fun _ h => h
    | cons u l ih => exact fun x h => ih _ (State.unitRead_kept h u)
  exact State.countWindows_kept (hu _ ([], false, s) h) _

theorem State.pondParts_kept {r s : State} (h : Kept r s) (a : Nat) (d : List Byte) : Kept r (s.pondParts a d) := by
  unfold State.pondParts
  repeat' with_reducible
    first
    | assumption | apply State.windowPondPut_kept | split | refine Kept.foldl (fun s x h => ?_) ?_ _
    | apply Kept.other

theorem State.imemParts_kept {r s : State} (h : Kept r s) (a : Nat) (d : List Byte) : Kept r (s.imemParts a d) := by
  unfold State.imemParts
  repeat' with_reducible
    first
    | assumption | apply State.imemPut_kept | split | refine Kept.foldl (fun s x h => ?_) ?_ _ | apply Kept.other

theorem State.regParts_kept {r s : State} (h : Kept r s) (a : Nat) (d : List Byte) : Kept r (s.regParts a d) := by
  unfold State.regParts
  repeat' with_reducible
    first
    | assumption | apply State.writeReg_kept | split | refine Kept.foldl (fun s x h => ?_) ?_ _ | apply Kept.other

theorem State.spaceWrite_kept {r s : State} (h : Kept r s) (a : Nat) (d : List Byte) : Kept r (s.spaceWrite a d) := by
  unfold State.spaceWrite
  repeat' with_reducible
    first
    | assumption | apply State.countWindows_kept | apply State.pondParts_kept | apply State.imemParts_kept
    | apply State.regParts_kept

end Sys2Proof.Machine
end

