-- ==== Sys2Proof/Laws/KeptHostLink.lean ====
section
/-! SUPPORT. What the operations of Machine/HostLink.lean keep (Laws/Kept.lean). -/

namespace Sys2Proof.Machine

open Sys2Proof

theorem State.hostRead_kept {r s : State} (h : Kept r s) (a n : Nat) : Kept r (s.hostRead a n).2.2 := by
  unfold State.hostRead
  repeat' with_reducible first | assumption | apply State.devRead_kept | apply State.spaceRead_kept | split

theorem State.hostWrite_kept {r s : State} (h : Kept r s) (a : Nat) (d : List Byte) : Kept r (s.hostWrite a d) := by
  unfold State.hostWrite
  repeat' with_reducible
    first
    | assumption | apply State.devWrite_kept | apply State.spaceWrite_kept | split | apply Kept.other

theorem State.hostAck_kept {r s : State} (h : Kept r s) (ack : BitVec 12) : Kept r (s.hostAck ack) := by
  unfold State.hostAck
  repeat' with_reducible
    first
    | assumption | apply State.hostPump_kept | apply State.hostViolation_kept | split | apply Kept.other

theorem State.hostSeq_kept {r s : State} (h : Kept r s) (f : HFlit) : Kept r (s.hostSeq f).2 := by
  unfold State.hostSeq
  repeat' with_reducible
    first
    | assumption | apply State.modPort_kept | apply State.hostLnakOut_kept | apply State.hostNakAgain_kept
    | apply State.hostViolation_kept | split | extract_lets
    | (apply Kept.other; first | assumption | apply State.modPort_kept | apply State.hostLnakOut_kept | apply State.hostNakAgain_kept | apply State.hostViolation_kept | split)

theorem State.hostCreditTake_kept {r s : State} (h : Kept r s) (posted : Bool) : Kept r (s.hostCreditTake posted).2 := by
  unfold State.hostCreditTake
  repeat' with_reducible
    first
    | assumption | apply State.sendHostCredit_kept | apply State.hostViolation_kept | split | extract_lets
    | (apply Kept.other; first | assumption | apply State.sendHostCredit_kept | apply State.hostViolation_kept | split)

theorem State.onHostFlit_kept {r s : State} (h : Kept r s) (f : HFlit) {eff : State → State}
    (he : ∀ t, Kept r t → Kept r (eff t)) : KeptOut r (s.onHostFlit f eff) := by
  unfold State.onHostFlit
  extract_lets t s0 s1 s2 again kept l3 s3
  have h0 : Kept r s0 := State.counted_kept h _ _
  have h1 : Kept r s1 := State.hostAck_kept h0 _
  have h2 : Kept r s2 := State.hostPump_kept h1
  have h3 : Kept r s3 := h2.other
  clear_value s3 l3 again kept s2 s1 s0
  split
  · exact h
  · split
    · exact done_kept (State.hostViolation_kept h0 _)
    · split
      · exact done_kept (State.hostPump_kept (he _ h1))
      · split
        · refine done_kept ?_
          split
          · exact h3
          · exact he _ h3
        · have h4 := State.hostSeq_kept h2 f
          revert h4
          generalize s2.hostSeq f = x
          obtain ⟨ok, s4⟩ := x
          intro h4
          simp only at h4 ⊢
          split
          · exact done_kept h4
          · have h5 : Kept r (if hClassed t then s4.hostCreditTake (t != 2) else (true, s4)).2 := by
              split
              · exact State.hostCreditTake_kept h4 _
              · exact h4
            revert h5
            generalize (if hClassed t then s4.hostCreditTake (t != 2) else (true, s4)) = y
            obtain ⟨ok, s5⟩ := y
            intro h5
            simp only at h5 ⊢
            split
            · exact done_kept h5.other
            · exact done_kept (he _ h5.other)

theorem execMwr_kept {r s : State} (h : Kept r s) (f : HFlit) : KeptOut r (execMwr f s) := by
  unfold execMwr
  repeat' with_reducible
    first
    | apply KeptOut.next | assumption | apply State.hostViolation_kept | apply State.hostGood_kept
    | apply State.hostWrite_kept | apply State.onHostFlit_kept | split | intro _ _ _ | intro _ _ | intro _

theorem State.answerRead_kept {r s : State} (h : Kept r s) (f : HFlit) (status : Nat) (d : List Byte) :
    Kept r (s.answerRead f status d) := by
  unfold State.answerRead
  repeat' with_reducible
    first
    | assumption | apply State.hostSend_kept | split | refine Kept.foldl (fun s x h => ?_) ?_ _

theorem execMrd_kept {r s : State} (h : Kept r s) (f : HFlit) : KeptOut r (execMrd f s) := by
  unfold execMrd
  repeat' with_reducible
    first
    | apply KeptOut.next | assumption | apply State.hostViolation_kept | apply State.hostGood_kept
    | apply State.hostRead_kept | apply State.onHostFlit_kept | apply State.answerRead_kept | split | extract_lets
    | intro _ _ _ | intro _ _ | intro _

theorem execDbell_kept {r s : State} (h : Kept r s) (f : HFlit) : KeptOut r (execDbell f s) := by
  unfold execDbell
  repeat' with_reducible
    first
    | apply KeptOut.next | assumption | apply State.onWrite_kept | apply State.hostViolation_kept
    | apply State.hostGood_kept | apply State.doorbell_kept | apply State.onHostFlit_kept | split | extract_lets
    | intro _ _ _ | intro _ _ | intro _

theorem execHostCredit_kept {r s : State} (h : Kept r s) (f : HFlit) : KeptOut r (execHostCredit f s) := by
  unfold execHostCredit
  repeat' with_reducible
    first
    | apply KeptOut.next | assumption | apply State.hostPump_kept | apply State.hostViolation_kept
    | apply State.hostGood_kept | apply State.onHostFlit_kept | split | intro _ _ _ | intro _ _ | intro _
    | (apply Kept.other; first | assumption | apply State.hostPump_kept | apply State.hostViolation_kept | apply State.hostGood_kept | apply State.onHostFlit_kept | split)

theorem execHostLnak_kept {r s : State} (h : Kept r s) (f : HFlit) : KeptOut r (execHostLnak f s) := by
  unfold execHostLnak
  repeat' with_reducible
    first
    | apply KeptOut.next | assumption | apply State.hostReplay_kept | apply State.onHostFlit_kept | split
    | extract_lets | intro _ _ _ | intro _ _ | intro _

theorem State.dropFragments_kept {r s : State} (h : Kept r s) : Kept r (s.dropFragments) := h.other

theorem State.takeFragment_kept {r s : State} (h : Kept r s) (f : HFlit) : Kept r (s.takeFragment f).2 := by
  unfold State.takeFragment
  repeat' with_reducible
    first
    | assumption | apply State.hostViolation_kept | apply State.hostGood_kept | apply State.dropFragments_kept | split
    | extract_lets | refine Kept.of_snd (by assumption) ?_ | refine Kept.of_trd (by assumption) ?_
    | refine Kept.of_fst (by assumption) ?_
    | (apply Kept.other; first | assumption | apply State.hostViolation_kept | apply State.hostGood_kept | apply State.dropFragments_kept | split)

theorem State.takeLinkid_kept {r s : State} (h : Kept r s) (m : List Byte) : Kept r (s.takeLinkid m) := by
  unfold State.takeLinkid
  repeat' with_reducible
    first
    | assumption | apply State.modPort_kept | apply State.hostPump_kept | extract_lets
    | (apply Kept.other; first | assumption | apply State.modPort_kept | apply State.hostPump_kept)

theorem State.takeHostWidth_kept {r s : State} (h : Kept r s) (m : List Byte) : Kept r (s.takeHostWidth m) := by
  unfold State.takeHostWidth
  repeat' with_reducible
    first
    | assumption | apply State.takeWidth_kept | apply State.hostViolation_kept | split | extract_lets

theorem State.takeMgmt_kept {r s : State} (h : Kept r s) (f : HFlit) : Kept r (s.takeMgmt f) := by
  unfold State.takeMgmt
  repeat' with_reducible
    first
    | assumption | apply State.hostViolation_kept | apply State.spdmAsk_kept | apply State.takeFragment_kept
    | apply State.takeLinkid_kept | apply State.takeHostWidth_kept | split | refine Kept.of_snd (by assumption) ?_
    | refine Kept.of_trd (by assumption) ?_ | refine Kept.of_fst (by assumption) ?_

theorem execLinkid_kept {r s : State} (h : Kept r s) (f : HFlit) : KeptOut r (execLinkid f s) := by
  unfold execLinkid
  repeat' with_reducible
    first
    | apply KeptOut.next | assumption | apply State.onHostFlit_kept | apply State.takeMgmt_kept | split | intro _ _ _
    | intro _ _ | intro _

theorem execMgmtWidth_kept {r s : State} (h : Kept r s) (f : HFlit) : KeptOut r (execMgmtWidth f s) := by
  unfold execMgmtWidth
  repeat' with_reducible
    first
    | apply KeptOut.next | assumption | apply State.onHostFlit_kept | apply State.takeMgmt_kept | split | intro _ _ _
    | intro _ _ | intro _

end Sys2Proof.Machine
end

