-- ==== Sys2Proof/Laws/KeptAttest.lean ====
section
/-! SUPPORT. What the operations of Machine/Attest.lean keep (Laws/Kept.lean). -/

namespace Sys2Proof.Machine

open Sys2Proof

theorem execGetVersion_kept {r s : State} (h : Kept r s) : KeptOut r (execGetVersion s) := by
  unfold execGetVersion
  repeat' with_reducible first | apply KeptOut.next | assumption | apply State.spdmAsk_kept

theorem execGetCapabilities_kept {r s : State} (h : Kept r s) : KeptOut r (execGetCapabilities s) := by
  unfold execGetCapabilities
  repeat' with_reducible first | apply KeptOut.next | assumption | apply State.spdmAsk_kept

theorem execNegotiateAlgorithms_kept {r s : State} (h : Kept r s) : KeptOut r (execNegotiateAlgorithms s) := by
  unfold execNegotiateAlgorithms
  repeat' with_reducible first | apply KeptOut.next | assumption | apply State.spdmAsk_kept

theorem execGetDigests_kept {r s : State} (h : Kept r s) : KeptOut r (execGetDigests s) := by
  unfold execGetDigests
  repeat' with_reducible first | apply KeptOut.next | assumption | apply State.spdmAsk_kept

theorem execGetCertificate_kept {r s : State} (h : Kept r s) (slot : Nat) (off : Nat) (len : Nat) :
    KeptOut r (execGetCertificate slot off len s) := by
  unfold execGetCertificate
  repeat' with_reducible first | apply KeptOut.next | assumption | apply State.spdmAsk_kept

theorem execChallenge_kept {r s : State} (h : Kept r s) (slot : Nat) (nonce : List (BitVec 8)) :
    KeptOut r (execChallenge slot nonce s) := by
  unfold execChallenge
  repeat' with_reducible first | apply KeptOut.next | assumption | apply State.spdmAsk_kept

theorem execGetMeasurements_kept {r s : State} (h : Kept r s) (index : Nat) (signed : Bool) (nonce : List (BitVec 8)) :
    KeptOut r (execGetMeasurements index signed nonce s) := by
  unfold execGetMeasurements
  repeat' with_reducible first | apply KeptOut.next | assumption | apply State.spdmAsk_kept

theorem execSpdmUnsupportedRequest_kept {r s : State} (h : Kept r s) (code : Nat) :
    KeptOut r (execSpdmUnsupportedRequest code s) := by
  unfold execSpdmUnsupportedRequest
  repeat' with_reducible first | apply KeptOut.next | assumption | apply State.spdmAsk_kept

end Sys2Proof.Machine
end

