-- ==== Sys2Proof/Laws/PerInstr.lean ====
section
/-! SUPPORT. Facts about every command as syntax. -/

namespace Sys2Proof.Laws

/-- A well-formed command that names a logical core names one of the 1,024 IDs of R8. -/
def CoreBound.Statement (i : Instr) : Prop := i.wf = true → ∀ c, i.core? = some c → c < 1024

theorem CoreBound.nop (c : _) : CoreBound.Statement (.nop c) :=
  fun h _ hk => Option.some.inj hk ▸ of_decide_eq_true h
theorem CoreBound.alu (c : _) (rd : _) (ra : _) (rb : _) (func : _) : CoreBound.Statement (.alu c rd ra rb func) :=
  fun h _ hk => Option.some.inj hk ▸ of_decide_eq_true h
theorem CoreBound.addi (c : _) (rd : _) (ra : _) (imm : _) : CoreBound.Statement (.addi c rd ra imm) :=
  fun h _ hk => Option.some.inj hk ▸ of_decide_eq_true h
theorem CoreBound.andi (c : _) (rd : _) (ra : _) (imm : _) : CoreBound.Statement (.andi c rd ra imm) :=
  fun h _ hk => Option.some.inj hk ▸ of_decide_eq_true h
theorem CoreBound.ori (c : _) (rd : _) (ra : _) (imm : _) : CoreBound.Statement (.ori c rd ra imm) :=
  fun h _ hk => Option.some.inj hk ▸ of_decide_eq_true h
theorem CoreBound.xori (c : _) (rd : _) (ra : _) (imm : _) : CoreBound.Statement (.xori c rd ra imm) :=
  fun h _ hk => Option.some.inj hk ▸ of_decide_eq_true h
theorem CoreBound.shli (c : _) (rd : _) (ra : _) (imm : _) : CoreBound.Statement (.shli c rd ra imm) :=
  fun h _ hk => Option.some.inj hk ▸ of_decide_eq_true h
theorem CoreBound.shri (c : _) (rd : _) (ra : _) (imm : _) : CoreBound.Statement (.shri c rd ra imm) :=
  fun h _ hk => Option.some.inj hk ▸ of_decide_eq_true h
theorem CoreBound.sari (c : _) (rd : _) (ra : _) (imm : _) : CoreBound.Statement (.sari c rd ra imm) :=
  fun h _ hk => Option.some.inj hk ▸ of_decide_eq_true h
theorem CoreBound.muli (c : _) (rd : _) (ra : _) (imm : _) : CoreBound.Statement (.muli c rd ra imm) :=
  fun h _ hk => Option.some.inj hk ▸ of_decide_eq_true h
theorem CoreBound.lui (c : _) (rd : _) (imm : _) : CoreBound.Statement (.lui c rd imm) :=
  fun h _ hk => Option.some.inj hk ▸ of_decide_eq_true h
theorem CoreBound.shori (c : _) (rd : _) (ra : _) (imm : _) : CoreBound.Statement (.shori c rd ra imm) :=
  fun h _ hk => Option.some.inj hk ▸ of_decide_eq_true h
theorem CoreBound.cmp (c : _) (rd : _) (ra : _) (rb : _) (func : _) : CoreBound.Statement (.cmp c rd ra rb func) :=
  fun h _ hk => Option.some.inj hk ▸ of_decide_eq_true h
theorem CoreBound.cmpi (c : _) (pd : _) (cond : _) (ra : _) (imm : _) : CoreBound.Statement (.cmpi c pd cond ra imm) :=
  fun h _ hk => Option.some.inj hk ▸ of_decide_eq_true h
theorem CoreBound.plog (c : _) (rd : _) (ra : _) (rb : _) (func : _) : CoreBound.Statement (.plog c rd ra rb func) :=
  fun h _ hk => Option.some.inj hk ▸ of_decide_eq_true h
theorem CoreBound.mfs (c : _) (rd : _) (imm : _) : CoreBound.Statement (.mfs c rd imm) :=
  fun h _ hk => Option.some.inj hk ▸ of_decide_eq_true h
theorem CoreBound.mts (c : _) (ra : _) (imm : _) : CoreBound.Statement (.mts c ra imm) :=
  fun h _ hk => Option.some.inj hk ▸ of_decide_eq_true h
theorem CoreBound.ld8 (c : _) (rd : _) (ra : _) (imm : _) : CoreBound.Statement (.ld8 c rd ra imm) :=
  fun h _ hk => Option.some.inj hk ▸ of_decide_eq_true h
theorem CoreBound.ld16 (c : _) (rd : _) (ra : _) (imm : _) : CoreBound.Statement (.ld16 c rd ra imm) :=
  fun h _ hk => Option.some.inj hk ▸ of_decide_eq_true h
theorem CoreBound.ld32 (c : _) (rd : _) (ra : _) (imm : _) : CoreBound.Statement (.ld32 c rd ra imm) :=
  fun h _ hk => Option.some.inj hk ▸ of_decide_eq_true h
theorem CoreBound.ld64 (c : _) (rd : _) (ra : _) (imm : _) : CoreBound.Statement (.ld64 c rd ra imm) :=
  fun h _ hk => Option.some.inj hk ▸ of_decide_eq_true h
theorem CoreBound.lds8 (c : _) (rd : _) (ra : _) (imm : _) : CoreBound.Statement (.lds8 c rd ra imm) :=
  fun h _ hk => Option.some.inj hk ▸ of_decide_eq_true h
theorem CoreBound.lds16 (c : _) (rd : _) (ra : _) (imm : _) : CoreBound.Statement (.lds16 c rd ra imm) :=
  fun h _ hk => Option.some.inj hk ▸ of_decide_eq_true h
theorem CoreBound.lds32 (c : _) (rd : _) (ra : _) (imm : _) : CoreBound.Statement (.lds32 c rd ra imm) :=
  fun h _ hk => Option.some.inj hk ▸ of_decide_eq_true h
theorem CoreBound.st8 (c : _) (rd : _) (ra : _) (imm : _) : CoreBound.Statement (.st8 c rd ra imm) :=
  fun h _ hk => Option.some.inj hk ▸ of_decide_eq_true h
theorem CoreBound.st16 (c : _) (rd : _) (ra : _) (imm : _) : CoreBound.Statement (.st16 c rd ra imm) :=
  fun h _ hk => Option.some.inj hk ▸ of_decide_eq_true h
theorem CoreBound.st32 (c : _) (rd : _) (ra : _) (imm : _) : CoreBound.Statement (.st32 c rd ra imm) :=
  fun h _ hk => Option.some.inj hk ▸ of_decide_eq_true h
theorem CoreBound.st64 (c : _) (rd : _) (ra : _) (imm : _) : CoreBound.Statement (.st64 c rd ra imm) :=
  fun h _ hk => Option.some.inj hk ▸ of_decide_eq_true h
theorem CoreBound.br (c : _) (l : _) (n : _) (p : _) (off : _) : CoreBound.Statement (.br c l n p off) :=
  fun h _ hk => Option.some.inj hk ▸ of_decide_eq_true h
theorem CoreBound.jr (c : _) (rd : _) (ra : _) : CoreBound.Statement (.jr c rd ra) :=
  fun h _ hk => Option.some.inj hk ▸ of_decide_eq_true h
theorem CoreBound.loop (c : _) (n : _) (isImm : _) (len : _) (count : _) : CoreBound.Statement (.loop c n isImm len count) :=
  fun h _ hk => Option.some.inj hk ▸ of_decide_eq_true h
theorem CoreBound.cset (c : _) (rd : _) (ra : _) (lsb : _) (func : _) : CoreBound.Statement (.cset c rd ra lsb func) :=
  fun h _ hk => Option.some.inj hk ▸ of_decide_eq_true h
theorem CoreBound.cseti (c : _) (rd : _) (imm : _) : CoreBound.Statement (.cseti c rd imm) :=
  fun h _ hk => Option.some.inj hk ▸ of_decide_eq_true h
theorem CoreBound.push (c : _) (ra : _) : CoreBound.Statement (.push c ra) :=
  fun h _ hk => Option.some.inj hk ▸ of_decide_eq_true h
theorem CoreBound.pushStallEnd (c : _) : CoreBound.Statement (.pushStallEnd c) :=
  fun h _ hk => Option.some.inj hk ▸ of_decide_eq_true h
theorem CoreBound.qlvl (c : _) (rd : _) (e : _) : CoreBound.Statement (.qlvl c rd e) :=
  fun h _ hk => Option.some.inj hk ▸ of_decide_eq_true h
theorem CoreBound.qdue (c : _) (ra : _) (e : _) : CoreBound.Statement (.qdue c ra e) :=
  fun h _ hk => Option.some.inj hk ▸ of_decide_eq_true h
theorem CoreBound.fset (c : _) (ra : _) (imm : _) : CoreBound.Statement (.fset c ra imm) :=
  fun h _ hk => Option.some.inj hk ▸ of_decide_eq_true h
theorem CoreBound.fclr (c : _) (ra : _) (imm : _) : CoreBound.Statement (.fclr c ra imm) :=
  fun h _ hk => Option.some.inj hk ▸ of_decide_eq_true h
theorem CoreBound.ftst (c : _) (rd : _) (ra : _) (imm : _) : CoreBound.Statement (.ftst c rd ra imm) :=
  fun h _ hk => Option.some.inj hk ▸ of_decide_eq_true h
theorem CoreBound.fwait (c : _) (rd : _) (ra : _) (imm : _) : CoreBound.Statement (.fwait c rd ra imm) :=
  fun h _ hk => Option.some.inj hk ▸ of_decide_eq_true h
theorem CoreBound.fwaitRelease (c : _) : CoreBound.Statement (.fwaitRelease c) :=
  fun h _ hk => Option.some.inj hk ▸ of_decide_eq_true h
theorem CoreBound.ctradd (c : _) (rd : _) (ra : _) (rb : _) (func : _) : CoreBound.Statement (.ctradd c rd ra rb func) :=
  fun h _ hk => Option.some.inj hk ▸ of_decide_eq_true h
theorem CoreBound.ctraddReply (c : _) : CoreBound.Statement (.ctraddReply c) :=
  fun h _ hk => Option.some.inj hk ▸ of_decide_eq_true h
theorem CoreBound.ctrwait (c : _) (rd : _) (ra : _) (rb : _) (func : _) : CoreBound.Statement (.ctrwait c rd ra rb func) :=
  fun h _ hk => Option.some.inj hk ▸ of_decide_eq_true h
theorem CoreBound.ctrwaitRelease (c : _) : CoreBound.Statement (.ctrwaitRelease c) :=
  fun h _ hk => Option.some.inj hk ▸ of_decide_eq_true h
theorem CoreBound.slarr (c : _) (rd : _) (ra : _) (func : _) : CoreBound.Statement (.slarr c rd ra func) :=
  fun h _ hk => Option.some.inj hk ▸ of_decide_eq_true h
theorem CoreBound.slwait (c : _) (rd : _) (ra : _) (rb : _) (func : _) : CoreBound.Statement (.slwait c rd ra rb func) :=
  fun h _ hk => Option.some.inj hk ▸ of_decide_eq_true h
theorem CoreBound.slwaitRelease (c : _) : CoreBound.Statement (.slwaitRelease c) :=
  fun h _ hk => Option.some.inj hk ▸ of_decide_eq_true h
theorem CoreBound.evt (c : _) (ra : _) (imm : _) : CoreBound.Statement (.evt c ra imm) :=
  fun h _ hk => Option.some.inj hk ▸ of_decide_eq_true h
theorem CoreBound.step (c : _) : CoreBound.Statement (.step c) :=
  fun h _ hk => Option.some.inj hk ▸ of_decide_eq_true h
theorem CoreBound.halt (c : _) : CoreBound.Statement (.halt c) :=
  fun h _ hk => Option.some.inj hk ▸ of_decide_eq_true h
theorem CoreBound.unassignedOpcode (c : _) (w : _) : CoreBound.Statement (.unassignedOpcode c w) :=
  fun h _ hk => Option.some.inj hk ▸ of_decide_eq_true h
theorem CoreBound.idle (c : _) (e : _) : CoreBound.Statement (.idle c e) :=
  fun h _ hk => Option.some.inj hk ▸ (of_decide_eq_true h).1
theorem CoreBound.idleComplete (c : _) (e : _) : CoreBound.Statement (.idleComplete c e) :=
  fun h _ hk => Option.some.inj hk ▸ (of_decide_eq_true h).1
theorem CoreBound.mma (c : _) (mis : _) : CoreBound.Statement (.mma c mis) :=
  fun h _ hk => Option.some.inj hk ▸ (of_decide_eq_true h).1
theorem CoreBound.mmaComplete (c : _) : CoreBound.Statement (.mmaComplete c) :=
  fun h _ hk => Option.some.inj hk ▸ of_decide_eq_true h
theorem CoreBound.drain (c : _) : CoreBound.Statement (.drain c) :=
  fun h _ hk => Option.some.inj hk ▸ of_decide_eq_true h
theorem CoreBound.drainComplete (c : _) : CoreBound.Statement (.drainComplete c) :=
  fun h _ hk => Option.some.inj hk ▸ of_decide_eq_true h
theorem CoreBound.drainRecordComplete (c : _) : CoreBound.Statement (.drainRecordComplete c) :=
  fun h _ hk => Option.some.inj hk ▸ of_decide_eq_true h
theorem CoreBound.wstore (c : _) : CoreBound.Statement (.wstore c) :=
  fun h _ hk => Option.some.inj hk ▸ of_decide_eq_true h
theorem CoreBound.wstoreComplete (c : _) : CoreBound.Statement (.wstoreComplete c) :=
  fun h _ hk => Option.some.inj hk ▸ of_decide_eq_true h
theorem CoreBound.wload (c : _) (mis : _) : CoreBound.Statement (.wload c mis) :=
  fun h _ hk => Option.some.inj hk ▸ (of_decide_eq_true h).1
theorem CoreBound.wloadComplete (c : _) : CoreBound.Statement (.wloadComplete c) :=
  fun h _ hk => Option.some.inj hk ▸ of_decide_eq_true h
theorem CoreBound.vop (c : _) : CoreBound.Statement (.vop c) :=
  fun h _ hk => Option.some.inj hk ▸ of_decide_eq_true h
theorem CoreBound.vopComplete (c : _) : CoreBound.Statement (.vopComplete c) :=
  fun h _ hk => Option.some.inj hk ▸ of_decide_eq_true h
theorem CoreBound.vred (c : _) : CoreBound.Statement (.vred c) :=
  fun h _ hk => Option.some.inj hk ▸ of_decide_eq_true h
theorem CoreBound.vredComplete (c : _) : CoreBound.Statement (.vredComplete c) :=
  fun h _ hk => Option.some.inj hk ▸ of_decide_eq_true h
theorem CoreBound.rngFill (c : _) : CoreBound.Statement (.rngFill c) :=
  fun h _ hk => Option.some.inj hk ▸ of_decide_eq_true h
theorem CoreBound.rngFillComplete (c : _) : CoreBound.Statement (.rngFillComplete c) :=
  fun h _ hk => Option.some.inj hk ▸ of_decide_eq_true h
theorem CoreBound.rngKey (c : _) : CoreBound.Statement (.rngKey c) :=
  fun h _ hk => Option.some.inj hk ▸ of_decide_eq_true h
theorem CoreBound.rngBind (c : _) : CoreBound.Statement (.rngBind c) :=
  fun h _ hk => Option.some.inj hk ▸ of_decide_eq_true h
theorem CoreBound.rngSeek (c : _) : CoreBound.Statement (.rngSeek c) :=
  fun h _ hk => Option.some.inj hk ▸ of_decide_eq_true h
theorem CoreBound.upd (c : _) : CoreBound.Statement (.upd c) :=
  fun h _ hk => Option.some.inj hk ▸ of_decide_eq_true h
theorem CoreBound.updComplete (c : _) : CoreBound.Statement (.updComplete c) :=
  fun h _ hk => Option.some.inj hk ▸ of_decide_eq_true h
theorem CoreBound.ldt (c : _) (errs : _) : CoreBound.Statement (.ldt c errs) :=
  fun h _ hk => Option.some.inj hk ▸ of_decide_eq_true h
theorem CoreBound.ldtComplete (c : _) (k : _) : CoreBound.Statement (.ldtComplete c k) :=
  fun h _ hk => Option.some.inj hk ▸ of_decide_eq_true h
theorem CoreBound.stt (c : _) : CoreBound.Statement (.stt c) :=
  fun h _ hk => Option.some.inj hk ▸ of_decide_eq_true h
theorem CoreBound.sttComplete (c : _) (k : _) : CoreBound.Statement (.sttComplete c k) :=
  fun h _ hk => Option.some.inj hk ▸ of_decide_eq_true h
theorem CoreBound.prf (c : _) : CoreBound.Statement (.prf c) :=
  fun h _ hk => Option.some.inj hk ▸ of_decide_eq_true h
theorem CoreBound.prfScan (c : _) : CoreBound.Statement (.prfScan c) :=
  fun h _ hk => Option.some.inj hk ▸ of_decide_eq_true h
theorem CoreBound.prfComplete (c : _) (k : _) : CoreBound.Statement (.prfComplete c k) :=
  fun h _ hk => Option.some.inj hk ▸ of_decide_eq_true h
theorem CoreBound.send (c : _) : CoreBound.Statement (.send c) :=
  fun h _ hk => Option.some.inj hk ▸ of_decide_eq_true h
theorem CoreBound.sendComplete (c : _) (k : _) : CoreBound.Statement (.sendComplete c k) :=
  fun h _ hk => Option.some.inj hk ▸ of_decide_eq_true h
theorem CoreBound.recv (c : _) : CoreBound.Statement (.recv c) :=
  fun h _ hk => Option.some.inj hk ▸ of_decide_eq_true h
theorem CoreBound.recvComplete (c : _) (k : _) : CoreBound.Statement (.recvComplete c k) :=
  fun h _ hk => Option.some.inj hk ▸ of_decide_eq_true h
theorem CoreBound.collReduceScatter (c : _) : CoreBound.Statement (.collReduceScatter c) :=
  fun h _ hk => Option.some.inj hk ▸ of_decide_eq_true h
theorem CoreBound.collAllGather (c : _) : CoreBound.Statement (.collAllGather c) :=
  fun h _ hk => Option.some.inj hk ▸ of_decide_eq_true h
theorem CoreBound.collAllReduce (c : _) : CoreBound.Statement (.collAllReduce c) :=
  fun h _ hk => Option.some.inj hk ▸ of_decide_eq_true h
theorem CoreBound.collBroadcast (c : _) : CoreBound.Statement (.collBroadcast c) :=
  fun h _ hk => Option.some.inj hk ▸ of_decide_eq_true h
theorem CoreBound.collMessage (flow : _) : CoreBound.Statement (.collMessage flow) := fun _ _ hk => nomatch hk
theorem CoreBound.collComplete (c : _) (k : _) : CoreBound.Statement (.collComplete c k) :=
  fun h _ hk => Option.some.inj hk ▸ of_decide_eq_true h
theorem CoreBound.flagWait (c : _) : CoreBound.Statement (.flagWait c) :=
  fun h _ hk => Option.some.inj hk ▸ of_decide_eq_true h
theorem CoreBound.flagSet (c : _) : CoreBound.Statement (.flagSet c) :=
  fun h _ hk => Option.some.inj hk ▸ of_decide_eq_true h
theorem CoreBound.flagClr (c : _) : CoreBound.Statement (.flagClr c) :=
  fun h _ hk => Option.some.inj hk ▸ of_decide_eq_true h
theorem CoreBound.flagCtradd (c : _) : CoreBound.Statement (.flagCtradd c) :=
  fun h _ hk => Option.some.inj hk ▸ of_decide_eq_true h
theorem CoreBound.flagActionDue (c : _) (k : _) : CoreBound.Statement (.flagActionDue c k) :=
  fun h _ hk => Option.some.inj hk ▸ of_decide_eq_true h
theorem CoreBound.rsvpush (c : _) : CoreBound.Statement (.rsvpush c) :=
  fun h _ hk => Option.some.inj hk ▸ of_decide_eq_true h
theorem CoreBound.rsvpushComplete (c : _) : CoreBound.Statement (.rsvpushComplete c) :=
  fun h _ hk => Option.some.inj hk ▸ of_decide_eq_true h
theorem CoreBound.rsvpop (c : _) : CoreBound.Statement (.rsvpop c) :=
  fun h _ hk => Option.some.inj hk ▸ of_decide_eq_true h
theorem CoreBound.rsvpopComplete (c : _) : CoreBound.Statement (.rsvpopComplete c) :=
  fun h _ hk => Option.some.inj hk ▸ of_decide_eq_true h
theorem CoreBound.rsvEntryWritten (c : _) : CoreBound.Statement (.rsvEntryWritten c) :=
  fun h _ hk => Option.some.inj hk ▸ of_decide_eq_true h
theorem CoreBound.rsvEntryStaged (c : _) : CoreBound.Statement (.rsvEntryStaged c) :=
  fun h _ hk => Option.some.inj hk ▸ of_decide_eq_true h
theorem CoreBound.prefetchFill (c : _) (t : _) : CoreBound.Statement (.prefetchFill c t) :=
  fun h _ hk => Option.some.inj hk ▸ (of_decide_eq_true h).1
theorem CoreBound.descriptorFetch (c : _) (handle : _) : CoreBound.Statement (.descriptorFetch c handle) :=
  fun h _ hk => Option.some.inj hk ▸ of_decide_eq_true h
theorem CoreBound.freezeRaise (c : _) : CoreBound.Statement (.freezeRaise c) :=
  fun h _ hk => Option.some.inj hk ▸ of_decide_eq_true h
theorem CoreBound.freezeEffect (c : _) : CoreBound.Statement (.freezeEffect c) :=
  fun h _ hk => Option.some.inj hk ▸ of_decide_eq_true h
theorem CoreBound.freezeEnd (c : _) : CoreBound.Statement (.freezeEnd c) :=
  fun h _ hk => Option.some.inj hk ▸ of_decide_eq_true h
theorem CoreBound.stepArrival (c : _) : CoreBound.Statement (.stepArrival c) :=
  fun h _ hk => Option.some.inj hk ▸ of_decide_eq_true h
theorem CoreBound.spanActivate (q : _) : CoreBound.Statement (.spanActivate q) := fun _ _ hk => nomatch hk
theorem CoreBound.launchEnd (sp : _) : CoreBound.Statement (.launchEnd sp) := fun _ _ hk => nomatch hk
theorem CoreBound.commitExchangeEnter (j : _) : CoreBound.Statement (.commitExchangeEnter j) := fun _ _ hk => nomatch hk
theorem CoreBound.stepBarrierTimeout (j : _) : CoreBound.Statement (.stepBarrierTimeout j) := fun _ _ hk => nomatch hk
theorem CoreBound.flagTimeout (c : _) (eng : _) : CoreBound.Statement (.flagTimeout c eng) :=
  fun h _ hk => Option.some.inj hk ▸ (of_decide_eq_true h).1
theorem CoreBound.counterTimeout (c : _) : CoreBound.Statement (.counterTimeout c) :=
  fun h _ hk => Option.some.inj hk ▸ of_decide_eq_true h
theorem CoreBound.sluiceTimeout (c : _) : CoreBound.Statement (.sluiceTimeout c) :=
  fun h _ hk => Option.some.inj hk ▸ of_decide_eq_true h
theorem CoreBound.tokenTimeout (obj : _) : CoreBound.Statement (.tokenTimeout obj) := fun _ _ hk => nomatch hk
theorem CoreBound.flitData (p : _) (f : _) : CoreBound.Statement (.flitData p f) := fun _ _ hk => nomatch hk
theorem CoreBound.flitFack (p : _) (f : _) : CoreBound.Statement (.flitFack p f) := fun _ _ hk => nomatch hk
theorem CoreBound.flitToken (p : _) (f : _) : CoreBound.Statement (.flitToken p f) := fun _ _ hk => nomatch hk
theorem CoreBound.attemptMarker (p : _) (f : _) : CoreBound.Statement (.attemptMarker p f) := fun _ _ hk => nomatch hk
theorem CoreBound.flitLnak (p : _) (f : _) : CoreBound.Statement (.flitLnak p f) := fun _ _ hk => nomatch hk
theorem CoreBound.flitCrcFail (p : _) : CoreBound.Statement (.flitCrcFail p) := fun _ _ hk => nomatch hk
theorem CoreBound.lcredit (p : _) (f : _) : CoreBound.Statement (.lcredit p f) := fun _ _ hk => nomatch hk
theorem CoreBound.swapReq (p : _) (f : _) : CoreBound.Statement (.swapReq p f) := fun _ _ hk => nomatch hk
theorem CoreBound.swapAck (p : _) (f : _) : CoreBound.Statement (.swapAck p f) := fun _ _ hk => nomatch hk
theorem CoreBound.lmgtWidth (p : _) (f : _) : CoreBound.Statement (.lmgtWidth p f) := fun _ _ hk => nomatch hk
theorem CoreBound.lmgtRetrain (p : _) (f : _) : CoreBound.Statement (.lmgtRetrain p f) := fun _ _ hk => nomatch hk
theorem CoreBound.hello (p : _) (f : _) : CoreBound.Statement (.hello p f) := fun _ _ hk => nomatch hk
theorem CoreBound.nack (p : _) (f : _) : CoreBound.Statement (.nack p f) := fun _ _ hk => nomatch hk
theorem CoreBound.linkReplayTimeout (p : _) : CoreBound.Statement (.linkReplayTimeout p) := fun _ _ hk => nomatch hk
theorem CoreBound.trainingStateComplete (p : _) : CoreBound.Statement (.trainingStateComplete p) := fun _ _ hk => nomatch hk
theorem CoreBound.trainingStateTimeout (p : _) : CoreBound.Statement (.trainingStateTimeout p) := fun _ _ hk => nomatch hk
theorem CoreBound.downRetry (p : _) : CoreBound.Statement (.downRetry p) := fun _ _ hk => nomatch hk
theorem CoreBound.abruptLoss (p : _) (lane : _) : CoreBound.Statement (.abruptLoss p lane) := fun _ _ hk => nomatch hk
theorem CoreBound.ringMarginLow (p : _) (lane : _) : CoreBound.Statement (.ringMarginLow p lane) := fun _ _ hk => nomatch hk
theorem CoreBound.swapSwitch (p : _) : CoreBound.Statement (.swapSwitch p) := fun _ _ hk => nomatch hk
theorem CoreBound.laneSwapTimeout (p : _) : CoreBound.Statement (.laneSwapTimeout p) := fun _ _ hk => nomatch hk
theorem CoreBound.sourceFailure (p : _) (w : _) : CoreBound.Statement (.sourceFailure p w) := fun _ _ hk => nomatch hk
theorem CoreBound.spareTuningComplete (p : _) : CoreBound.Statement (.spareTuningComplete p) := fun _ _ hk => nomatch hk
theorem CoreBound.spareTuningTimeout (p : _) : CoreBound.Statement (.spareTuningTimeout p) := fun _ _ hk => nomatch hk
theorem CoreBound.flowRetransmitTimeout (f : _) : CoreBound.Statement (.flowRetransmitTimeout f) := fun _ _ hk => nomatch hk
theorem CoreBound.flowProbeTimeout (f : _) : CoreBound.Statement (.flowProbeTimeout f) := fun _ _ hk => nomatch hk
theorem CoreBound.flowLateTimeout (f : _) : CoreBound.Statement (.flowLateTimeout f) := fun _ _ hk => nomatch hk
theorem CoreBound.rankRemapApply (rank : _) : CoreBound.Statement (.rankRemapApply rank) := fun _ _ hk => nomatch hk
theorem CoreBound.ckptData (f : _) : CoreBound.Statement (.ckptData f) := fun _ _ hk => nomatch hk
theorem CoreBound.ckptEndOfData (f : _) : CoreBound.Statement (.ckptEndOfData f) := fun _ _ hk => nomatch hk
theorem CoreBound.ckptAck (f : _) : CoreBound.Statement (.ckptAck f) := fun _ _ hk => nomatch hk
theorem CoreBound.ckptRestoreRequest (f : _) : CoreBound.Statement (.ckptRestoreRequest f) := fun _ _ hk => nomatch hk
theorem CoreBound.ckptAbsent (f : _) : CoreBound.Statement (.ckptAbsent f) := fun _ _ hk => nomatch hk
theorem CoreBound.ckptRestoreDataDone (j : _) : CoreBound.Statement (.ckptRestoreDataDone j) := fun _ _ hk => nomatch hk
theorem CoreBound.snapshotCopyComplete (j : _) : CoreBound.Statement (.snapshotCopyComplete j) := fun _ _ hk => nomatch hk
theorem CoreBound.flashWriteComplete (j : _) (bad : _) : CoreBound.Statement (.flashWriteComplete j bad) := fun _ _ hk => nomatch hk
theorem CoreBound.mwr (f : _) : CoreBound.Statement (.mwr f) := fun _ _ hk => nomatch hk
theorem CoreBound.mrd (f : _) : CoreBound.Statement (.mrd f) := fun _ _ hk => nomatch hk
theorem CoreBound.dbell (f : _) : CoreBound.Statement (.dbell f) := fun _ _ hk => nomatch hk
theorem CoreBound.hostCredit (f : _) : CoreBound.Statement (.hostCredit f) := fun _ _ hk => nomatch hk
theorem CoreBound.hostLnak (f : _) : CoreBound.Statement (.hostLnak f) := fun _ _ hk => nomatch hk
theorem CoreBound.linkid (f : _) : CoreBound.Statement (.linkid f) := fun _ _ hk => nomatch hk
theorem CoreBound.mgmtWidth (f : _) : CoreBound.Statement (.mgmtWidth f) := fun _ _ hk => nomatch hk
theorem CoreBound.getVersion : CoreBound.Statement (.getVersion) := fun _ _ hk => nomatch hk
theorem CoreBound.getCapabilities : CoreBound.Statement (.getCapabilities) := fun _ _ hk => nomatch hk
theorem CoreBound.negotiateAlgorithms : CoreBound.Statement (.negotiateAlgorithms) := fun _ _ hk => nomatch hk
theorem CoreBound.getDigests : CoreBound.Statement (.getDigests) := fun _ _ hk => nomatch hk
theorem CoreBound.getCertificate (slot : _) (off : _) (len : _) : CoreBound.Statement (.getCertificate slot off len) := fun _ _ hk => nomatch hk
theorem CoreBound.challenge (slot : _) (nonce : _) : CoreBound.Statement (.challenge slot nonce) := fun _ _ hk => nomatch hk
theorem CoreBound.getMeasurements (index : _) (signed : _) (nonce : _) : CoreBound.Statement (.getMeasurements index signed nonce) := fun _ _ hk => nomatch hk
theorem CoreBound.spdmUnsupportedRequest (code : _) : CoreBound.Statement (.spdmUnsupportedRequest code) := fun _ _ hk => nomatch hk
theorem CoreBound.program (q : _) : CoreBound.Statement (.program q) := fun _ _ hk => nomatch hk
theorem CoreBound.programComplete (q : _) : CoreBound.Statement (.programComplete q) := fun _ _ hk => nomatch hk
theorem CoreBound.launch (q : _) : CoreBound.Statement (.launch q) := fun _ _ hk => nomatch hk
theorem CoreBound.stepEntry (q : _) : CoreBound.Statement (.stepEntry q) := fun _ _ hk => nomatch hk
theorem CoreBound.flowOpen (q : _) : CoreBound.Statement (.flowOpen q) := fun _ _ hk => nomatch hk
theorem CoreBound.flowClose (q : _) : CoreBound.Statement (.flowClose q) := fun _ _ hk => nomatch hk
theorem CoreBound.flowReset (q : _) : CoreBound.Statement (.flowReset q) := fun _ _ hk => nomatch hk
theorem CoreBound.kill (q : _) : CoreBound.Statement (.kill q) := fun _ _ hk => nomatch hk
theorem CoreBound.resume (q : _) : CoreBound.Statement (.resume q) := fun _ _ hk => nomatch hk
theorem CoreBound.fence (q : _) : CoreBound.Statement (.fence q) := fun _ _ hk => nomatch hk
theorem CoreBound.nopEntry (q : _) : CoreBound.Statement (.nopEntry q) := fun _ _ hk => nomatch hk
theorem CoreBound.attach (sec : _) (v : _) : CoreBound.Statement (.attach sec v) := fun _ _ hk => nomatch hk
theorem CoreBound.renew (sec : _) (v : _) : CoreBound.Statement (.renew sec v) := fun _ _ hk => nomatch hk
theorem CoreBound.leaseExpiry : CoreBound.Statement (.leaseExpiry) := fun _ _ hk => nomatch hk
theorem CoreBound.hqptrWrite (sec : _) (q : _) (v : _) : CoreBound.Statement (.hqptrWrite sec q v) := fun _ _ hk => nomatch hk
theorem CoreBound.hqcfgWrite (sec : _) (q : _) (v : _) : CoreBound.Statement (.hqcfgWrite sec q v) := fun _ _ hk => nomatch hk
theorem CoreBound.evptrWrite (sec : _) (v : _) : CoreBound.Statement (.evptrWrite sec v) := fun _ _ hk => nomatch hk
theorem CoreBound.logptrWrite (sec : _) (v : _) : CoreBound.Statement (.logptrWrite sec v) := fun _ _ hk => nomatch hk
theorem CoreBound.srptrWrite (sec : _) (j : _) (v : _) : CoreBound.Statement (.srptrWrite sec j v) := fun _ _ hk => nomatch hk
theorem CoreBound.slogptrWrite (sec : _) (v : _) : CoreBound.Statement (.slogptrWrite sec v) := fun _ _ hk => nomatch hk
theorem CoreBound.ringConfigWrite (sec : _) (addr : _) (v : _) : CoreBound.Statement (.ringConfigWrite sec addr v) := fun _ _ hk => nomatch hk
theorem CoreBound.syOcfgWrite (sec : _) (n : _) (v : _) : CoreBound.Statement (.syOcfgWrite sec n v) := fun _ _ hk => nomatch hk
theorem CoreBound.syOvalWrite (sec : _) (n : _) (v : _) : CoreBound.Statement (.syOvalWrite sec n v) := fun _ _ hk => nomatch hk
theorem CoreBound.syOaddWrite (sec : _) (n : _) (v : _) : CoreBound.Statement (.syOaddWrite sec n v) := fun _ _ hk => nomatch hk
theorem CoreBound.nwSpanWrite (sec : _) (k : _) (v : _) : CoreBound.Statement (.nwSpanWrite sec k v) := fun _ _ hk => nomatch hk
theorem CoreBound.rvChanbaseWrite (sec : _) (c : _) (ch : _) (v : _) : CoreBound.Statement (.rvChanbaseWrite sec c ch v) :=
  fun h _ hk => Option.some.inj hk ▸ (of_decide_eq_true h).1
theorem CoreBound.rvChanWrite (sec : _) (c : _) (ch : _) (v : _) : CoreBound.Statement (.rvChanWrite sec c ch v) :=
  fun h _ hk => Option.some.inj hk ▸ (of_decide_eq_true h).1
theorem CoreBound.rvStageWrite (sec : _) (c : _) (v : _) : CoreBound.Statement (.rvStageWrite sec c v) :=
  fun h _ hk => Option.some.inj hk ▸ of_decide_eq_true h
theorem CoreBound.fbProfileWrite (sec : _) (v : _) : CoreBound.Statement (.fbProfileWrite sec v) := fun _ _ hk => nomatch hk
theorem CoreBound.fbRouteWrite (sec : _) (n : _) (v : _) : CoreBound.Statement (.fbRouteWrite sec n v) := fun _ _ hk => nomatch hk
theorem CoreBound.fbRankmapWrite (sec : _) (n : _) (v : _) : CoreBound.Statement (.fbRankmapWrite sec n v) := fun _ _ hk => nomatch hk
theorem CoreBound.portEnable (sec : _) (p : _) (v : _) : CoreBound.Statement (.portEnable sec p v) := fun _ _ hk => nomatch hk
theorem CoreBound.portRetrain (sec : _) (p : _) (v : _) : CoreBound.Statement (.portRetrain sec p v) := fun _ _ hk => nomatch hk
theorem CoreBound.fbCcfgWrite (sec : _) (ch : _) (v : _) : CoreBound.Statement (.fbCcfgWrite sec ch v) := fun _ _ hk => nomatch hk
theorem CoreBound.release (sec : _) (j : _) (v : _) : CoreBound.Statement (.release sec j v) := fun _ _ hk => nomatch hk
theorem CoreBound.checkpointNow (sec : _) (j : _) (v : _) : CoreBound.Statement (.checkpointNow sec j v) := fun _ _ hk => nomatch hk
theorem CoreBound.restoreFromPartner (sec : _) (j : _) (v : _) : CoreBound.Statement (.restoreFromPartner sec j v) := fun _ _ hk => nomatch hk
theorem CoreBound.restoreFromFlash (sec : _) (j : _) (v : _) : CoreBound.Statement (.restoreFromFlash sec j v) := fun _ _ hk => nomatch hk
theorem CoreBound.restoreFromSnapshot (sec : _) (j : _) (v : _) : CoreBound.Statement (.restoreFromSnapshot sec j v) := fun _ _ hk => nomatch hk
theorem CoreBound.releaseSnapshot (sec : _) (j : _) (v : _) : CoreBound.Statement (.releaseSnapshot sec j v) := fun _ _ hk => nomatch hk
theorem CoreBound.invalidate (sec : _) (v : _) : CoreBound.Statement (.invalidate sec v) := fun _ _ hk => nomatch hk
theorem CoreBound.functionLevelReset (sec : _) (v : _) : CoreBound.Statement (.functionLevelReset sec v) := fun _ _ hk => nomatch hk
theorem CoreBound.flrComplete : CoreBound.Statement (.flrComplete) := fun _ _ hk => nomatch hk
theorem CoreBound.perCoreReset (sec : _) (v : _) : CoreBound.Statement (.perCoreReset sec v) := fun _ _ hk => nomatch hk
theorem CoreBound.imageUpdateGo (sec : _) (v : _) : CoreBound.Statement (.imageUpdateGo sec v) := fun _ _ hk => nomatch hk
theorem CoreBound.imageUpdateChecked : CoreBound.Statement (.imageUpdateChecked) := fun _ _ hk => nomatch hk
theorem CoreBound.imageUpdateWritten : CoreBound.Statement (.imageUpdateWritten) := fun _ _ hk => nomatch hk
theorem CoreBound.keeperRequest (sec : _) (v : _) : CoreBound.Statement (.keeperRequest sec v) := fun _ _ hk => nomatch hk
theorem CoreBound.keeperRequestDone : CoreBound.Statement (.keeperRequestDone) := fun _ _ hk => nomatch hk
theorem CoreBound.nwFencereq (sec : _) (v : _) : CoreBound.Statement (.nwFencereq sec v) := fun _ _ hk => nomatch hk
theorem CoreBound.recoveryWrite (sec : _) (v : _) : CoreBound.Statement (.recoveryWrite sec v) := fun _ _ hk => nomatch hk
theorem CoreBound.recoveryWriteDone : CoreBound.Statement (.recoveryWriteDone) := fun _ _ hk => nomatch hk
theorem CoreBound.recoveryFinish (sec : _) (v : _) : CoreBound.Statement (.recoveryFinish sec v) := fun _ _ hk => nomatch hk
theorem CoreBound.swRegionWrite (sec : _) (addr : _) (v : _) : CoreBound.Statement (.swRegionWrite sec addr v) := fun _ _ hk => nomatch hk
theorem CoreBound.regionZeroingComplete : CoreBound.Statement (.regionZeroingComplete) := fun _ _ hk => nomatch hk
theorem CoreBound.coreWindowImemWrite (sec : _) (c : _) (idx : _) (v : _) : CoreBound.Statement (.coreWindowImemWrite sec c idx v) :=
  fun h _ hk => Option.some.inj hk ▸ (of_decide_eq_true h).1
theorem CoreBound.coreWindowPondAccess (sec : _) (c : _) (off : _) (len : _) (wr : _) : CoreBound.Statement (.coreWindowPondAccess sec c off len wr) :=
  fun h _ hk => Option.some.inj hk ▸ (of_decide_eq_true h).1
theorem CoreBound.registerWrite (sec : _) (addr : _) (v : _) : CoreBound.Statement (.registerWrite sec addr v) := fun _ _ hk => nomatch hk
theorem CoreBound.poisonKill (j : _) : CoreBound.Statement (.poisonKill j) := fun _ _ hk => nomatch hk
theorem CoreBound.rowFence (y : _) : CoreBound.Statement (.rowFence y) := fun _ _ hk => nomatch hk
theorem CoreBound.rowShiftComplete (y : _) : CoreBound.Statement (.rowShiftComplete y) := fun _ _ hk => nomatch hk
theorem CoreBound.meshLinkError (pc : _) : CoreBound.Statement (.meshLinkError pc) := fun _ _ hk => nomatch hk
theorem CoreBound.errorDecay : CoreBound.Statement (.errorDecay) := fun _ _ hk => nomatch hk
theorem CoreBound.pageRetiredCopyDone (mc : _) : CoreBound.Statement (.pageRetiredCopyDone mc) := fun _ _ hk => nomatch hk
theorem CoreBound.pchSpareCopyDone (mc : _) : CoreBound.Statement (.pchSpareCopyDone mc) := fun _ _ hk => nomatch hk
theorem CoreBound.patrolScrub (mc : _) (errs : _) : CoreBound.Statement (.patrolScrub mc errs) := fun _ _ hk => nomatch hk
theorem CoreBound.governorInterval : CoreBound.Statement (.governorInterval) := fun _ _ hk => nomatch hk
theorem CoreBound.thermalEvaluation (temps : _) : CoreBound.Statement (.thermalEvaluation temps) := fun _ _ hk => nomatch hk
theorem CoreBound.powerCapEvaluation (vin : _) (iin : _) (pin : _) : CoreBound.Statement (.powerCapEvaluation vin iin pin) := fun _ _ hk => nomatch hk
theorem CoreBound.watchdogExpiry (fp : _) : CoreBound.Statement (.watchdogExpiry fp) := fun _ _ hk => nomatch hk
theorem CoreBound.fwRestartComplete (fp : _) (ok : _) : CoreBound.Statement (.fwRestartComplete fp ok) := fun _ _ hk => nomatch hk
theorem CoreBound.keeperRomRestartComplete : CoreBound.Statement (.keeperRomRestartComplete) := fun _ _ hk => nomatch hk
theorem CoreBound.powerOnReset : CoreBound.Statement (.powerOnReset) := fun _ _ hk => nomatch hk
theorem CoreBound.rstNAssert : CoreBound.Statement (.rstNAssert) := fun _ _ hk => nomatch hk
theorem CoreBound.rstNDeassert (feed : _) (slot : _) : CoreBound.Statement (.rstNDeassert feed slot) := fun _ _ hk => nomatch hk
theorem CoreBound.vinLowTimeout : CoreBound.Statement (.vinLowTimeout) := fun _ _ hk => nomatch hk
theorem CoreBound.vinRestored : CoreBound.Statement (.vinRestored) := fun _ _ hk => nomatch hk
theorem CoreBound.vinBelow36 : CoreBound.Statement (.vinBelow36) := fun _ _ hk => nomatch hk
theorem CoreBound.refclkLoss : CoreBound.Statement (.refclkLoss) := fun _ _ hk => nomatch hk
theorem CoreBound.refclkRestored : CoreBound.Statement (.refclkRestored) := fun _ _ hk => nomatch hk
theorem CoreBound.thermalTrip : CoreBound.Statement (.thermalTrip) := fun _ _ hk => nomatch hk
theorem CoreBound.firmwareSelfTestDone (failed : _) (temp : _) : CoreBound.Statement (.firmwareSelfTestDone failed temp) := fun _ _ hk => nomatch hk
theorem CoreBound.imageCheckDone : CoreBound.Statement (.imageCheckDone) := fun _ _ hk => nomatch hk
theorem CoreBound.powerWave (k : _) : CoreBound.Statement (.powerWave k) := fun _ _ hk => nomatch hk
theorem CoreBound.stackPowerUp (k : _) : CoreBound.Statement (.stackPowerUp k) := fun _ _ hk => nomatch hk
theorem CoreBound.laserBankPowerUp (p : _) : CoreBound.Statement (.laserBankPowerUp p) := fun _ _ hk => nomatch hk
theorem CoreBound.bistDone (failures : _) : CoreBound.Statement (.bistDone failures) := fun _ _ hk => nomatch hk
theorem CoreBound.hbmTrainingDone (failedSaved : _) : CoreBound.Statement (.hbmTrainingDone failedSaved) := fun _ _ hk => nomatch hk
theorem CoreBound.memoryTestDone (mc : _) (pages : _) (pchs : _) (uncorr : _) : CoreBound.Statement (.memoryTestDone mc pages pchs uncorr) := fun _ _ hk => nomatch hk
theorem CoreBound.opticalTuningDone : CoreBound.Statement (.opticalTuningDone) := fun _ _ hk => nomatch hk
theorem CoreBound.startupComplete : CoreBound.Statement (.startupComplete) := fun _ _ hk => nomatch hk
theorem CoreBound.smbusReadIdentity : CoreBound.Statement (.smbusReadIdentity) := fun _ _ hk => nomatch hk
theorem CoreBound.smbusReadStatus : CoreBound.Statement (.smbusReadStatus) := fun _ _ hk => nomatch hk
theorem CoreBound.smbusReadTmax : CoreBound.Statement (.smbusReadTmax) := fun _ _ hk => nomatch hk
theorem CoreBound.smbusReadVin : CoreBound.Statement (.smbusReadVin) := fun _ _ hk => nomatch hk
theorem CoreBound.smbusReadIin : CoreBound.Statement (.smbusReadIin) := fun _ _ hk => nomatch hk
theorem CoreBound.smbusReadPin : CoreBound.Statement (.smbusReadPin) := fun _ _ hk => nomatch hk
theorem CoreBound.smbusReadResetcause : CoreBound.Statement (.smbusReadResetcause) := fun _ _ hk => nomatch hk
theorem CoreBound.smbusReadFeedId : CoreBound.Statement (.smbusReadFeedId) := fun _ _ hk => nomatch hk
theorem CoreBound.smbusAlertResponse : CoreBound.Statement (.smbusAlertResponse) := fun _ _ hk => nomatch hk
theorem CoreBound.smbusNack (code : _) (write : _) : CoreBound.Statement (.smbusNack code write) := fun _ _ hk => nomatch hk
theorem CoreBound.processorCrash (fp : _) : CoreBound.Statement (.processorCrash fp) := fun _ _ hk => nomatch hk
theorem CoreBound.lcreditInterval (p : _) : CoreBound.Statement (.lcreditInterval p) := fun _ _ hk => nomatch hk

end Sys2Proof.Laws
end

