-- ==== Sys2Proof/Laws/Records.lean ====
section
/-! SUPPORT. What posting a record may change: `BesidesRecords` for every operation that a record goes through. -/

namespace Sys2Proof

open Machine

theorem BesidesRecords.refl (s : State) : BesidesRecords s s := ⟨rfl, fun _ _ => rfl⟩

theorem BesidesRecords.trans {r s t : State} (h : BesidesRecords r s) (g : BesidesRecords s t) : BesidesRecords r t :=
  ⟨g.1.trans h.1, fun a ha => (g.2 a ha).trans (h.2 a ha)⟩

/-- An update of record memory, rings, the lake, host flits or the supply of free values. -/
theorem BesidesRecords.upd {r s : State} (h : BesidesRecords r s) {mem : Mem} {lake : Map LakeLine} {hidden : List Nat}
    {eventRing logRing secureLog : RingState} {pendRecs : List PendRec} {hostLink : HostLink} {freeCtr : Nat} :
    BesidesRecords r { s with mem := mem, lake := lake, hidden := hidden, eventRing := eventRing, logRing := logRing,
                              secureLog := secureLog, pendRecs := pendRecs, hostLink := hostLink, freeCtr := freeCtr } :=
  ⟨h.1, h.2⟩

theorem BesidesRecords.setReg {r s : State} (h : BesidesRecords r s) {a : Nat} (ha : recordReg a = true) (v : Reg) :
    BesidesRecords r (s.setReg a v) :=
  ⟨h.1, fun b hb => (State.reg_setReg_other s v (fun e => by rw [e, ha] at hb; cases hb)).trans (h.2 b hb)⟩

theorem BesidesRecords.setFld {r s : State} (h : BesidesRecords r s) {a : Nat} (ha : recordReg a = true) (lo w x : Nat) :
    BesidesRecords r (s.setFld a lo w x) := h.setReg ha _

theorem BesidesRecords.addFld {r s : State} (h : BesidesRecords r s) {a : Nat} (ha : recordReg a = true) (lo w x : Nat) :
    BesidesRecords r (s.addFld a lo w x) := h.setReg ha _

theorem BesidesRecords.satFld {r s : State} (h : BesidesRecords r s) {a : Nat} (ha : recordReg a = true) (lo w x : Nat) :
    BesidesRecords r (s.satFld a lo w x) := h.setReg ha _

theorem BesidesRecords.foldl {α : Type} {r : State} {f : State → α → State}
    (hf : ∀ s x, BesidesRecords r s → BesidesRecords r (f s x)) {s : State} (h : BesidesRecords r s) (l : List α) :
    BesidesRecords r (l.foldl f s) := by
  induction l generalizing s with
  | nil => exact h
  | cons x l ih => exact ih (hf s x h)

theorem BesidesRecords.freeVal {r s : State} (h : BesidesRecords r s) (w : Nat) : BesidesRecords r (s.freeVal w).2 := h.upd

theorem recordReg_evPtr : recordReg evPtr = true := by decide
theorem recordReg_logPtr : recordReg logPtr = true := by decide
theorem recordReg_slogPtr : recordReg slogPtr = true := by decide
theorem recordReg_swBlocked : recordReg swBlocked = true := by decide

theorem lineSlice_lt (a : Nat) : lineSlice a < 16 := by
  unfold lineSlice lineStack
  omega

theorem recordReg_lk {k off : Nat} (hk : k < 16) (h : off = 0 ∨ off = 0x10) : recordReg (lkReg k off) = true := by
  have : (List.range 16).any (fun i => lkReg k off == lkReg i 0 || lkReg k off == lkReg i 0x10) = true :=
    List.any_eq_true.mpr ⟨k, List.mem_range.mpr hk, by rcases h with h | h <;> subst h <;> simp⟩
  unfold recordReg
  rw [this]; simp

theorem recordReg_mc {k : Nat} (hk : k < 8) : recordReg (mcReg k 0x20) = true := by
  have : (List.range 8).any (fun i => mcReg k 0x20 == mcReg i 0x20) = true :=
    List.any_eq_true.mpr ⟨k, List.mem_range.mpr hk, by simp⟩
  unfold recordReg
  rw [this]; simp

theorem BesidesRecords.lakeEvict {r s : State} (h : BesidesRecords r s) (line : Nat) : BesidesRecords r (s.lakeEvict line) :=
  h.upd

theorem BesidesRecords.lakeRoom {r s : State} (h : BesidesRecords r s) (line : Nat) : BesidesRecords r (s.lakeRoom line) := by
  unfold State.lakeRoom
  extract_lets held
  split
  · exact h
  split
  · exact h
  · have h1 := h.freeVal 32
    generalize s.freeVal 32 = p at h1
    dsimp only
    split
    · exact h1.lakeEvict _
    · exact h1

theorem BesidesRecords.lakeDemand {r s : State} (h : BesidesRecords r s) (line : Nat) (wr : Bool) :
    BesidesRecords r (s.lakeDemand line wr) := by
  have hk := lineSlice_lt (line * 256)
  unfold State.lakeDemand
  extract_lets k x s1 s2 s3
  have h1 : BesidesRecords r s1 := h.addFld (recordReg_lk hk (.inl rfl)) _ _ _
  have h2 : BesidesRecords r s2 := by
    unfold s2; split
    · exact h1.addFld (recordReg_lk hk (.inr rfl)) _ _ _
    · exact h1
  have h3 : BesidesRecords r s3 := (h.addFld (recordReg_lk hk (.inl rfl)) _ _ _).lakeRoom _
  split
  · exact h2.upd
  · exact h3.upd

theorem BesidesRecords.secureLogPut {r s : State} (h : BesidesRecords r s) (rec : List Byte) :
    BesidesRecords r (s.secureLogPut rec) := by
  unfold State.secureLogPut
  extract_lets st tail head flags full s1 body s2 tail' s3
  have h1 : BesidesRecords r s1 := by
    unfold s1; split
    · exact (h.setFld recordReg_slogPtr _ _ _).satFld recordReg_slogPtr _ _ _
    · exact h
  have h2 : BesidesRecords r s2 := BesidesRecords.lakeDemand h1.upd _ _
  exact (h2.setFld recordReg_slogPtr _ _ _).upd

theorem BesidesRecords.blockedRecord {r s : State} (h : BesidesRecords r s) : BesidesRecords r s.blockedRecord :=
  BesidesRecords.secureLogPut (s := (((s.freeVal 16).2.freeVal 8).2.freeVal 64).2.freeVal 64 |>.2) h.upd _

theorem BesidesRecords.blockAccess {r s : State} (h : BesidesRecords r s) : BesidesRecords r s.blockAccess :=
  (h.addFld recordReg_swBlocked _ _ _).blockedRecord

theorem BesidesRecords.countAccess {r s : State} (h : BesidesRecords r s) (sec : Bool) (ranges : List (Nat × Nat))
    (wr : Bool) : BesidesRecords r (s.countAccess sec ranges wr) := by
  unfold State.countAccess
  extract_lets lines s1
  have h1 : BesidesRecords r s1 := by
    refine BesidesRecords.foldl (fun t g ht => ?_) h _
    split
    · exact ht.lakeDemand g wr
    · exact ht.addFld (recordReg_mc (by unfold lineStack; omega)) _ _ _
    · exact ht
  split
  · exact h1.blockAccess
  · exact h1

theorem BesidesRecords.devWrite {r s : State} (h : BesidesRecords r s) (sec : Bool) (a : Nat) (d : List Byte) :
    BesidesRecords r (s.devWrite sec a d) := by
  unfold State.devWrite State.devPut
  exact BesidesRecords.countAccess h.upd _ _ _

theorem BesidesRecords.hostPump {r s : State} (h : BesidesRecords r s) : BesidesRecords r s.hostPump := by
  unfold State.hostPump
  split
  · exact h.upd
  · exact h

theorem BesidesRecords.sendMsg {r s : State} (h : BesidesRecords r s) (v : Nat) : BesidesRecords r (s.sendMsg v) := by
  unfold State.sendMsg
  split
  · exact h
  · exact BesidesRecords.hostPump h.upd

theorem BesidesRecords.ringPut {r s : State} (h : BesidesRecords r s) (log : Bool) (rec : List Byte) :
    BesidesRecords r (s.ringPut log rec) := by
  have hp : recordReg (if log then logPtr else evPtr) = true := by cases log <;> decide
  unfold State.ringPut
  extract_lets cfg ptr st size s1 head tail s2 tail' s3 st' s4
  have h1 : BesidesRecords r s1 := by
    unfold s1; split
    · exact (h.setFld hp _ _ _).satFld hp _ _ _
    · exact h
  have h3 : BesidesRecords r s3 := (h1.devWrite _ _ _).setFld hp _ _ _
  have h4 : BesidesRecords r s4 := by
    unfold s4; split
    · exact h3.upd
    · exact h3.upd
  split
  · exact h4.sendMsg _
  · exact h4

theorem BesidesRecords.drainGo {r : State} (rs : List PendRec) : ∀ (ev log : Bool) {s : State}, BesidesRecords r s →
    BesidesRecords r (drainGo rs ev log s).2 := by
  induction rs with
  | nil => exact fun _ _ _ h => h
  | cons x rs ih =>
    intro ev log s h
    unfold Machine.drainGo
    extract_lets evOpen logOpen s1 s2 r'
    have h1 : BesidesRecords r s1 := by
      unfold s1; split
      · exact h.ringPut _ _
      · exact h
    have h2 : BesidesRecords r s2 := by
      unfold s2; split
      · exact h1.ringPut _ _
      · exact h1
    have h3 := ih evOpen logOpen h2
    generalize Machine.drainGo rs evOpen logOpen s2 = p at h3
    dsimp only
    split <;> exact h3

theorem BesidesRecords.drainPending {r s : State} (h : BesidesRecords r s) : BesidesRecords r s.drainPending := by
  unfold State.drainPending
  split
  · exact (BesidesRecords.drainGo s.pendRecs true true h).upd
  · exact h

theorem BesidesRecords.ringLoses {r s : State} (h : BesidesRecords r s) (log : Bool) : BesidesRecords r (s.ringLoses log) := by
  unfold State.ringLoses
  split
  · exact (h.satFld recordReg_logPtr _ _ _).upd
  · exact (h.satFld recordReg_evPtr _ _ _).upd

theorem BesidesRecords.losses {r s : State} (h : BesidesRecords r s) (n : Nat) :
    BesidesRecords r { s with firm := { s.firm with losses := n } } := ⟨h.1, h.2⟩

theorem BesidesRecords.enqueueRecord {r s : State} (h : BesidesRecords r s) (rec : List Byte) (ev log : Bool) :
    BesidesRecords r (s.enqueueRecord rec ev log) := by
  unfold State.enqueueRecord
  extract_lets s1 src s3
  have h1 : BesidesRecords r s1 := h.drainPending
  clear_value s1
  have h3 : BesidesRecords r s3 := by
    unfold s3; split
    · exact (h1.losses _).ringLoses false
    · exact h1
  split
  · exact BesidesRecords.drainPending h1.upd
  · split
    · exact h3.ringLoses true
    · exact h3

theorem BesidesRecords.postAs {r s : State} (h : BesidesRecords r s) (secret : Bool) (e : EventHead) (p : List (Nat × Nat)) :
    BesidesRecords r (s.postAs secret e p) := by
  unfold State.postAs
  dsimp only
  split
  · exact h.secureLogPut _
  · exact h.enqueueRecord _ _ _

theorem BesidesRecords.post {r s : State} (h : BesidesRecords r s) (e : EventHead) (p : List (Nat × Nat)) :
    BesidesRecords r (s.post e p) := h.postAs _ _ _

theorem BesidesRecords.postFlow {r s : State} (h : BesidesRecords r s) (f : Nat) (e : EventHead) (p : List (Nat × Nat)) :
    BesidesRecords r (s.postFlow f e p) := h.postAs _ _ _

end Sys2Proof
end

