-- ==== Sys2Proof/Tests/Slice0.lean ====
section
/-! SUPPORT. Tests: ill-formed commands are refused by WellFormed; one step on a small state beside the spec's words; and for
the statements of Certificates/Slice0 states that meet their hypotheses together, clause by clause. -/

namespace Sys2Proof.Tests

open Sys2Proof Sys2Proof.Machine

set_option Elab.async false

def longFlit : Flit := { flitBlank with payload := List.replicate 241 0 }
def longHFlit : HFlit := { hflitBlank with payload := List.replicate 241 0 }

theorem test_ill_formed_a :
  ∀ i ∈ ([.nop 1024, .alu 1024 0 0 0 0, .addi 1024 0 0 0, .andi 1024 0 0 0, .ori 1024 0 0 0, .xori 1024 0 0 0,
      .shli 1024 0 0 0, .shri 1024 0 0 0, .sari 1024 0 0 0, .muli 1024 0 0 0, .lui 1024 0 0, .shori 1024 0 0 0,
      .cmp 1024 0 0 0 0, .cmpi 1024 0 0 0 0, .plog 1024 0 0 0 0, .mfs 1024 0 0, .mts 1024 0 0, .ld8 1024 0 0 0,
      .ld16 1024 0 0 0, .ld32 1024 0 0 0, .ld64 1024 0 0 0, .lds8 1024 0 0 0, .lds16 1024 0 0 0, .lds32 1024 0 0 0,
      .st8 1024 0 0 0, .st16 1024 0 0 0, .st32 1024 0 0 0, .st64 1024 0 0 0, .br 1024 false false 0 0, .jr 1024 0 0,
      .loop 1024 0 false 0 0, .cset 1024 0 0 0 0, .cseti 1024 0 0, .push 1024 0, .pushStallEnd 1024, .qlvl 1024 0 0] :
      List Instr), i.wf = false := by decide +kernel

theorem test_ill_formed_b :
  ∀ i ∈ ([.qdue 1024 0 0, .fset 1024 0 0, .fclr 1024 0 0, .ftst 1024 0 0 0, .fwait 1024 0 0 0, .fwaitRelease 1024,
      .ctradd 1024 0 0 0 0, .ctraddReply 1024, .ctrwait 1024 0 0 0 0, .ctrwaitRelease 1024, .slarr 1024 0 0 0,
      .slwait 1024 0 0 0 0, .slwaitRelease 1024, .evt 1024 0 0, .step 1024, .halt 1024, .unassignedOpcode 1024 0,
      .idle 1024 1, .idle 1 4, .idleComplete 1024 1, .idleComplete 1 4, .mma 1024 none,
      .mma 1 (some { elems := [2304], place := 0 }), .mmaComplete 1024, .drain 1024, .drainComplete 1024,
      .drainRecordComplete 1024, .wstore 1024, .wstoreComplete 1024, .wload 1024 none,
      .wload 1 (some { elems := [2304], place := 0 }), .wloadComplete 1024, .vop 1024, .vopComplete 1024, .vred 1024,
      .vredComplete 1024] :
      List Instr), i.wf = false := by decide +kernel

theorem test_ill_formed_c :
  ∀ i ∈ ([.rngFill 1024, .rngFillComplete 1024, .rngKey 1024, .rngBind 1024, .rngSeek 1024, .upd 1024, .updComplete 1024,
      .ldt 1024 [], .ldtComplete 1024 1, .stt 1024, .sttComplete 1024 1, .prf 1024, .prfScan 1024, .prfComplete 1024 1,
      .send 1024, .sendComplete 1024 1, .recv 1024, .recvComplete 1024 1, .collReduceScatter 1024, .collAllGather 1024,
      .collAllReduce 1024, .collBroadcast 1024, .collMessage 3072, .collComplete 1024 1, .flagWait 1024, .flagSet 1024,
      .flagClr 1024, .flagCtradd 1024, .flagActionDue 1024 1, .rsvpush 1024, .rsvpushComplete 1024, .rsvpop 1024,
      .rsvpopComplete 1024, .rsvEntryWritten 1024, .rsvEntryStaged 1024, .prefetchFill 1024 1] :
      List Instr), i.wf = false := by decide +kernel

theorem test_ill_formed_d :
  ∀ i ∈ ([.prefetchFill 1 8, .descriptorFetch 1024 1, .freezeRaise 1024, .freezeEffect 1024, .freezeEnd 1024,
      .stepArrival 1024, .spanActivate 256, .launchEnd 256, .commitExchangeEnter 0, .commitExchangeEnter 64,
      .stepBarrierTimeout 0, .stepBarrierTimeout 64, .flagTimeout 1024 none, .flagTimeout 1 (some 4), .counterTimeout 1024,
      .sluiceTimeout 1024, .tokenTimeout 16384, .flitData 9 flitBlank, .flitData 1 longFlit, .flitFack 9 flitBlank,
      .flitFack 1 longFlit, .flitToken 9 flitBlank, .flitToken 1 longFlit, .attemptMarker 9 flitBlank,
      .attemptMarker 1 longFlit, .flitLnak 9 flitBlank, .flitLnak 1 longFlit, .flitCrcFail 9, .lcredit 9 flitBlank,
      .lcredit 1 longFlit, .swapReq 9 flitBlank, .swapReq 1 longFlit, .swapAck 9 flitBlank, .swapAck 1 longFlit,
      .lmgtWidth 9 flitBlank, .lmgtWidth 1 longFlit] :
      List Instr), i.wf = false := by decide +kernel

theorem test_ill_formed_e :
  ∀ i ∈ ([.lmgtRetrain 9 flitBlank, .lmgtRetrain 1 longFlit, .hello 9 flitBlank, .hello 1 longFlit, .nack 9 flitBlank,
      .nack 1 longFlit, .linkReplayTimeout 9, .trainingStateComplete 9, .trainingStateTimeout 9, .downRetry 9,
      .abruptLoss 9 1, .abruptLoss 1 18, .ringMarginLow 9 1, .ringMarginLow 1 18, .swapSwitch 9, .laneSwapTimeout 9,
      .sourceFailure 9 1, .sourceFailure 1 19, .spareTuningComplete 9, .spareTuningTimeout 9, .flowRetransmitTimeout 3072,
      .flowProbeTimeout 3072, .flowLateTimeout 3072, .rankRemapApply 4096, .ckptData 3072, .ckptEndOfData 3072,
      .ckptAck 3072, .ckptRestoreRequest 3072, .ckptAbsent 3072, .ckptRestoreDataDone 0, .ckptRestoreDataDone 64,
      .snapshotCopyComplete 0, .snapshotCopyComplete 64, .flashWriteComplete 0 1, .flashWriteComplete 64 1, .mwr longHFlit] :
      List Instr), i.wf = false := by decide +kernel

theorem test_ill_formed_f :
  ∀ i ∈ ([.mrd longHFlit, .dbell longHFlit, .hostCredit longHFlit, .hostLnak longHFlit, .linkid longHFlit,
      .mgmtWidth longHFlit, .challenge 1 [], .getMeasurements 1 false [], .spdmUnsupportedRequest 256, .program 256,
      .programComplete 256, .launch 256, .stepEntry 256, .flowOpen 256, .flowClose 256, .flowReset 256, .kill 256,
      .resume 256, .fence 256, .nopEntry 256, .hqptrWrite false 256 0, .hqcfgWrite false 256 0, .srptrWrite false 0 0,
      .srptrWrite false 64 0, .ringConfigWrite false (2 ^ 40) 0, .syOcfgWrite false 16384 0, .syOvalWrite false 16384 0,
      .syOaddWrite false 16384 0, .nwSpanWrite false 256 0, .rvChanbaseWrite false 1024 1 0, .rvChanbaseWrite false 1 32 0,
      .rvChanWrite false 1024 1 0, .rvChanWrite false 1 32 0, .rvStageWrite false 1024 0, .fbRouteWrite false 256 0,
      .fbRankmapWrite false 4096 0] :
      List Instr), i.wf = false := by decide +kernel

theorem test_ill_formed_g :
  ∀ i ∈ ([.portEnable false 9 0, .portRetrain false 9 0, .fbCcfgWrite false 1024 0, .release false 0 0, .release false 64 0,
      .checkpointNow false 0 0, .checkpointNow false 64 0, .restoreFromPartner false 0 0, .restoreFromPartner false 64 0,
      .restoreFromFlash false 0 0, .restoreFromFlash false 64 0, .restoreFromSnapshot false 0 0,
      .restoreFromSnapshot false 64 0, .releaseSnapshot false 0 0, .releaseSnapshot false 64 0,
      .swRegionWrite false (2 ^ 40) 0, .coreWindowImemWrite false 1024 1 0, .coreWindowImemWrite false 1 16384 0,
      .coreWindowPondAccess false 1024 1 1 none, .coreWindowPondAccess false 1 196608 1 none,
      .coreWindowPondAccess false 1 1 1 (some []), .registerWrite false (2 ^ 40) 0, .poisonKill 0, .poisonKill 64,
      .rowFence 32, .rowShiftComplete 32, .meshLinkError 1152, .pageRetiredCopyDone 8, .pchSpareCopyDone 8,
      .patrolScrub 8 [], .thermalEvaluation [], .watchdogExpiry 6, .fwRestartComplete 6 false, .firmwareSelfTestDone [] 1,
      .powerWave 16, .stackPowerUp 8] :
      List Instr), i.wf = false := by decide +kernel

theorem test_ill_formed_h :
  ∀ i ∈ ([.laserBankPowerUp 9, .memoryTestDone 8 [] [] 1, .smbusNack 256 false, .processorCrash 6, .lcreditInterval 9] :
      List Instr), i.wf = false := by decide +kernel


/-! ## Small states -/

/-- A device in service: rails up, start-up complete, keeper out of ROM. -/
def dev : State :=
  State.setFld { State.reset with power := { Power.reset with rstN := true, rails := true },
                                  firm := { Firm.reset with inRom := false } } fwStatus 8 1 1

/-- A core that fetches `w` at word 0. -/
def running (w : Word) : Core := { Core.reset with mode := .running, epoch := 1, imem := [(0, w, 1)] }

/-- The launch of core `c` in span entry 0, queue 0, job 1. -/
def launch0 : CoreLaunch := { span := 0, hq := 0, job := 1, lx := 0, ly := 0 }

/-- An active span of `w` by `h` cores at logical (0, 0), of job 1. -/
def span0 (w h : Nat) : ActiveSpan :=
  { span := 0, x0 := 0, y0 := 0, w := w, h := h, hq := 0, job := 1, tag := 0, epoch := 0, freeze := none, waves := [], drains := [],
    blockMax := [], scans := [], stretch := 16, fault := none }

/-! ## The machine as a whole -/

theorem wit_EmptyQueueTicks :
    let s := { dev with active := [span0 1 1] }
    let z : Freeze := { effect := 0, active := true, conds := [], effectTick := 0, clearTick := none }
    let f := { dev with active := [{ span0 1 1 with freeze := some z }] }
    let y : Freeze := { z with active := false, effect := 1 }
    let k := fun n : Nat => { Core.reset with stores := [(n, 196607, [1])] }
    let kb := { Core.reset with stall := .held }
    dev.pending = [] ∧ dev.active = [] ∧ (∀ n, n < 4 → dev.reg (hiTrace n) = 0) ∧ dev.firm.writes = [] ∧ (∀ a ∈ dev.active, 1023 ∉ a.members) ∧
    (s.pending = [] ∧ s.active = [span0 1 1] ∧ (span0 1 1).x0 + (span0 1 1).w ≤ 32 ∧ 0 ∈ (span0 1 1).members ∧
      (span0 1 1).freeze = none ∧ (s.core 0).atBoundary = false ∧ ((s.setCore 0 kb).core 0).atBoundary = true) ∧
    (∀ n < 2, ((s.setCore 0 (k n)).core 0).vec.runs = [] ∧ ((s.setCore 0 (k n)).core 0).path.runs = [] ∧
      ((s.setCore 0 (k n)).core 0).rsv.runs = [] ∧
      ((s.setCore 0 (k n)).core 0).records = []) ∧
    ((∀ e ∈ (k 0).stores, s.ticks ≤ e.1) ∧ ∀ e ∈ (k 0).stores, e.1 < s.ticks + 1) ∧
    (y.active = false ∧ (f.core 0).cyc.toNat < y.effect.toNat) ∧
    f.pending = [] ∧ ∀ a ∈ f.active, 0 ∈ a.members ∧ a.freeze = some z ∧ z.active = true := by decide +kernel

theorem wit_StepKeepsCanonicalForms :
    State.reset.mem.wf ∧ (∀ c, (State.reset.core c).pond.wf) ∧ step State.reset = .next State.reset.tick :=
  ⟨⟨.nil, nofun, .nil⟩, fun _ => ⟨.nil, nofun, .nil⟩, rfl⟩

/-! ## The control core -/

/-- A running core can issue any word. -/
theorem wit_Ready (w : Word) : Ready (dev.setCore 0 (running w)) 0 w := ⟨rfl, rfl, fun h => absurd h (by show ¬ (1 : BitVec 16) = 0; decide)⟩

/-- The last core, at the last word of its memory. -/
theorem wit_Ready_last (w : Word) :
    Ready (dev.setCore 1023 { running w with pc := 16383, imem := [(16383, w, 1)] }) 1023 w :=
  ⟨rfl, rfl, fun h => absurd h (by show ¬ (1 : BitVec 16) = 0; decide)⟩

/-- MTS with no active loop and with one; every counter number. -/
theorem wit_SpecialRegisters :
    let mts (n : Nat) : Word := 0x10#6 ++ 0#5 ++ 1#5 ++ BitVec.ofNat 16 n
    let l := dev.setCore 0 { running (mts 8) with loops := [{ n := 3, start := 1, last := 1 }] }
    (∀ n : Fin 4, let s := dev.setCore 0 (running (mts (5 + n.val)))
      Ready s 0 (mts (5 + n.val)) ∧ (BitVec.ofNat 16 (5 + n.val)).toNat = 5 + n.val ∧ (s.core 0).loopActive n = false) ∧
    Ready l 0 (mts 8) ∧ (l.core 0).loopActive (3 : Fin 4) = true := by unfold Ready; decide +kernel

/-- Loads: at the last byte of the pond, beyond it, and on a poisoned granule of a job's core. -/
theorem wit_LoadsAct :
    let ld8 : Word := 0x11#6 ++ 0#5 ++ 1#5 ++ 0#16
    let far : Word := 0x11#6 ++ 0#5 ++ 1#5 ++ 1#16
    let ld64 : Word := 0x14#6 ++ 0#5 ++ 1#5 ++ 0#16
    let k := fun w => { running w with g := (running w).g.set 1 196607, launch := some launch0 }
    let p := { k ld64 with pond := Mem.reset.mark 196607 }
    (Ready (dev.setCore 0 (k ld8)) 0 ld8 ∧ (k ld8).pond.wf ∧ loadAddr (k ld8) 1 0 1 = 196607 ∧
      (k ld8).pond.badRange 196607 1 = false) ∧
    (Ready (dev.setCore 0 (k far)) 0 far ∧ (k far).pond.wf ∧ 196608 ≤ loadAddr (k far) 1 1 1) ∧
    (Ready (dev.setCore 0 p) 0 ld64 ∧ loadAddr p 1 0 8 < 196608 ∧ p.pond.badRange (loadAddr p 1 0 8) 8 = true ∧
      (dev.setCore 0 p).coreJob 0 ≠ 0 ∧ ((dev.setCore 0 p).job ((dev.setCore 0 p).coreJob 0)).killLatch = none) := by
  unfold Ready Mem.wf; decide +kernel

theorem wit_StoresWrite :
    let st64 : Word := 0x1B#6 ++ 0#5 ++ 1#5 ++ 0#16
    let k := { running st64 with g := (running st64).g.set 1 196607 }
    let far := { running st64 with g := (running st64).g.set 1 196608 }
    (Ready (dev.setCore 0 k) 0 st64 ∧ k.pond.wf ∧ loadAddr k 1 0 8 = 196600) ∧
    Ready (dev.setCore 0 far) 0 st64 ∧ far.pond.wf ∧ 196608 ≤ loadAddr far 1 0 8 := by unfold Ready Mem.wf; decide +kernel

/-- BR on p7, false after reset, taken with N set and not taken without it. -/
theorem wit_BranchesJump :
    let br (n : Bool) : Word := 0x20#6 ++ BitVec.ofBool true ++ BitVec.ofBool n ++ 7#3 ++ 0x1FFFFF#21
    ∀ n, Ready (dev.setCore 0 (running (br n))) 0 (br n) ∧ ((dev.setCore 0 (running (br n))).core 0).pr 7 = false := by
  unfold Ready; decide +kernel

/-- Back edges: none at this word, one loop that goes on, one that ends, and an ended loop in one that goes on. -/
theorem wit_LoopsRun :
    let f : LoopFrame := { n := 0, start := 0, last := 0 }
    let f' : LoopFrame := { n := 3, start := 0, last := 0 }
    let k := { running 0 with loops := [f, f'], lc := #v[1, 0, 0, 2] }
    let k1 := { running 0 with loops := [f], lc := #v[1, 0, 0, 0] }
    let k2 := { running 0 with loops := [f], lc := #v[2, 0, 0, 0] }
    (∀ k' ∈ [running 0, k, k1, k2], Ready (dev.setCore 0 k') 0 0) ∧
    (∀ x ∈ (running 0).loops, x.last ≠ (running 0).pc.toNat) ∧
    (k2.loops = [f] ∧ f.last = k2.pc.toNat ∧ f.n = (0 : Fin 4).val ∧ 1 < (k2.lc[(0 : Fin 4)]).toNat) ∧
    (k1.loops = [f] ∧ f.last = k1.pc.toNat ∧ f.n = (0 : Fin 4).val ∧ (k1.lc[(0 : Fin 4)]).toNat ≤ 1) ∧
    (k.loops = [f, f'] ∧ f.last = k.pc.toNat ∧ f'.last = k.pc.toNat ∧ f'.n = (3 : Fin 4).val ∧
      (k.lc[(0 : Fin 4)]).toNat ≤ 1 ∧ (3 : Fin 4) ≠ 0 ∧ 1 < (k.lc[(3 : Fin 4)]).toNat) := by unfold Ready; decide +kernel

/-- A command without handles (IDLE) for each queue. -/
def idleFor (e : Nat) : List Word := [BitVec.ofNat 32 (256 * e), 0, 1, 0, 0, 0, 0, 0]

def queued (ws : List Word) : QCmd := { words := ws, late := false, implicit := false }

/-- PUSH into an empty queue, into a full one, and the end of a stall. -/
theorem wit_CommandsAreBuilt :
    let push : Word := 0x28#6 ++ 0#26
    let k := { running push with c := #v[0x300, 0, 1, 0, 0, 0, 0, 0] }
    let full := { k with queues := k.queues.set 3 { EngQ.reset with cmds := List.replicate 16 (queued (idleFor 3)) } }
    let st := { k with stall := .push (queued (idleFor 3)) 3 }
    let held := { st with queues := k.queues.set 3 { EngQ.reset with seen := List.replicate 16 (queued (idleFor 3)) } }
    (∀ k' ∈ [k, full], Ready (dev.setCore 0 k') 0 push ∧
      cmdHandles (stagedCommand k' 0) = [] ∧ k'.dcache.length ≤ 256 ∧ (k'.c[0]).extractLsb' 8 2 = (3 : BitVec 2)) ∧
    (k.queue 3).cmds.length < 16 ∧ 16 ≤ (full.queue 3).cmds.length ∧
    (st.stall = .push (queued (idleFor 3)) 3 ∧ cmdEng (queued (idleFor 3)).words = 3 ∧ cmdHandles (idleFor 3) = [] ∧
      st.dcache.length ≤ 256 ∧ (st.queue 3).cmds.length < 16 ∧
      (st.queue 3).seen.length < 16 ∧ st.haltNext = false) ∧
    held.stall = .push (queued (idleFor 3)) 3 ∧ 16 ≤ (held.queue 3).seen.length := by unfold Ready; decide +kernel

theorem wit_FlagsAct :
    let fwait (n : Nat) : Word := 0x2F#6 ++ 31#5 ++ 0#5 ++ 0#2 ++ BitVec.ofNat 14 n
    let k := fun n => { running (fwait n) with flags := BitVec.ofNat 64 (2 ^ 63) }
    let w := { k 63 with stall := .flag 63 31 }
    let now := { k 63 with setNow := BitVec.ofNat 64 (2 ^ 63) }
    (((k 63).setNow ||| (k 63).setStream).getLsbD 63 = false ∧ (now.setNow ||| now.setStream).getLsbD 63 = true) ∧
    Ready (dev.setCore 0 (k 63)) 0 (fwait 63) ∧ (k 63).flag 63 = true ∧ Ready (dev.setCore 0 (k 0)) 0 (fwait 0) ∧
    (k 0).flag 0 = false ∧ w.stall = .flag 63 31 ∧ w.flag 63 = true ∧ w.haltNext = false := by
  unfold Ready; decide +kernel

/-- Object 2047, the last that a base of 0 reaches, as an object of job 1 for one module: a counter (kind 1) or a sluice (kind 2) of `n` local arrivals. -/
def withObj (kind n : Nat) (k : Core) (o : Obj) : State :=
  ((dev.setReg (syOcfg 2047) (BitVec.ofNat 64 (kind + 4 + 512 * n + 2 ^ 25))).setCore 0 { k with launch := some launch0 }).setObj
    2047 o

theorem wit_ObjectsAct_counters :
    let add : Word := 0x30#6 ++ 31#5 ++ 0#5 ++ 0#5 ++ 0x7FF#11
    let k := running add
    let w : Waiter := { obj := 2047, operand := 1, isSluice := false, refused := false, released := true }
    let s := withObj 1 0 k { Obj.reset with value := 5 }
    let wait : Word := 0x31#6 ++ 31#5 ++ 0#5 ++ 0#5 ++ 0x7FF#11
    let no := withObj 1 0 (running wait) Obj.reset
    let r := withObj 1 0 { k with stall := .reply 31 7 } Obj.reset
    let x := { withObj 1 0 { k with stall := .counter 2047 31 1 } Obj.reset with waiters := [(0, w)] }
    Ready s 0 add ∧ MayUse s 0 2047 1 ∧ (5 : Reg).toInt ≤ (s.obj 2047).value.toInt ∧ (s.obj 2047).value.toInt < (6 : Reg).toInt ∧
    (s.objSecure 0 = false ∧ s.objJob 0 ≠ s.coreJob 0) ∧
    (Ready no 0 wait ∧ no.objSecure 0 = false ∧ no.objJob 0 ≠ no.coreJob 0) ∧
    ((r.core 0).stall = .reply 31 7 ∧ (r.core 0).haltNext = false) ∧
    (x.core 0).stall = .counter 2047 31 1 ∧ (x.core 0).haltNext = false ∧ (0, w) ∈ x.waiters ∧ w.released = true := by
  unfold Ready MayUse; decide +kernel

theorem wit_ObjectsAct_sluices :
    let arr : Word := 0x32#6 ++ 31#5 ++ 0#5 ++ 0#5 ++ 0x7FF#11
    let k := running arr
    let w : Waiter := { obj := 2047, operand := 1, isSluice := true, refused := false, released := true }
    let s := withObj 2 65535 k Obj.reset
    let l := withObj 2 1 k Obj.reset
    let o := withObj 2 2 k { Obj.reset with sense := true }
    let x := { withObj 2 2 { k with stall := .sluice 2047 31 true } Obj.reset with waiters := [(0, w)] }
    (Ready s 0 arr ∧ MayUse s 0 2047 2 ∧ Quiet s ∧ (s.obj 2047).arrived + 1 ≠ s.objLocal 2047 ∧ (s.obj 2047).arrived < 65535) ∧
    (Ready l 0 arr ∧ MayUse l 0 2047 2 ∧ Quiet l ∧ (l.obj 2047).arrived + 1 = l.objLocal 2047 ∧ (l.obj 2047).remote = false ∧
      l.objRanks 2047 ≤ 1) ∧
    (MayUse o 0 2047 2 ∧ ((0 : Reg).toNat % 2 = 1 ↔ (o.obj 2047).sense = false)) ∧
    (MayUse o 0 2047 2 ∧ ((1 : Reg).toNat % 2 = 1 ↔ (o.obj 2047).sense = true)) ∧
    (x.core 0).stall = .sluice 2047 31 true ∧ (x.core 0).haltNext = false ∧ (0, w) ∈ x.waiters ∧ w.released = true := by
  unfold Ready MayUse Quiet; decide +kernel

/-- SLARR and SLWAIT of an object of another job. -/
theorem wit_ObjectsAct_refused :
    let arr : Word := 0x32#6 ++ 31#5 ++ 0#5 ++ 0#5 ++ 0x7FF#11
    let wait : Word := 0x33#6 ++ 31#5 ++ 0#5 ++ 0#5 ++ 0x7FF#11
    let s := fun w => withObj 2 2 (running w) Obj.reset
    (Ready (s arr) 0 arr ∧ Quiet (s arr) ∧ (s arr).objSecure 0 = false ∧ (s arr).objJob 0 ≠ (s arr).coreJob 0) ∧
    Ready (s wait) 0 wait ∧ Quiet (s wait) ∧ (s wait).objSecure 0 = false ∧ (s wait).objJob 0 ≠ (s wait).coreJob 0 := by
  unfold Ready Quiet; decide +kernel

theorem wit_EventsStepsHalts :
    let un : Word := 0x1D#6 ++ 0#26
    let ready := fun w => let k := { running w with launch := some launch0 }
      (dev.setCore 0 k).canIssue 0 && decide ((dev.setCore 0 k).fetched 0 = (w, k.epoch) ∧ k.epoch ≠ 0) &&
      (List.range 4).all fun q => decide ((k.queue q).cmds.length < queueDepth q)
    [(0x34#6 ++ 0#26 : Word), 0x38#6 ++ 0#26, 0x3F#6 ++ 0#26, un].all ready = true ∧
    opAssigned (un.toNat / 2 ^ 26) = false := by decide +kernel

/-- A word of another epoch, and one of epoch 0; a member that waits on a flag, one in a STEP, one that waits for nothing. -/
theorem wit_WordsNotExecuted :
    let s := dev.setCore 0 { running 0 with epoch := 2 }
    let z := dev.setCore 0 { running 0 with epoch := 0, imem := [(0, 0, 0)] }
    dev.canIssue 1023 = false ∧ (s.canIssue 0 = true ∧ s.fetched 0 = (0, 1) ∧ (1 : BitVec 16) ≠ (s.core 0).epoch) ∧
    (z.canIssue 0 = true ∧ z.fetched 0 = (0, 0)) ∧
    endsOwnWait (.flag 63 31) = true ∧ endsOwnWait (.stepWait true) = false ∧ endsOwnWait .none = false ∧
    standsInStep (.stepWait true) = true ∧ standsInStep .none = false ∧ standsInStep (.flag 63 31) = false := by decide +kernel

theorem wit_EventRecordWritten :
    let s := (dev.setCore 0 { running (0x34#6 ++ 0#26) with launch := some launch0 }).setFld evRingReg 57 1 1
    Ready s 0 (0x34#6 ++ 0#26) ∧ (s.core 0).launch = some launch0 ∧ s.coreSecure 0 = false ∧ s.hqSecure 0 = false ∧
    s.jobSecure 1 = false ∧ s.roleUp 3 = true ∧ s.pendRecs = [] ∧ s.fld evRingReg 57 1 = 1 ∧ s.eventRing.full = false ∧
    s.fld logRingReg 57 1 = 0 ∧ s.fld evRingReg 0 40 % 32 = 0 ∧
    s.fld evRingReg 0 40 + 32 * s.fld evPtr 24 24 + 32 ≤ s.capacity ∧ s.mem.wf := by unfold Ready Mem.wf; decide +kernel

/-! ## Engines -/

/-- A descriptor of job 1: a `d0` by `d1` tile in the pond, of format `f`, rows `s1` bytes apart. -/
def tile (f d0 d1 s1 : Nat) : BitVec 512 :=
  BitVec.ofNat 512 (f * 2 ^ 41 + 2 * 2 ^ 49 + 2 ^ 53 + d0 * 2 ^ 64 + d1 * 2 ^ 84 + s1 * 2 ^ 164)

/-- A core of job 1 with `ws` at the head of queue `e` and `d` cached under handle 0. -/
def heading (e : Nat) (ws : List Word) (d : BitVec 512) : Core :=
  { Core.setQueue { Core.reset with launch := some launch0 } e { EngQ.reset with cmds := [queued ws] } with
    dcache := [{ hq := 0, handle := 0, desc := some d, pins := 1 }] }

def heads (e : Nat) (ws : List Word) (d : BitVec 512) : State := dev.setCore 0 (heading e ws d)

/-- A command of engine `e` with code `code`, `hi` in the upper bits of word 0 and `w3` in word 3. -/
def cmd (e code hi w3 : Nat) : List Word := [BitVec.ofNat 32 (code + 256 * e + hi), 0, 0, BitVec.ofNat 32 w3, 0, 0, 0, 0]

/-- A run of `ws` that is due at cycle 0. -/
def dueRun (ws : List Word) : Run := Run.new ws 0

theorem wit_IdleOccupiesQueue :
    (∀ e, e < 4 → Heads (heads e (idleFor e) 0) 0 e (queued (idleFor e)) [] ∧ cmdCode (queued (idleFor e)).words = 0 ∧
      FlagsQuiet ((heads e (idleFor e) 0).core 0)) ∧
    ∀ e, e < 4 → let s := dev.setCore 0 (Core.setQueue Core.reset e { EngQ.reset with idleRuns := [0] })
      s.hasCore 0 = true ∧ s.freezeDue 0 = false ∧ ((s.core 0).queue e).idleRuns = [0] ∧
      (0 : Reg).toNat ≤ (s.core 0).cyc.toNat := by unfold Heads FlagsQuiet; decide +kernel

/-- The array has done the work of its cycle, with a run of it and without one. -/
theorem wit_MatrixStarts_settled : Settled (heads 0 (cmd 0 1 0 0) (tile 10 1 1 8)) 0 ((heads 0 (cmd 0 1 0 0) (tile 10 1 1 8)).core 0).array ∧
    Settled (dev.setCore 0 { Core.reset with array := { busyUntil := 0, runs := [dueRun (cmd 0 1 0 0)] } }) 0
      { busyUntil := 0, runs := [dueRun (cmd 0 1 0 0)] } := by unfold Settled; decide +kernel

/-- MMA with K = 0, with and without CLEAR, with K = 2^24 − 1, and in a member whose A operand has not come. -/
theorem wit_MatrixStarts_mma :
    let ws := fun k => cmd 0 1 0 k
    let clear := cmd 0 1 1024 0
    let one := tile 10 1 1 8
    let east := { dev.setCore 1 { heading 0 (ws 1) one with launch := some { launch0 with lx := 1 }, cyc := 5 } with active := [span0 2 1] }
    (Heads (heads 0 (ws 0) one) 0 0 (queued (ws 0)) [] ∧ cmdCode (ws 0) = 1 ∧ (heads 0 (ws 0) one).mmaFed 0 0 = true ∧
      cmdField (ws 0) 3 0 24 = 0 ∧ cmdBit (ws 0) 0 10 = false) ∧
    (Heads (heads 0 clear one) 0 0 (queued clear) [] ∧ cmdCode clear = 1 ∧ (heads 0 clear one).mmaFed 0 0 = true ∧
      cmdField clear 3 0 24 = 0 ∧ cmdBit clear 0 10 = true) ∧
    (Heads (heads 0 (ws 0xFFFFFF) one) 0 0 (queued (ws 0xFFFFFF)) [] ∧ cmdField (ws 0xFFFFFF) 3 0 24 = 0xFFFFFF ∧
      (heads 0 (ws 0xFFFFFF) one).mmaFed 0 0xFFFFFF = true) ∧
    (Heads east 1 0 (queued (ws 1)) [] ∧ cmdField (ws 1) 3 0 24 = 1 ∧ east.mmaFed 1 1 = false) := by
  unfold Heads; decide +kernel

/-- A core of local position (1, 0) with a WLOAD of `d`, with or without ADD, into a bank that may be in copybook mode. -/
def eastLoad (add copy : Bool) (d : BitVec 512) : State :=
  dev.setCore 0 { heading 0 (cmd 0 3 (if add then 2048 else 0) 0) d with
    launch := some { launch0 with lx := 1 }, cyc := 5, bank0 := { Bank.reset with copybook := copy } }

/-- DRAIN, WSTORE and WLOAD of an empty tile and of one element; a WLOAD that EDGE excludes; with ADD, into either mode. -/
theorem wit_MatrixStarts_path :
    let ws := fun code => cmd 0 code 0 0
    let one := tile 11 1 1 8
    let edge := one + BitVec.ofNat 512 (2 ^ 506)
    let w := fun (s : State) => (s.desc 0 (reqHandle 0)).inPond.withFmt [11]
    (∀ code ∈ [2, 3, 4], cmdCode (ws code) = code ∧
      Heads (heads 0 (ws code) 0) 0 0 (queued (ws code)) [] ∧ Heads (heads 0 (ws code) one) 0 0 (queued (ws code)) [] ∧
      ((heads 0 (ws code) 0).drainOut 0 (ws code)).count = 0 ∧ ((heads 0 (ws code) one).drainOut 0 (ws code)).count ≠ 0 ∧
      (w (heads 0 (ws code) 0)).count = 0 ∧ (w (heads 0 (ws code) one)).count ≠ 0) ∧
    ((w (eastLoad false false edge)).count ≠ 0 ∧ (eastLoad false false edge).takesPart 0 (w (eastLoad false false edge)) = false ∧
      Heads (eastLoad false false edge) 0 0 (queued (ws 3)) []) ∧
    ∀ add copy, let s := eastLoad add copy one
      Heads s 0 0 (queued (cmd 0 3 (if add then 2048 else 0) 0)) [] ∧ (w s).count ≠ 0 ∧ s.takesPart 0 (w s) = true ∧
      cmdBit (cmd 0 3 (if add then 2048 else 0) 0) 0 11 = add ∧ ((s.core 0).bank 0).copybook = copy ∧ (s.core 0).writing 0 = [] := by
  unfold Heads; decide +kernel

/-- A run due in each unit, before one of its code that is due later, and a span-wide record that every member has joined, at the
last place of the pond. -/
theorem wit_MatrixCompletions :
    let on (u : Core → Core) : State := dev.setCore 0 (u Core.reset)
    let late := fun ws : List Word => { dueRun ws with due := 9 }
    let unit (ws : List Word) : EUnit := { busyUntil := 0, runs := [late ws, dueRun ws] }
    let mma := on fun k => { k with array := unit (cmd 0 1 0 0) }
    let y : DrainSum :=
      { seq := 0, left := 0, counts := Counts.zero, bins := [], anchor := 0, addrs := [(0, 196607)], due := 0 }
    let a := { span0 1 1 with drains := [y] }
    let d := { dev.setCore 0 { Core.reset with launch := some launch0 } with active := [a] }
    (Due mma 0 1 (mma.core 0).array (dueRun (cmd 0 1 0 0)) [late (cmd 0 1 0 0)] ∧ Settled mma 0 (mma.core 0).array) ∧
    (∀ code ∈ [2, 3, 4], let s := on fun k => { k with path := unit (cmd 0 code 0 0) }
      Due s 0 code (s.core 0).path (dueRun (cmd 0 code 0 0)) [late (cmd 0 code 0 0)] ∧ (dueRun (cmd 0 code 0 0)).outs = [] ∧
      Settled s 0 (s.core 0).path) ∧
    d.hasCore 0 = true ∧ d.freezeDue 0 = false ∧ d.spanOf 0 = some a ∧ a.drains.find? (fun z => z.left == 0) = some y ∧
    y.due.toNat ≤ (d.core 0).cyc.toNat ∧ y.addrs = [(0, 196607)] := by
  unfold Due Settled
  refine ⟨⟨⟨by decide +kernel, by decide +kernel, rfl, by decide +kernel, [_], [], rfl, rfl, by decide +kernel, nofun⟩,
    by decide +kernel⟩, ?_, by decide +kernel⟩
  intro code h
  simp only [List.mem_cons, List.not_mem_nil, or_false] at h
  obtain rfl | rfl | rfl := h <;>
    exact ⟨⟨by decide +kernel, by decide +kernel, rfl, by decide +kernel, [_], [], rfl, rfl, by decide +kernel, nofun⟩, rfl,
      by decide +kernel⟩

theorem wit_VectorStarts :
    let fill := fun op => cmd 1 0x12 (1024 * op + 15 * 65536) 0xFFFFFF
    let vop := heads 1 (cmd 1 0x10 0 0) 0
    (∀ code ∈ [0x10, 0x11, 0x13], Heads (heads 1 (cmd 1 code 0 0) 0) 0 1 (queued (cmd 1 code 0 0)) [] ∧
      cmdCode (cmd 1 code 0 0) = code) ∧
    ((vop.desc 0 (reqHandle (cmdField (cmd 1 0x10 0 0) 2 0 12))).inPond.count = 0 ∧ Settled vop 0 (vop.core 0).vec) ∧
    ∀ op, op < 4 → Heads (heads 1 (fill op) 0) 0 1 (queued (fill op)) [] ∧ cmdCode (fill op) = 0x12 ∧
      cmdField (fill op) 0 10 2 = op := by unfold Heads Settled; decide +kernel

/-- Each completion, with a record at the last byte of the pond and a cursor of slot 15, and with neither. -/
theorem wit_VectorCompletions :
    let r := fun code (b : Bool) => { dueRun (cmd 1 code 0 0) with
      record := if b then some 196607 else none, cursor := if b then some (15, 7) else none }
    ∀ code ∈ [0x10, 0x11, 0x12, 0x13], ∀ b, let s := dev.setCore 0 { Core.reset with vec := { busyUntil := 0, runs := [r code b] } }
      Due s 0 code (s.core 0).vec (r code b) [] ∧ Settled s 0 (s.core 0).vec ∧
      (b = false → (r code b).record = none ∧ (r code b).cursor = none) ∧
      (b = true → (r code b).record = some 196607 ∧ (r code b).cursor = some (15, 7)) := by
  unfold Due Settled
  intro r code h b
  simp only [List.mem_cons, List.not_mem_nil, or_false] at h
  obtain rfl | rfl | rfl | rfl := h <;> cases b <;>
    exact ⟨⟨by decide +kernel, by decide +kernel, rfl, by decide +kernel, [], [], rfl, rfl, nofun, nofun⟩, by decide +kernel,
      by decide +kernel, by decide +kernel⟩

theorem wit_StreamStarts :
    (∀ code ∈ [0x20, 0x21, 0x22, 0x23, 0x24], Heads (heads 2 (cmd 2 code 0 0) 0) 0 2 (queued (cmd 2 code 0 0)) [] ∧
      cmdCode (cmd 2 code 0 0) = code ∧ ((heads 2 (cmd 2 code 0 0) 0).core 0).outstanding ≤ 32 ∧
      FlagsQuiet ((heads 2 (cmd 2 code 0 0) 0).core 0)) ∧
    foundBy 0 false { addr := cw 0 0x10000, uncorrectable := false, check := .coreEcc } = true ∧
    cmdBit (cmd 2 0x22 0 0) 0 12 = false ∧ cmdBit (cmd 2 0x22 4096 0) 0 12 = true ∧ cmdCode (cmd 2 0x22 4096 0) = 0x22 ∧
    Heads (heads 2 (cmd 2 0x22 4096 0) 0) 0 2 (queued (cmd 2 0x22 4096 0)) [] ∧
    (∀ op, op < 4 → Heads (heads 2 (cmd 2 0x25 (op * 2 ^ 22) 0) 0) 0 2 (queued (cmd 2 0x25 (op * 2 ^ 22) 0)) [] ∧
      cmdCode (cmd 2 0x25 (op * 2 ^ 22) 0) = 0x25 ∧ collOp (cmd 2 0x25 (op * 2 ^ 22) 0) = op) ∧
    ((dev.setFld (fbCcfg 0) 36 6 1).setFld (fbCcfg 0) 45 1 1).chanUsable 0 1 = true := by unfold Heads FlagsQuiet; decide +kernel

def xfer (code hi : Nat) (empty : Bool) : Xfer :=
  { id := 0, code := code, words := cmd 2 code hi 0, done := false, empty := empty, scan := none }

/-- A core of job 1 with one outstanding transfer. -/
def moving (x : Xfer) : State := dev.setCore 0 { Core.reset with launch := some launch0, xfers := [x] }

/-- A DATA flit that is a whole message. -/
def wholeFlit (d : List Byte) : Flit := { flitBlank with type := 1, last := true, len := BitVec.ofNat 8 d.length, payload := d }

/-- A running collective of core 0 on channel 0, its result ready. -/
def readyColl : Coll :=
  { core := 0, xfer := 0, job := 1, chan := 0, base := 0, n := 1, rank := 0, absent := false, member := 0, seq := 0, op := 0,
    word := 0, anchor := 0, anchor2 := 0, parts := 1, e := 0, stage := 4, t := 0, pass := false, own := [], shards := [], bits := [],
    ownSum := { overRange := false, grid := false, sat := false, need := 0, pc := 1 },
    sum := { overRange := false, grid := false, sat := false, need := 0, pc := 1 }, mismatch := none, waiting := false,
    late := false, empty := false, blot := PondWrite.none }

/-- The ends of transfers: an LDT behind another one to the same line waits, the other does not; a scan that every member has joined;
a RECV and a SEND on a flow of the job that lives and on one that does not; a COLL with its result ready, on a ring that lives, one
that is cut, and one that moves nothing. -/
theorem wit_StreamCompletions_moves :
    let a := fun w n => { span0 w 1 with scans := [{ seq := 0, joined := n, blocks := [] }] }
    let x := fun d => { xfer 0x22 4096 false with scan := some 0, done := d }
    let scan := fun w n d => { moving (x d) with active := [a w n] }
    let line := tile 10 1 1 8 + BitVec.ofNat 512 (2 ^ 40)
    let two := fun code => { heading 2 [] line with xfers := [xfer code 0 false, { xfer code 0 false with id := 1 }] }
    let mv := fun code => dev.setCore 0 (two code)
    (∀ code ∈ [0x20, 0x21, 0x22], ∀ b, Outstanding (moving (xfer code 0 b)) 0 code 0 (xfer code 0 b) ∧
      (moving (xfer code 0 b)).inOrder 0 (xfer code 0 b) = true ∧ (xfer code 0 b).scan = none) ∧
    (∀ code ∈ [0x20, 0x21], Outstanding (mv code) 0 code 1 { xfer code 0 false with id := 1 } ∧
      (mv code).inOrder 0 { xfer code 0 false with id := 1 } = false) ∧
    (∀ w ∈ [1, 2], ∀ n ∈ [0, 1, w], ∀ d, Outstanding (scan w n d) 0 0x22 0 (x d) ∧ (x d).scan = some 0 ∧
      (scan w n d).spanOf 0 = some (a w n) ∧ (a w n).x0 + (a w n).w ≤ 32 ∧ 0 ∈ (a w n).members ∧
      ((a w n).scans.find? fun z => z.seq == 0).map ScanSum.joined = some n ∧ (a w n).w * (a w n).h = w ∧
      (scan w n d).inOrder 0 (x d) = true ∧ ((scan w n d).core 0).xfers.find? (fun z => z.scan == some 0) = some (x d) ∧
      (x d).empty = false) := by
  unfold Outstanding; decide +kernel

/-- A scan that waits for an STT to a line that it reads. -/
theorem wit_StreamCompletions_held :
    let x := { id := 1, code := 0x22, words := cmd 2 0x22 4096 0, done := false, empty := false, scan := some 0 : Xfer }
    let line := tile 10 1 1 8 + BitVec.ofNat 512 (2 ^ 40)
    let a := { span0 1 1 with scans := [{ seq := 0, joined := 0, blocks := [] }] }
    let s := { dev.setCore 0 { heading 2 [] line with xfers := [xfer 0x21 0 false, x] } with active := [a] }
    Outstanding s 0 0x22 1 x ∧ s.spanOf 0 = some a ∧ s.inOrder 0 x = false := by unfold Outstanding; decide +kernel

/-- A flow of job 1 that lives, with the words of a message. -/
def liveFlow (s : State) (f : Nat) (rx : List Flit) : State :=
  ((s.setFld (fcWord f 0) 0 3 1).setFld (fcWord f 0) 4 6 1).setFlow f { Flow.reset with rx := rx }

theorem wit_StreamCompletions_flows :
    let recv := liveFlow (moving (xfer 0x24 0 false)) 0 [wholeFlit [5]]
    let send := liveFlow (moving (xfer 0x23 0 false)) 0 []
    let coll := fun z : Coll => { moving (xfer 0x25 0 false) with colls := [z] }
    let f := fun (s : State) (x : Xfer) => s.sendFlow 0 x.words
    (∀ code ∈ [0x23, 0x24, 0x25], ∀ b, Outstanding (moving (xfer code 0 b)) 0 code 0 (xfer code 0 b) ∧
      (moving (xfer code 0 b)).flowUsable (f (moving (xfer code 0 b)) (xfer code 0 b)) 1 = false) ∧
    (Outstanding send 0 0x23 0 (xfer 0x23 0 false) ∧ send.flowUsable (f send (xfer 0x23 0 false)) (send.coreJob 0) = true ∧
      ∀ y ∈ (send.flow (f send (xfer 0x23 0 false))).txq, y.2 ≠ some (0, 0)) ∧
    (Outstanding recv 0 0x24 0 (xfer 0x24 0 false) ∧ f recv (xfer 0x24 0 false) = 0 ∧
      recv.flowUsable 0 (recv.coreJob 0) = true ∧ recv.mayTake 0 = true ∧ recv.peekMessage 0 = some ([5], [false]) ∧
      recv.recvFirst 0 0 0 = true) ∧
    ∀ z ∈ [readyColl, { readyColl with n := 2 }, { readyColl with empty := true }],
      Outstanding (coll z) 0 0x25 0 (xfer 0x25 0 false) ∧ (coll z).colls.find? (fun z => z.core == 0 && z.xfer == 0) = some z ∧
      z.stage = 4 ∧ z.waiting = false ∧ (coll z).collCut z = (z.n == 2) := by unfold Outstanding; decide +kernel

/-- FLAG commands with nothing outstanding and behind an LDT; the counter that the CTRADD names is object 0 of job 1. -/
theorem wit_FlagCommandsAct_starts :
    let ws := fun op => cmd 2 0x26 (1024 * op + 63 * 65536) 5
    let s := fun op => ((heads 2 (ws op) 0).setReg (syOcfg 0) 5).modCore 0 fun k => { k with flags := BitVec.ofNat 64 (2 ^ 63) }
    (let o := cmdField (ws 3) 2 0 14;
      (s 3).objKind o = 1 ∧ (s 3).objJob o = (s 3).coreJob 0 ∧ ((s 3).objSecure o = true → (s 3).streamSecure 0 = true)) ∧
    ∀ op, op < 4 → Heads (s op) 0 2 (queued (ws op)) [] ∧ ((s op).core 0).outstanding ≤ 32 ∧ cmdCode (ws op) = 0x26 ∧
      FlagsQuiet ((s op).core 0) ∧ cmdField (ws op) 0 10 2 = op ∧ ((s op).core 0).xfers = [] := by
  unfold Heads FlagsQuiet; decide +kernel

theorem wit_FlagCommandsAct_behind :
    let ws := fun op => cmd 2 0x26 (1024 * op + 63 * 65536) 5
    let t := fun op => (heads 2 (ws op) 0).modCore 0 fun k => { k with xfers := [xfer 0x20 0 false] }
    ∀ op ∈ [1, 2, 3], Heads (t op) 0 2 (queued (ws op)) [] ∧ ((t op).core 0).outstanding ≤ 32 ∧ cmdCode (ws op) = 0x26 ∧
      FlagsQuiet ((t op).core 0) ∧ cmdField (ws op) 0 10 2 = op ∧ ((t op).core 0).xfers ≠ [] := by
  unfold Heads FlagsQuiet; decide +kernel

theorem wit_FlagCommandsAct_kept :
    let x := fun op => xfer 0x26 (1024 * op) false
    let u := fun op => (moving (x op)).setReg (syOcfg 0) 5
    (let o := cmdField (x 3).words 2 0 14;
      (u 3).objKind o = 1 ∧ (u 3).objJob o = (u 3).coreJob 0 ∧ ((u 3).objSecure o = true → (u 3).streamSecure 0 = true)) ∧
    ∀ op, op < 4 → (u op).hasCore 0 = true ∧ ((u op).core 0).xfers = [x op] ∧ (x op).id = 0 ∧ (x op).code = 0x26 ∧
      FlagsQuiet ((u op).core 0) ∧ cmdField (x op).words 0 10 2 = op := by unfold FlagsQuiet; decide +kernel

/-- The reservoir: a push with room, a pop at depth 0 and of a staged entry, their ends, an entry to write and one to fetch, at the
bottom of memory and of the staging area. -/
theorem wit_ReservoirMoves_starts :
    let one := tile 10 1 1 8
    let room := fun s : State => s.setFld (rvStage 0) 18 18 256
    let push := cmd 3 0x30 0 0
    let pop := cmd 3 0x31 0 0
    let s := room ((heads 3 push one).setFld (rvChan 0 0) 0 32 4096)
    let t := room (heads 3 pop one)
    let d := s.rsvTile 0 push
    let y : Staged := { chan := 0, addr := 0, size := 128, units := [0, 1], st := .staged, copying := false, popped := false }
    let p := (t.setFld (rvChan 0 0) 32 32 128).modCore 0 fun k => { k with staged := [y] }
    (Heads s 0 3 (queued push) [] ∧ cmdCode push = 0x30 ∧ d.count ≠ 0 ∧ s.takesPart 0 d = true ∧
      d.padded + 64 ≤ s.fld (rvStage 0) 18 18 ∧ Settled s 0 (s.core 0).rsv ∧ (s.core 0).pond = Mem.reset ∧ d.padded + 64 ≤ 64 * (s.freeStage 0).length) ∧
    (Heads t 0 3 (queued pop) [] ∧ cmdCode pop = 0x31 ∧ t.fld (rvChan 0 (rsvChan pop)) 32 32 = 0 ∧ (t.rsvTile 0 pop).count ≠ 0 ∧
      t.takesPart 0 (t.rsvTile 0 pop) = true) ∧
    (Heads p 0 3 (queued pop) [] ∧ p.fld (rvChan 0 (rsvChan pop)) 32 32 = 128 ∧ (p.rsvTile 0 pop).count ≠ 0 ∧
      p.takesPart 0 (p.rsvTile 0 pop) = true ∧ p.entrySize 0 0 128 ≤ p.fld (rvStage 0) 18 18 ∧
      (p.rsvTile 0 pop).padded ≤ p.fld (rvStage 0) 18 18 ∧ p.topStaged 0 0 = some y ∧ y.size ≤ 128) := by
  unfold Heads Settled; decide +kernel

theorem wit_ReservoirMoves_ends :
    let push := cmd 3 0x30 0 0
    let pop := cmd 3 0x31 0 0
    let u (ws : List Word) : State := dev.setCore 0 { Core.reset with rsv := { busyUntil := 0, runs := [dueRun ws] } }
    let y : Staged := { chan := 0, addr := 0, size := 128, units := [0, 1], st := .writing, copying := false, popped := false }
    let f := { y with st := .fetching }
    let w := dev.setCore 0 { Core.reset with staged := [y] }
    let g := dev.setCore 0 { Core.reset with staged := [f] }
    (Due (u push) 0 0x30 ((u push).core 0).rsv (dueRun push) [] ∧ Settled (u push) 0 ((u push).core 0).rsv ∧
      (((u push).core 0).staged.filter (dueRun push).copies).length ≤ 1) ∧ Due (u pop) 0 0x31 ((u pop).core 0).rsv (dueRun pop) [] ∧
    (w.hasCore 0 = true ∧ (w.core 0).staged.find? (fun z => z.st == .writing) = some y ∧ y.popped = false ∧ w.mem = Mem.reset ∧
      ∀ p ∈ pieces 0 128, w.reach (w.streamSecure 0) p.1 = .ok) ∧
    (g.hasCore 0 = true ∧ (g.core 0).staged.find? (fun z => z.st == .fetching) = some f ∧ f.popped = false ∧
      (g.core 0).pond = Mem.reset ∧ f.units.Nodup ∧ f.size = 64 * f.units.length) :=
  ⟨⟨⟨by decide +kernel, by decide +kernel, rfl, by decide +kernel, [], [], rfl, rfl, nofun, nofun⟩,
      by unfold Settled; decide +kernel, by decide +kernel⟩,
    ⟨by decide +kernel, by decide +kernel, rfl, by decide +kernel, [], [], rfl, rfl, nofun, nofun⟩, by decide +kernel, by decide +kernel⟩

theorem wit_CachesFill :
    let e : DEntry := { hq := 0, handle := 4095, desc := none, pins := 1 }
    let s := dev.setCore 0 { Core.reset with launch := some launch0, dcache := [e] }
    let b := { s with mem := Mem.reset.mark (64 * 4095) }
    let y : Tracker :=
      { pattern := 3, source := 4096, history := [[128], [128], [128]], trained := true, fast := none, slow := none }
    let t := ((dev.setCore 0 { Core.reset with trackers := [y] }).setFld (cw 0 0x81820) 0 1 1).setFld (rvChan 0 0) 32 32 256
    (s.hasCore 0 = true ∧ (s.core 0).dcache.any (fun e => e.hq == s.coreHq 0 && e.handle == 4095 && e.desc.isNone) = true) ∧
    ((b.core 0).dcache.any (fun e => e.hq == b.coreHq 0 && e.handle == 4095 && e.desc.isNone) = true ∧
      b.devBad (b.hqSecure 0) (b.fld (hqDt 0) 0 40 + 64 * 4095) 64 ≠ [] ∧ b.coreJob 0 ≠ 0 ∧ (b.job 1).killLatch = none) ∧
    t.hasCore 0 = true ∧ (t.core 0).trackers[0]? = some y ∧ y.trained = true ∧ t.fld (cw 0 0x81820) 0 1 = 1 ∧
    (t.predicted 0 y).find? (fun z => t.reach (t.trackSecure 0 y) (z * 256) == .ok && !t.mem.badRange (z * 256) 256 &&
      !mhas t.lake z) = some 0 := by decide +kernel

/-- A freeze raised by a flag wait that is not met, one that takes effect, one that ends, and an arrival. -/
theorem wit_FreezesAndArrivals :
    let base (f : Option Freeze) (k : Core) : State :=
      { dev.setCore 0 { k with launch := some launch0 } with active := [{ span0 1 1 with freeze := f }], ticks := 2 }
    let ws := cmd 2 0x26 (63 * 65536) 0
    let w := base none (Core.setQueue (heading 2 ws 0) 2 { EngQ.reset with cmds := [queued ws], seen := [queued ws] })
    let z : Freeze := { effect := 0, active := false, conds := [], effectTick := 0, clearTick := some 1 }
    let r := base (some z) Core.reset
    let e := base (some { z with active := true }) Core.reset
    let a := base none { Core.reset with stall := .stepWait false }
    (w.spanOf 0 = some (span0 1 1) ∧ w.hasCore 0 = true ∧ (span0 1 1).freeze = none ∧
      w.condsNow 0 (5 * (span0 1 1).diameter) ≠ [] ∧ ((w.core 0).queue 3).cmds.head? = none) ∧
    (r.spanOf 0 = some { span0 1 1 with freeze := some z } ∧ r.hasCore 0 = true ∧ z.active = false ∧
      z.effect.toNat ≤ (r.core 0).cyc.toNat) ∧
    (e.spanOf 0 = some { span0 1 1 with freeze := some { z with active := true } } ∧ z.conds = [] ∧ z.clearTick = some 1 ∧
      1 + 5 * (span0 1 1).diameter ≤ e.ticks ∧ z.effectTick < e.ticks ∧ (span0 1 1).members = [0] ∧
      (e.core 0).array.runs = [] ∧ (e.core 0).path.runs = [] ∧ (e.core 0).vec.runs = [] ∧ (e.core 0).rsv.runs = [] ∧
      (e.core 0).records = [] ∧ (span0 1 1).x0 + (span0 1 1).w ≤ 32) ∧
    (a.spanOf 0 = some (span0 1 1) ∧ a.hasCore 0 = true ∧ (a.core 0).stall = .stepWait false ∧ (a.core 0).quiet = true) := by
  decide +kernel
/-! ## Host queues, launches and steps -/

/-- A queue entry: `bs` and then zeros, 128 bytes. -/
def entry (bs : List Nat) : List Byte := (bs.map (BitVec.ofNat 8)) ++ List.replicate (128 - bs.length) 0

/-- Queue `q` of job 1 with span root 0, a ring of two entries whose last one waits at HEAD 1: `m`, at byte 128. -/
def queueWith (q : Nat) (m : List Byte) : State :=
  let s := ((dev.setFld (hqCfg q) 45 6 1).setFld (hqCfg q) 40 5 1).setFld (hqCfg q) 59 1 1
  { s.setFld (hqPtr q) 16 16 1 with lease := .held 1, mem := Mem.reset.write 128 m }

/-- A span of the one core at logical (0, 0). -/
def oneSpan : State := dev.setFld (nwSpan 0) 29 1 1

/-- Core 0, member of the active span 0 of job 1. -/
def inSpan (k : Core) : State := { dev.setCore 0 { k with launch := some launch0 } with active := [span0 1 1] }

theorem wit_EntriesAct :
    let step := entry [2, 0, 0, 0, 0, 0, 0, 0, 255, 255, 255, 255, 255, 255, 1]
    let fence := entry [3, 0, 0, 0, 0, 0, 0, 0, 5]
    let busy := fun m => { queueWith 255 m with active := [{ span0 1 1 with hq := 255 }] }
    let held := fun s : State => s.modHq 255 fun h => { h with held := .fence fence }
    (∀ kind ∈ [1, 4], let m := entry [kind]; Quiet (queueWith 255 m) ∧ Entry (queueWith 255 m) 255 m ∧ entryKind m = kind) ∧
    (Quiet (queueWith 255 step) ∧ Entry (queueWith 255 step) 255 step ∧ entryKind step = 2 ∧ msgField step 14 1 % 2 = 1) ∧
    (Entry (queueWith 255 fence) 255 fence ∧ entryKind fence = 3 ∧ entryOp fence = 5 ∧
      ∀ a ∈ (queueWith 255 fence).active, a.hq ≠ 255) ∧
    (Quiet (busy fence) ∧ Entry (busy fence) 255 fence ∧ ∃ a ∈ (busy fence).active, a.hq = 255) ∧
    (Quiet (held dev) ∧ ((held dev).hq 255).held = .fence fence ∧ (∀ a ∈ (held dev).active, a.hq ≠ 255) ∧
      (held dev).roleUp 4 = true) := by unfold Quiet Entry; decide +kernel

/-- FLOW_OPEN, FLOW_CLOSE and FLOW_RESET of the last flow, isolated or not, and RESUME of an orphaned job. -/
theorem wit_EntriesAct_control :
    let m := fun op => entry [3, 0, 0, 0, 0, 0, 0, 0, op, 255, 11]
    let s := (queueWith 0 (m 4)).modJob 1 fun x => { x with holds := [.orphaned] }
    let z := fun op => (queueWith 0 (m op)).setFld (fcWord 3071 0) 0 3 3
    (∀ op, op < 3 → Quiet (queueWith 0 (m op)) ∧ Entry (queueWith 0 (m op)) 0 (m op) ∧ entryKind (m op) = 3 ∧
      entryOp (m op) = op ∧ entryFlow (m op) = 3071 ∧ (queueWith 0 (m op)).roleUp 1 = true ∧
      (queueWith 0 (m op)).flowState 3071 ≠ 3) ∧
    (∀ op, op < 2 → Quiet (z op) ∧ Entry (z op) 0 (m op) ∧ (z op).roleUp 1 = true ∧ (z op).flowState 3071 = 3) ∧
    (Quiet s ∧ Entry s 0 (m 4) ∧ entryKind (m 4) = 3 ∧ entryOp (m 4) = 4 ∧ s.hqJob 0 = 1 ∧
      Hold.orphaned ∈ (s.job 1).holds ∧ (s.job 1).lapsing = false) := by unfold Quiet Entry; decide +kernel

theorem wit_EntriesAct_kill :
    let m := entry [3, 0, 0, 0, 0, 0, 0, 0, 3]
    let s := dev.modJob 63 fun x => { x with killLatch := some (1, 0, 0, 0) }
    ((queueWith 0 m).roleUp 2 = true ∧ Entry (queueWith 0 m) 0 m ∧ entryKind m = 3 ∧ entryOp m = 3) ∧
    (s.roleUp 2 = true ∧ (s.job 63).killLatch = some (1, 0, 0, 0)) := by unfold Entry; decide +kernel

/-- A PROGRAM entry of one word for the last place of the memory. -/
def oneWord : List Byte := entry [0, 0, 0, 0, 0, 0, 0, 0, 0, 16, 0, 0, 0, 255, 63, 1, 0]

theorem wit_ProgramsLoad_entry :
    let m := oneWord
    let s := queueWith 0 m
    Quiet s ∧ Entry s 0 m ∧ entryKind m = 0 ∧ progFirst m = 16383 ∧ progCount m = 1 ∧ msgField m 8 5 / 4 * 4 = 4096 := by
  unfold Quiet Entry; decide +kernel

theorem wit_ProgramsLoad_words : Unpoisoned (queueWith 0 oneWord) ((queueWith 0 oneWord).hqSecure 0) 4096 4 := by
  unfold Unpoisoned; decide +kernel

/-- A held block of one word for cores 0 and 1023, under epoch `e`. -/
def blockHeld (e : BitVec 16) (s : State) : State := s.modHq 0 fun h => { h with held := .program [] [0, 1023] e [7] }

/-- The word's write, under epoch 1, and as epoch 0 with a launch on a core of the span and without one. -/
theorem wit_ProgramsLoad_held :
    (∀ e < 2, let e := BitVec.ofNat 16 e
      ((blockHeld e dev).hq 0).held = .program [] [0, 1023] e [7] ∧ (blockHeld e dev).roleUp 4 = true ∧
      ∀ c ∈ [0, 1023], ((blockHeld e dev).core c).launch.isSome = false) ∧
    ((blockHeld 0 (inSpan Core.reset)).hq 0).held = .program [] [0, 1023] 0 [7] ∧
    (blockHeld 0 (inSpan Core.reset)).roleUp 4 = true ∧ ((blockHeld 0 (inSpan Core.reset)).core 0).launch.isSome = true := by
  decide +kernel

theorem wit_LaunchesStartAndEnd :
    let m := entry [1]
    let hold := fun s : State => s.modHq 0 fun h => { h with held := .launch m }
    let e := inSpan Core.reset
    ((hold dev).roleUp 4 = true ∧ ((hold dev).hq 0).held = .launch m ∧ (hold dev).spanValid (entrySpan m) = false) ∧
    ((hold oneSpan).roleUp 4 = true ∧ ((hold oneSpan).hq 0).held = .launch m ∧ (hold oneSpan).spanValid (entrySpan m) = true ∧
      (hold oneSpan).fld nwCapacity 24 1 = 0 ∧ (hold oneSpan).roleUp 0 = true ∧
      (hold oneSpan).killHeld ((hold oneSpan).hqJob 0) = false ∧ (hold oneSpan).flows = [] ∧
      (((hold oneSpan).newSpan 0 0 0 0 0).members).all (hold oneSpan).coreFree = true ∧
      ((hold oneSpan).newSpan 0 0 0 0 0).members = [0]) ∧
    (e.roleUp 4 = true ∧ e.active.find? (fun b => b.span == 0 && b.members.all fun c => (e.core c).ended) = some (span0 1 1) ∧
      (span0 1 1).members = [0] ∧ (e.core 0).stores = [] ∧ (e.core 0).records = [] ∧
      (e.job 1).killLatch = none ∧ (e.job 1).carried = false ∧ (span0 1 1).drains = []) := by decide +kernel

/-- No marker is held where no flow has a context of its own. -/
theorem wit_no_heldMarkers (s : State) (h : s.flows = []) : ∀ f, (s.flow f).heldMarkers = [] := by
  intro f; unfold State.flow; rw [h]; rfl

/-- A job whose one core has arrived, on channel 0 of `n` ranks. -/
def arrivedJob (n : Nat) : State :=
  (((inSpan { Core.reset with stall := .stepWait true }).setFld (fbCcfg 0) 0 12 n).setFld (fbCcfg 0) 36 6 1).setFld (fbCcfg 0) 45 1 1

theorem wit_StepsCommit : ∀ n ∈ [0, 1, 4095], let s := arrivedJob n
    s.jobSpans 1 ≠ [] ∧ (s.jobSpans 1).all s.spanArrived = true ∧ (s.job 1).holds = [] ∧ (s.job 1).exchange = none ∧
    (s.job 1).killLatch = none ∧ (s.job 1).abortDue = none ∧ s.flows = [] ∧ s.chanUsable (s.stepChan 1) 1 = true ∧ s.limitAllows 1 = true ∧ (s.job 1).carried = false ∧
    (∀ c ∈ s.jobCores 1, c < 1024) ∧ (s.jobCores 1).Nodup ∧ (s.chanRanks (s.stepChan 1) = 1 ↔ n = 1) := by decide +kernel

def vector0 : CommitVec := { fps := [], fpPoison := 0, ranks := [], modules := 0 }

/-- An exchange of two ranks. -/
def exchange0 : Exchange :=
  { chan := 0, base := 0, seq := 0, n := 2, rank := 0, t := 0, own := vector0, acc := vector0, mismatch := false }

/-- Messages for a COLL: of another step, and of its own ring step, with a further one to come; and one for the exchange. -/
theorem wit_CollectiveMessagesTaken :
    let live := fun (s : State) (b : List Byte) => (s.setFld (fcWord 1 0) 0 3 1).setFlow 1 { Flow.reset with rx := [wholeFlit b] }
    let x := { readyColl with n := 3, stage := 0 }
    let own := List.replicate 24 0 ++ [1] ++ List.replicate 7 (0 : Byte)
    let stale := List.replicate 8 0 ++ [1] ++ List.replicate 23 (0 : Byte)
    let s := fun b => { live (inSpan Core.reset) b with colls := [x] }
    let t := live (dev.modJob 0 fun j => { j with exchange := some exchange0 }) [5]
    (∀ b ∈ [own, stale], (s b).flowLive 1 = true ∧ (s b).mayTake 1 = true ∧
      (s b).peekMessage 1 = some (b, List.replicate 32 false) ∧
      (s b).colls.find? (fun y => (y.waitsOn 1).isSome) = some x ∧ (s b).msgCurrent x.job b = (b == own)) ∧
    (x.stage = 0 ∧ headDiffers own ((s own).collHead x 0 x.t x.sum) = none ∧ x.t + 2 < x.n) ∧
    (t.flowLive 1 = true ∧ t.mayTake 1 = true ∧ t.peekMessage 1 = some ([5], [false]) ∧
      t.colls.find? (fun y => (y.waitsOn 1).isSome) = none ∧ (t.job (t.flowJob 1)).exchange = some exchange0 ∧
      1 = ringRx exchange0.base 0) := by decide +kernel

/-- Waits exactly as long as the timeout lets them be, and waits that are met by then; with g[31] and with g[0] to write. -/
theorem wit_TimeoutsAct_waits :
    let at' := fun (u : Stall) => { dev.setCore 0 { Core.reset with stall := u, stallTick := 1 } with ticks := 1 + 2 ^ 30 }
    let met := fun (u : Stall) (sl : Bool) =>
      { at' u with waiters := [(0, { obj := 0, operand := 0, isSluice := sl, refused := false, released := true })] }
    let set := (at' (.flag 63 31)).modCore 0 fun k => { k with flags := BitVec.ofNat 64 (2 ^ 63) }
    (∀ rd : Fin 32, ((at' (.flag 63 (BitVec.ofNat 5 rd.val))).core 0).stall = .flag 63 (BitVec.ofNat 5 rd.val)) ∧
    (((at' (.flag 63 31)).core 0).haltNext = false ∧ ((at' (.flag 63 31)).core 0).flag 63 = false ∧
      ((at' (.flag 63 31)).core 0).stallTick + (at' (.flag 63 31)).syTicks 0 ≤ (at' (.flag 63 31)).ticks) ∧
    ((set.core 0).stall = .flag 63 31 ∧ (set.core 0).haltNext = false ∧ (set.core 0).flag 63 = true) ∧
    (((at' (.counter 0 0 0)).core 0).haltNext = false ∧ (at' (.counter 0 0 0)).waitMet 0 = false ∧
      ((at' (.counter 0 0 0)).core 0).stallTick + (at' (.counter 0 0 0)).syTicks 1 ≤ (at' (.counter 0 0 0)).ticks) ∧
    (((met (.counter 0 0 0) false).core 0).stall = .counter 0 0 0 ∧ (met (.counter 0 0 0) false).waitMet 0 = true) ∧
    (((at' (.sluice 0 0 true)).core 0).haltNext = false ∧ (at' (.sluice 0 0 true)).waitMet 0 = false ∧
      ((at' (.sluice 0 0 true)).core 0).stallTick + (at' (.sluice 0 0 true)).syTicks 2 ≤ (at' (.sluice 0 0 true)).ticks) ∧
    (((met (.sluice 0 0 true) true).core 0).stall = .sluice 0 0 true ∧ (met (.sluice 0 0 true) true).waitMet 0 = true) := by
  decide +kernel

theorem wit_TimeoutsAct_engine :
    let x := { queued (cmd 2 0x26 (63 * 65536) 0) with implicit := false }
    let e := { dev.setCore 0 (Core.setQueue Core.reset 2 { EngQ.reset with cmds := [x], waitTick := some 1 }) with ticks := 1 + 2 ^ 24 }
    let o := (dev.setFld (syOcfg 16383) 0 2 2).modObj 16383 fun o => { o with remote := true }
    (e.hasCore 0 = true ∧ ((e.core 0).queue 2).waitTick = some 1 ∧ ((e.core 0).queue 2).head = some x ∧ x.flagWait = some 63 ∧
      1 + e.syTicks 0 ≤ e.ticks ∧ ((e.core 0).queue 2).timedOut = false) ∧
    (o.objKind 16383 = 2 ∧ (o.obj 16383).remote = true ∧ (o.obj 16383).timedOut = false) := by decide +kernel

/-- The step barrier, outside the exchange with the last attempt that may be repeated, and within it. -/
theorem wit_TimeoutsAct_barrier :
    let s := (arrivedJob 1).setFld (fbJobpol 1) 16 16 1
    let t := (arrivedJob 2).modJob 1 fun x => { x with exchange := some exchange0 }
    ((s.jobSpans 1).any s.spanArrived = true ∧ (s.job 1).holds = [] ∧ (s.job 1).killLatch = none ∧ s.limitAllows 1 = true ∧
      (s.job 1).exchange = none ∧ s.roleUp 4 = true ∧ s.jobAttempt 1 + 1 ≤ s.fld (fbJobpol 1) 0 3) ∧
    ((t.jobSpans 1).any t.spanArrived = true ∧ (t.job 1).holds = [] ∧ (t.job 1).killLatch = none ∧ t.limitAllows 1 = true ∧
      (t.job 1).exchange = some exchange0) := by decide +kernel

/-! ## The optical fabric -/

/-- The device with port `p` in state `m`. -/
def portIn (m p : Nat) : State := dev.setFld (fbPstate p) 0 4 m

/-- Port `p` ACTIVE and flow 3071 open to rank 0, whose module has the address of this one. -/
def openOn (p : Nat) : State := (portIn 6 p).setFld (fcWord 3071 0) 0 3 1

/-- A sequenced flit of type `t`, the first of its link, for flow 3071 of this module: `n` bytes that begin with `bs`. -/
def framed (t : Nat) (n : Nat) (bs : List Nat) : Flit :=
  { flitBlank with type := BitVec.ofNat 3 t, ackseq := 0xFFF, flow := 3071, len := BitVec.ofNat 8 n, last := true,
                   payload := (bs.map (BitVec.ofNat 8)) ++ List.replicate (n - bs.length) 0 }

/-- The same with a marker held for a later step. -/
def heldOn (p : Nat) : State :=
  (openOn p).modFlow 3071 fun x => { x with heldMarkers := [{ step := 9, attempt := 0, behind := [] }] }

theorem wit_FramesArrive_data : ∀ n ∈ [1, 240], FrameFor (openOn 7) 7 (framed 1 n []) 3071 ∧
    (framed 1 n []).fseq.toNat = (openOn 7).rxExpect 3071 ∧ (openOn 7).staleFlow 3071 = false ∧
    ((openOn 7).flow 3071).heldMarkers = [] := by
  unfold FrameFor LinkTakes; decide +kernel

theorem wit_FramesArrive_held : FrameFor (heldOn 7) 7 (framed 1 1 []) 3071 ∧ (heldOn 7).staleFlow 3071 = false ∧
    (framed 1 1 []).fseq.toNat = (heldOn 7).rxExpect 3071 ∧
    ((heldOn 7).flow 3071).heldMarkers = [] ++ [{ step := 9, attempt := 0, behind := [] }] := by
  unfold FrameFor LinkTakes; decide +kernel

/-- An IDLE flit that acknowledges one flit and keeps one unacknowledged. -/
theorem wit_FramesArrive_idle :
    let s := (portIn 6 7).modPort 7 fun x => { x with replay := [flitBlank, flitBlank], txNext := 2 }
    let f := { flitBlank with type := 0, ackseq := 0 }
    s.portActive 7 = true ∧ f.type = 0 ∧ (s.port 7).waiting = [] ∧
    (f.ackseq + 1 - ((s.port 7).txNext - BitVec.ofNat 12 (s.port 7).replay.length)).toNat = 1 ∧
    1 ≤ (s.port 7).replay.length := by decide +kernel

theorem wit_FramesArrive_token :
    FrameFor (openOn 0) 0 (framed 3 8 [0, 0, 0, 254]) 3071 ∧ flitByte (framed 3 8 [0, 0, 0, 254]) 3 ≠ 0xFF := by
  unfold FrameFor LinkTakes; decide +kernel

theorem wit_FramesArrive_marker :
    FrameFor (openOn 0) 0 (framed 3 8 [0, 0, 0, 255]) 3071 ∧ flitByte (framed 3 8 [0, 0, 0, 255]) 3 = 0xFF := by
  unfold FrameFor LinkTakes; decide +kernel

theorem wit_FramesArrive_fack :
    let s := (openOn 7).setFld (fcWord 3071 1) 0 12 2
    let f := framed 2 4 [1, 0, 255, 7]
    FrameFor s 7 f 3071 ∧ f.type = 2 ∧ mod12 (flitField f 0 2 % 4096) (s.txAcked 3071) = 1 ∧
    1 ≤ mod12 (s.txNext 3071) (s.txAcked 3071) ∧ mod12 (flitField f 2 2 % 4096) (s.climit 3071) < 2048 := by
  unfold FrameFor LinkTakes; decide +kernel

/-- A frame for module 9, to which port 7 leads. -/
theorem wit_FramesArrive_relay :
    let f := { framed 1 1 [] with dst := 9, hops := 15 }
    let s := ((portIn 6 0).setFld (fbPstate 7) 0 4 6).setFld (fbRoute 0) 36 4 7
    let s := s.setFld fbCfg 16 1 1
    LinkTakes s 0 f ∧ s.portActive 0 = true ∧ f.dst.toNat ≠ s.selfAddr ∧ f.type = 1 ∧ s.fld fbCfg 16 1 = 1 ∧
    s.route f.dst.toNat = 7 ∧ s.portTakes 7 = true ∧ f.hops ≠ 0 ∧
    ((s.port 0).relayGot - (s.port 0).relayTold).toNat < 256 ∧ ∀ w ∈ (s.port 0).waiting, w.2 ≠ some 0 := by unfold LinkTakes; decide +kernel

/-- A link management flit of kind `k` with two more bytes. -/
def lmgtFlit (k a b c : Nat) : Flit := framed 5 5 [k, a, b, c]

theorem wit_LinksReplay :
    let sent := fun p => (portIn 6 p).modPort p fun x => { x with replay := [flitBlank, flitBlank], txNext := 2 }
    let lnak := { flitBlank with type := 4, lseq := 1, ackseq := 0xFFF }
    let host := { portIn 6 8 with hostLink := { HostLink.reset with replay := [hflitBlank] } }
    let z : Swap := { lane := 7, wavelength := 8, planned := false, transmit := false, acked := false, asked := false }
    ((sent 7).portActive 7 = true ∧ lnak.ackseq + 1 = ((sent 7).port 7).txNext - BitVec.ofNat 12 ((sent 7).port 7).replay.length ∧
      (lnak.lseq - (((sent 7).port 7).txNext - BitVec.ofNat 12 ((sent 7).port 7).replay.length)).toNat <
        ((sent 7).port 7).replay.length ∧ ((sent 7).port 7).replays + 1 < (sent 7).fld fbToLink 8 4 ∧
      ((sent 7).port 7).replay ≠ [] ∧ ((sent 7).port 7).waiting = []) ∧
    (host.portActive 8 = true ∧ host.hostLink.replay ≠ [] ∧ host.hostLink.replays + 1 < host.fld fbToLink 8 4 ∧
      (∀ w ∈ (host.port 8).swaps, w.transmit = true) ∧ host.hostLink.lnakSent = false) ∧
    (∀ p, p < 8 → (portIn 6 p).portActive p = true ∧ (∀ w ∈ ((portIn 6 p).port p).swaps, w.transmit = true) ∧
      ((portIn 6 p).port p).lnakSent = false ∧ ((portIn 6 p).port p).replay.length < 2048) ∧
    (∀ p ∈ [0, 8], let s := (portIn 6 p).modPort p fun x => { x with swaps := [z] }
      s.portActive p = true ∧ z ∈ (s.port p).swaps ∧ z.transmit = false) ∧
    (∀ k ∈ [0, 6, 7, 255], LmgtFor (portIn 6 7) 7 (lmgtFlit k 1 0 2) k ∧ lmgtKind (lmgtFlit k 1 0 2) = k) := by
  unfold LmgtFor LinkTakes; decide +kernel

/-- Link credit that waits to leave already, on port 0 and on the host port, and credit that does not. -/
theorem wit_LinksReplay_lcredit :
    let w : Flit := { flitBlank with type := 5, payload := leBytes 5 0 }
    let s := (portIn 6 0).modPort 0 fun x => { x with waiting := [(w, none)] }
    let h := { portIn 6 8 with hostLink := { HostLink.reset with waiting := [{ hflitBlank with type := 6 }] } }
    (s.portActive 0 = true ∧ isLcredit w = true) ∧ (h.portActive 8 = true ∧ h.hostLink.waiting ≠ []) ∧
    ((portIn 6 0).portActive 0 = true ∧ ((portIn 6 0).port 0).replay.length < 2048 ∧ ((portIn 6 0).port 0).waiting = []) ∧
    (portIn 6 8).portActive 8 = true ∧ (portIn 6 8).hostLink.waiting = [] ∧ (portIn 6 8).hostLink.replay.length < 2048 := by
  decide +kernel

/-- Ports 0 and 8 in each state; with all lanes, with half of them, and with one less. -/
theorem wit_PortsTrain_states :
    let dark := fun (p n : Nat) => (portIn 2 p).setFld (fbPlaser p) 0 18 (2 ^ n - 1)
    (∀ p ∈ [0, 8], dev.roleUp 1 = true ∧ (∀ m ∈ [2, 3, 4, 5, 7, 8], (portIn m p).portMode p = m) ∧
      (∀ n ∈ [halfLanes p, fullLanes p], halfLanes p ≤ ((dark p n).txUsable p).length ∧ (dark p n).portMode p = 2) ∧
      ((dark p (halfLanes p - 1)).txUsable p).length < halfLanes p ∧ (dark p (halfLanes p - 1)).portMode p = 2 ∧
      (portIn 8 p).portEnabled p = true ∧ (portIn 2 p).fld (fbPstate p) 27 2 + 1 < 3 ∧
      3 ≤ ((portIn 2 p).setFld (fbPstate p) 27 2 2).fld (fbPstate p) 27 2 + 1) := by decide +kernel

/-- Every receive wavelength of port 0 spare. -/
def spareWaves (s : State) : State := (List.range 18).foldl (fun s w => s.setWave false 0 w 16) s

theorem wit_PortsTrain_partner :
    let lit := (portIn 6 0).setFld (fbPlaser 0) 0 18 (2 ^ 18 - 1)
    (∀ n ∈ [8, 16], LmgtFor lit 0 (lmgtFlit 3 n 0 0) 3 ∧ lit.portActive 0 = true ∧ flitByte (lmgtFlit 3 n 0 0) 1 ∈ [8, 16]) ∧
    (∀ m ∈ [5, 7], ∀ n ∈ [8, 16], let s := spareWaves (portIn m 0)
      LmgtFor s 0 (lmgtFlit 3 n 0 0) 3 ∧ s.portMode 0 = m ∧ n ≤ (s.rxUsable 0).length ∧ s.mapLanes false 0 ≠ n) ∧
    LmgtFor (portIn 6 0) 0 (lmgtFlit 4 0 0 0) 4 ∧ (portIn 6 0).portActive 0 = true ∧
    LmgtFor (portIn 5 0) 0 (lmgtFlit 5 0 0 0) 5 ∧ (portIn 5 0).portActive 0 = false := by
  unfold LmgtFor LinkTakes; decide +kernel

/-- Whether HELLO has come, a HELLO ahead of its turn, and the commands that turn a port on, off and into retraining. -/
theorem wit_PortsTrain_hello :
    (∀ m ∈ [5, 7], ∀ b : Bool, let s := (portIn m 0).modPort 0 fun x => { x with hello := b }
      s.portMode 0 = m ∧ (s.port 0).hello = b) ∧
    (∀ m ∈ [5, 7], let f := { lmgtFlit 5 0 0 0 with lseq := 1 }
      LmgtAhead (portIn m 0) 0 f 5 ∧ (portIn m 0).portMode 0 = m) ∧
    (∀ p ∈ [0, 8], dev.portPresent p = true ∧ dev.portState p = 0 ∧ dev.fld fwStatus 8 1 = 1 ∧ (portIn 6 p).portState p ≠ 0 ∧
      (portIn 6 p).portActive p = true) ∧ bitOf (1 : BitVec 64).toNat 0 = true ∧ bitOf (0 : BitVec 64).toNat 0 = false ∧
    bitOf (3 : BitVec 64).toNat 0 = true ∧ bitOf (3 : BitVec 64).toNat 1 = true := by unfold LmgtAhead; decide +kernel

/-- In recovery mode the sources of an unpowered bank are good: both ways of telling the usable wavelengths. -/
theorem wit_PortsTrain_recovery :
    let s := { portIn 2 8 with firm := { dev.firm with recovery := true } }
    s.firm.recovery = true ∧ s.reg (fbPlaser 8) = 0 ∧ halfLanes 8 ≤ ((s.bankUp 8).txUsable 8).length ∧ s.portMode 8 = 2 ∧
    s.roleUp 1 = true := by decide +kernel

/-- Port 8 with lane 7 on wavelength 7 and wavelength 8 spare, each way. -/
def lanesUp : State :=
  let s := portIn 6 8
  [true, false].foldl (fun s tx => (List.range 9).foldl (fun s w => s.setWave tx 8 w (if w = 8 then 16 else w)) s) s

def swap0 (lane w : Nat) (planned tx acked asked : Bool) : Swap :=
  { lane := lane, wavelength := w, planned := planned, transmit := tx, acked := acked, asked := asked }

/-- Port 8 as `lanesUp`, with one swap pending. -/
def swapping (z : Swap) : State := lanesUp.modPort 8 fun x => { x with swaps := [z] }

theorem wit_LanesMove_start :
    let none' := lanesUp.setWave false 8 8 17
    (∀ tx, lanesUp.portActive 8 = true ∧ (lanesUp.laneWave tx 8 7).isSome = true ∧ lanesUp.spareWave tx 8 = some 8) ∧
    (lanesUp.port 8).swaps = [] ∧
    (none'.laneWave false 8 7 = some 7 ∧ none'.spareWave false 8 = none ∧ none'.portActive 8 = true) ∧
    (∀ planned ∈ [0, 1], let f := lmgtFlit 1 7 8 planned
      LmgtFor lanesUp 8 f 1 ∧ flitByte f 3 % 2 = planned ∧ flitByte f 2 < portWaves 8 ∧ flitByte f 1 < 16 ∧
        lanesUp.wave false 8 8 = 16 ∧ lanesUp.wave true 8 8 = 16 ∧ lanesUp.laneWave true 8 7 = some 7 ∧
        ∀ y ∈ (lanesUp.port 8).lost, y.1 ≠ 7) := by unfold LmgtFor LinkTakes; decide +kernel

/-- A SWAP_REQ behind a swap of its direction that has begun. -/
theorem wit_LanesMove_queued :
    ∀ planned : Bool, let f := lmgtFlit 1 7 8 (bitNat planned)
    let z := swap0 6 8 true (!planned) false false
    LmgtFor (swapping z) 8 f 1 ∧ (swapping z).portActive 8 = true ∧ flitByte f 3 % 2 = bitNat planned ∧
    ((swapping z).port 8).swaps.find? (fun y => y.transmit == !planned) = some z ∧ z.begun = true := by
  unfold LmgtFor LinkTakes; decide +kernel

theorem wit_LanesMove_end :
    let f := lmgtFlit 2 7 8 0
    (∀ planned, let z := swap0 7 8 planned false false false
      let s := swapping z
      LmgtFor s 8 f 2 ∧ s.portActive 8 = true ∧ flitByte f 1 < 16 ∧ s.laneWave false 8 (flitByte f 1) = some 7 ∧
      (s.port 8).swaps.find? (fun y => y.lane = flitByte f 1 && y.wavelength = flitByte f 2 && !y.acked && !y.asked) = some z ∧
      ∀ y ∈ (s.port 8).swaps, y.transmit = false → y = z) ∧
    (∀ tx acked, let z := swap0 7 8 true tx acked false
      let s := swapping z
      s.portActive 8 = true ∧ (s.port 8).swaps.find? (fun y => y.planned && y.begun) = some z ∧
      (∀ y ∈ (s.port 8).swaps, y.transmit = z.transmit → y = z) ∧ z.lane < 16 ∧ s.laneWave z.transmit 8 z.lane = some 7 ∧
      (∀ y ∈ (s.port 8).lost, y.1 ≠ z.lane) ∧ s.roleUp 1 = true ∧ z ∈ (s.port 8).swaps ∧ z.begun = true) := by
  unfold LmgtFor LinkTakes; decide +kernel

/-- A SWAP_ACK for an abrupt swap on fabric port 0, whose flit comes in its turn and ahead of it. -/
theorem wit_LanesMove_ack_ahead :
    let z := swap0 7 17 false false false false
    let s := portIn 6 0
    let s := ((s.setWave false 0 7 7).setWave false 0 17 16).modPort 0 fun x => { x with swaps := [z] }
    let ahead := { lmgtFlit 2 7 17 0 with lseq := 1 }
    (LmgtFor s 0 (lmgtFlit 2 7 17 0) 2 ∧ LmgtAhead s 0 ahead 2) ∧ s.portActive 0 = true ∧ z.planned = false ∧ z.transmit = false ∧
    (∀ f ∈ [lmgtFlit 2 7 17 0, ahead], flitByte f 1 < 16 ∧ s.laneWave false 0 (flitByte f 1) = some 7 ∧
      (s.port 0).swaps.find? (fun y => y.lane = flitByte f 1 && y.wavelength = flitByte f 2 && !y.acked && !y.asked) = some z) ∧
    ∀ y ∈ (s.port 0).swaps, y.transmit = false → y = z := by unfold LmgtFor LmgtAhead LinkTakes; decide +kernel

/-- A source fails with the spare source idle, the spare source itself fails, a tuning ends. -/
theorem wit_LanesMove_sources :
    let spare := dev.setFld (fbPlaser 0) 17 3 3
    let tuning := dev.modPort 0 fun x => { x with spareTuning := some 17 }
    (spare.fld (fbPlaser 0) 17 1 = 1 ∧ 17 < portWaves 0 ∧ spare.fld (fbPlaser 0) 18 2 = 1 ∧ (spare.port 0).spareTuning = none ∧
      spare.fld (fbPlaser 0) 18 1 = 1) ∧
    (tuning.port 0).spareTuning = some 17 ∧ tuning.roleUp 1 = true := by decide +kernel

theorem wit_FlowTimersExpire :
    let s := (((dev.setFld (fbRankmap 0) 12 1 1).setFld (fcWord 3071 0) 0 3 1).setFld (fcWord 3071 1) 0 12 1).modFlow 3071
      fun x => { x with rtx := [flitBlank] }
    let t := s.modFlow 3071 fun x => { x with tries := 14 }
    let p := s.modFlow 3071 fun x => { x with rtx := [flitBlank, flitBlank] }
    let p := p.setFld (fcWord 3071 1) 32 12 1
    (s.rankValid (s.peerRank 3071) = true ∧ s.flowLive 3071 = true ∧ mod12 (s.txNext 3071) (s.txAcked 3071) ≠ 0 ∧
      (s.flow 3071).tries + 1 < s.fld fbToFlow 8 4) ∧
    (t.rankValid (t.peerRank 3071) = true ∧ t.flowState 3071 = 1 ∧ mod12 (t.txNext 3071) (t.txAcked 3071) ≠ 0 ∧
      t.fld fbToFlow 8 4 ≤ (t.flow 3071).tries + 1) ∧
    (p.rankValid (p.peerRank 3071) = true ∧ p.flowLive 3071 = true ∧ mod12 (p.txNext 3071) (p.txAcked 3071) < (p.flow 3071).rtx.length ∧
      p.climit 3071 = p.txNext 3071) := by decide +kernel

/-- A RECV and a COLL wait on flow 1; keeper holds a change of rank map entry 4095. -/
theorem wit_FlowTimersExpire_waits :
    let s := (dev.setFld (fbRankmap 0) 12 1 1).setFld (fcWord 1 0) 0 3 1
    let x := xfer 0x24 0 false
    let r := s.setCore 0 { Core.reset with xfers := [x] }
    let y := { readyColl with n := 2, stage := 0, job := 1 }
    let c := { s.setCore 0 { Core.reset with launch := some launch0 } with active := [span0 1 1], colls := [y] }
    (s.rankValid (s.peerRank 1) = true ∧ s.flowLive 1 = true) ∧
    (let f := r.sendFlow 0 x.words
     r.recvWaits f = true ∧ (r.mayTake f && (r.peekMessage f).isSome) = false ∧ r.lateColl f = none ∧ (r.flow f).latePosted = false) ∧
    ((c.mayTake 1 && (c.peekMessage 1).isSome) = false ∧ c.lateColl 1 = some y ∧ y.job < 64 ∧ c.jobSpans y.job ≠ [] ∧ (c.job y.job).killLatch = none ∧
      Hold.parked ∉ (c.job y.job).holds ∧ c.roleUp 4 = true ∧ c.jobAttempt y.job + 1 ≤ c.fld (fbJobpol y.job) 0 3) := by
  decide +kernel

theorem wit_FlowTimersExpire_remap :
    let s := (dev.setFld (fbRankmap 4095) 12 1 1).setFld (fcWord 1 0) 10 12 4095
    let w : KeeperWork := { addr := fbRankmap 4095, value := 0x1FFF, admitted := true, waitRank := some 4095, resets := [1] }
    let k := { (s.setFld (fcWord 1 0) 0 3 1).setFlow 1 Flow.reset with firm := { dev.firm with keeper := some w } }
    k.rankValid (k.peerRank 1) = true ∧ k.firm.keeper = some w ∧ w.waitRank = some 4095 ∧ w.addr = fbRankmap 4095 ∧ k.roleUp 1 = true ∧ k.keeperUp = true ∧
    k.openFlows = [1] ∧ k.peerRank 1 = 4095 ∧ k.flowState 1 = 1 ∧ 1 ∈ w.resets := by decide +kernel

/-! ## Checkpoints and restores -/

/-- A checkpoint message of kind `k` of rank `r` and step 5, at offset `off`, with `x` in its last 8 bytes, and its data. -/
def ckMsg (k flags r off x : Nat) (data : List Byte) : List Byte :=
  leBytes 1 k ++ leBytes 1 flags ++ leBytes 2 r ++ leBytes 6 5 ++ leBytes 6 0 ++ leBytes 8 off ++ leBytes 8 x ++ data

/-- Job 1 as `g` makes it, with `m` on its flow 1, and hold slots of 1 GiB for rank 7. -/
def ckIn (m : List Byte) (g : Job → Job) : State :=
  let s := ((dev.setFld (fcWord 1 0) 0 3 1).setFld (fcWord 1 0) 4 6 1).setFlow 1 { Flow.reset with rx := [wholeFlit m] }
  ((s.setFld (fwCkhold 1) 52 10 2).setFld (fwCkhold 1) 40 12 7).modJob 1 g

def Waits (s : State) (m : List Byte) (k : Nat) : Prop :=
  s.flowLive 1 = true ∧ s.flowJob 1 = 1 ∧ s.peekMessage 1 = some (m, List.replicate m.length false) ∧ msgField m 0 1 = k

/-- The device with the processor of role `r` failed. -/
def roleDown (r : Nat) (s : State) : State := s.setFld (0x8100900100 + 8 * r) 3 2 1

/-- Messages that a restore waits for, and messages that nobody wants; with the scribe up and down. -/
theorem wit_CheckpointMessagesTaken_restore :
    let wants := fun x : Job => { x with ck := .restoring 5 2 }
    (∀ k ∈ [0, 1, 2, 4], let m := ckMsg k 0 4096 0 8 []
      Waits (ckIn m wants) m k ∧ (ckIn m wants).restoreWants 1 m = true ∧ ((ckIn m wants).job 1).ck = .restoring 5 2) ∧
    (∀ k ∈ [5, 255], Waits (ckIn (ckMsg k 0 0 0 0 []) id) (ckMsg k 0 0 0 0 []) k ∧
      (ckIn (ckMsg k 0 0 0 0 []) id).roleUp 3 = true ∧
      Waits (roleDown 3 (ckIn (ckMsg k 0 0 0 0 []) id)) (ckMsg k 0 0 0 0 []) k ∧
      (roleDown 3 (ckIn (ckMsg k 0 0 0 0 []) id)).roleUp 3 = false) := by unfold Waits; decide +kernel

/-- Data and its end for the hold region: the last bytes of a slot; short of the whole, and the whole. -/
theorem wit_CheckpointMessagesTaken_hold :
    let h : HoldIn := { flow := 1, rank := 7, step := 5, feed := 0, slot := 1, correlated := false, got := 8, size := none }
    let hold := fun x : Job => { x with holdIn := some h }
    let m := ckMsg 0 0 7 (2 ^ 30 - 8) 0 (List.replicate 8 1)
    let s := ckIn m hold
    (Waits s m 0 ∧ s.restoreWants 1 m = false ∧ s.holdAccepts 1 m = true ∧ (s.job 1).holdIn = some h ∧ h.rank = msgField m 2 2 ∧
      h.step = msgField m 4 6 ∧ h.size = none ∧ msgField m 16 8 + 8 = s.holdHalf 1 ∧
      ∀ p ∈ pieces (s.holdSlot 1 1 + 4096 + msgField m 16 8) 8, s.reach (s.flowSecure 1) p.1 = .ok) ∧
    (∀ n ∈ [8, 9], let e := ckMsg 1 0 7 0 n []
      let t := ckIn e hold
      Waits t e 1 ∧ t.restoreWants 1 e = false ∧ t.holdAccepts 1 e = true ∧ (t.job 1).holdIn = some h ∧
      msgField e 24 8 ≤ t.holdHalf 1 ∧ t.holdHalf 1 ≠ 0 ∧ (h.got < msgField e 24 8 ↔ n = 9) ∧
      ∀ p ∈ pieces (t.holdSlot 1 1) 64, t.reach (t.flowSecure 1) p.1 = .ok) := by unfold Waits; decide +kernel

/-- An end of data whose size exceeds half of SIZE by one byte, and one at a holder whose SIZE is 0. -/
theorem wit_CheckpointMessagesTaken_exceeds :
    let h : HoldIn := { flow := 1, rank := 7, step := 5, feed := 0, slot := 1, correlated := false, got := 8, size := none }
    let e := fun n => ckMsg 1 0 7 0 n []
    let t := fun n => ckIn (e n) fun x => { x with holdIn := some h }
    let s0 := (t 8).setFld (fwCkhold 1) 52 10 0
    (∀ s ∈ [(t (2 ^ 30 + 1), e (2 ^ 30 + 1)), (s0, e 8)], Waits s.1 s.2 1 ∧ s.1.roleUp 3 = true ∧ s.1.restoreWants 1 s.2 = false ∧
      s.1.holdAccepts 1 s.2 = true ∧ (s.1.job 1).holdIn = some h ∧ h.rank = msgField s.2 2 2 ∧ h.step = msgField s.2 4 6) ∧
    (t (2 ^ 30 + 1)).holdHalf 1 < msgField (e (2 ^ 30 + 1)) 24 8 ∧ s0.holdHalf 1 = 0 := by unfold Waits; decide +kernel

/-- Acknowledgements, requests with and without a hold region, a held step, and an absent step. -/
theorem wit_CheckpointMessagesTaken_answers :
    let copies := fun x : Job => { x with ck := .partnerCopy 5 }
    let r := ckMsg 3 0 7 0 0 []
    let none' := (ckIn r id).setFld (fwCkhold 1) 52 10 0
    let due := ckIn (ckMsg 2 0 7 0 0 []) fun x => { x with ck := .partnerCopy 5, snapshot := some 5 }
    let found := { ckIn r id with mem := Mem.reset.write (2 ^ 30) (commitRecord 5 1 7 0 false 0 0) }
    (∀ k ∈ [2, 4], ∀ flags ∈ [0, 16], let m := ckMsg k flags 7 0 0 []
      let s := (ckIn m copies).setFld (fwCkcfg 1) 29 1 (1 - flags / 16)
      Waits s m k ∧ (s.job 1).ck = .partnerCopy 5 ∧ (s.job 1).killLatch = none ∧ msgField m 4 6 = 5 ∧
      (bitOf (msgField m 1 1) 4 = false ∨ s.fld (fwCkcfg 1) 29 1 = 0)) ∧
    ((due.job 1).snapshotDue 5 = true ∧ due.stateSetBad 1 = false ∧ due.hidden = []) ∧
    (Waits none' r 3 ∧ none'.fld (fwCkhold 1) 52 10 = 0) ∧
    (Waits (ckIn r id) r 3 ∧ (ckIn r id).fld (fwCkhold 1) 52 10 ≠ 0 ∧
      [0, 1].find? (fun i => recordValid ((ckIn r id).holdRecord 1 1 i) && msgField ((ckIn r id).holdRecord 1 1 i) 8 2 = msgField r 2 2 &&
        msgField ((ckIn r id).holdRecord 1 1 i) 0 6 = msgField r 4 6) = none) ∧
    (Waits found r 3 ∧ found.fld (fwCkhold 1) 52 10 ≠ 0 ∧
      [0, 1].find? (fun i => recordValid (found.holdRecord 1 1 i) && msgField (found.holdRecord 1 1 i) 8 2 = msgField r 2 2 &&
        msgField (found.holdRecord 1 1 i) 0 6 = msgField r 4 6) = some 1) := by unfold Waits; decide +kernel

/-- FW_CKCTL with operation `op` on step 5. -/
def ckCtl (op : Nat) : BitVec 64 := BitVec.ofNat 64 (op + 5 * 16)

theorem wit_CheckpointsRun_asked :
    let parked := { ((dev.setFld (fcWord 0 0) 0 3 1).setFld (fcWord 0 0) 4 6 63).modJob 63 fun x => { x with holds := [.parked] } with
      active := [{ span0 1 1 with job := 63 }] }
    let two := dev.setFld (fwCkcfg 63) 12 12 9
    let rec0 := { dev with mem := Mem.reset.write 0 (commitRecord 5 63 0 0 false 0 0) }
    (parked.admits true true (fwCkctl 63) = .ok ∧ bitsOf (ckCtl 1).toNat 0 4 = 1 ∧ (parked.job 63).ck = .idle ∧
      (parked.job 63).holds = [.parked] ∧ parked.jobSpans 63 ≠ [] ∧ parked.roleUp 3 = true ∧ parked.stateSetBad 63 = false ∧
      parked.hidden = [] ∧ Hold.checkpoint ∉ (parked.job 63).holds ∧
      ∀ f ∈ parked.ckFlows 63, parked.flowUsable f 63 = true) ∧
    (∀ op ∈ [1, 2, 3, 4, 5], bitsOf (ckCtl op).toNat 0 4 = op ∧ bitsOf (ckCtl op).toNat 4 48 = 5 ∧
      dev.admits true true (fwCkctl 63) = .ok ∧ (dev.job 63).ck = .idle ∧ dev.jobSpans 63 = [] ∧ (dev.job 63).holds = [] ∧
      (dev.job 63).gens = [] ∧ dev.roleUp 3 = true ∧ (roleDown 3 dev).admits true true (fwCkctl 63) = .ok ∧
      (roleDown 3 dev).roleUp 3 = false ∧ ((roleDown 3 dev).job 63).ck = .idle ∧ (roleDown 3 dev).jobSpans 63 = []) ∧
    (two.flowUsable (two.fld (fwCkcfg 63) 12 12) 63 = false ∧ parked.flowUsable (parked.fld (fwCkcfg 63) 12 12) 63 = true) ∧
    recordValid (dev.devBytes (dev.jobSecure 63) (dev.fld (fwCksnap 63) 0 40) 64) = false ∧
    recordValid (rec0.devBytes (rec0.jobSecure 63) (rec0.fld (fwCksnap 63) 0 40) 64) = true ∧
    msgField (rec0.devBytes (rec0.jobSecure 63) (rec0.fld (fwCksnap 63) 0 40) 64) 0 6 = 5 := by decide +kernel

/-- A checkpoint of an orphaned job, one of a job that runs, and a flash generation of the asked step. -/
theorem wit_CheckpointsRun_asked_more :
    let orphan := { ((dev.setFld (fcWord 0 0) 0 3 1).setFld (fcWord 0 0) 4 6 63).modJob 63 fun x => { x with holds := [.orphaned] } with
      active := [{ span0 1 1 with job := 63 }] }
    let g : Generation := { step := 5, secure := false, data := [], bad := [], print := 0 }
    let two := dev.modJob 63 fun x => { x with gens := [g] }
    (orphan.admits true true (fwCkctl 63) = .ok ∧ (orphan.job 63).ck = .idle ∧ orphan.hidden = [] ∧
      Hold.orphaned ∈ (orphan.job 63).holds ∧ Hold.checkpoint ∉ (orphan.job 63).holds ∧ orphan.jobSpans 63 ≠ [] ∧ orphan.roleUp 3 = true ∧
      orphan.stateSetBad 63 = false ∧ ∀ f ∈ orphan.ckFlows 63, orphan.flowUsable f 63 = true) ∧
    Hold.parked ∉ (dev.job 63).holds ∧ Hold.orphaned ∉ (dev.job 63).holds ∧
    (two.admits true true (fwCkctl 63) = .ok ∧ (two.job 63).ck = .idle ∧ two.jobSpans 63 = [] ∧ two.roleUp 3 = true ∧
      g ∈ (two.job 63).gens ∧ g.step = bitsOf (ckCtl 3).toNat 4 48) := by decide +kernel

theorem wit_CheckpointsRun_ends :
    let held := dev.modJob 63 fun x => { x with snapshotHeld := true }
    let copy := dev.modJob 63 fun x => { x with ck := .partnerCopy 5, snapshot := some 5 }
    let flash := dev.modJob 63 fun x => { x with flashWriting := some 5 }
    let back := fun p => dev.modJob 63 fun x => { x with ck := .restoring 5 2, restoreSize := some 0, restorePrint := some p }
    (held.job 63).snapshotHeld = true ∧
    ((copy.job 63).ck = .partnerCopy 5 ∧ (copy.job 63).snapshotDue 5 = true ∧ (copy.job 63).killLatch = none ∧
      copy.roleUp 3 = true ∧ copy.stateSetBad 63 = false ∧ copy.hidden = []) ∧
    ((flash.job 63).flashWriting = some 5 ∧ (flash.job 63).ck = .idle ∧ flash.fld flStatus 1 1 = 0 ∧ flash.roleUp 3 = true ∧
      (flash.setFld flStatus 1 1 1).fld flStatus 1 1 = 1 ∧ ((flash.setFld flStatus 1 1 1).job 63).flashWriting = some 5 ∧
      (flash.setFld flStatus 1 1 1).roleUp 3 = true) ∧
    (held.admits true true (fwCkctl 63) = .ok ∧ bitsOf (ckCtl 5).toNat 0 4 = 5) ∧
    (∀ p ∈ [0, 1], ((back p).job 63).ck = .restoring 5 2 ∧ (back p).roleUp 3 = true ∧ (back p).restoreReady 63 5 2 = some ([], [], p) ∧
      (dataPrint [] = p ↔ p = 0)) := by decide +kernel

/-! ## The host link -/

/-- A flit of type `t` with address `a`, whose payload is `bs` and then zeros up to `n` bytes. -/
def hostFlit (t a n : Nat) (bs : List Nat) : HFlit :=
  { hflitBlank with type := BitVec.ofNat 4 t, ackseq := 0xFFF, addr := BitVec.ofNat 40 a, last := true, len := BitVec.ofNat 13 n,
                    payload := if t = 2 then [] else (bs.map (BitVec.ofNat 8)) ++ List.replicate (n - bs.length) 0 }

/-- The host port ACTIVE with window 0 over the first 2 MB. -/
def hostUp : State := (portIn 6 8).setReg (hiWin 0) (BitVec.ofNat 64 (3 * 2 ^ 38))

/-- Writes and reads of 1 and 240 bytes, the last of the window, a read of 4,096 bytes, one byte beyond the window, a doorbell of the last queue, credit. -/
theorem wit_HostFlitsAct_traffic :
    (∀ t ∈ [1, 2], ∀ n ∈ [1, 240], let f := hostFlit t (0x200000 - n) n []
      let s := hostUp
      HostTakes s f ∧ s.portActive 8 = true ∧ hflitLenGood f = true ∧ f.type.toNat = t ∧ f.len.toNat = n ∧
      s.inWindow (0x200000 - n) n (t = 1) = true ∧ s.flrRuns = false ∧ s.hostLink.waiting = [] ∧ 0x200000 ≤ coreBase ∧
      ∀ p ∈ pieces (0x200000 - n) n, s.reach false p.1 = .ok) ∧
    (HostTakes hostUp (hostFlit 2 0 4096 []) ∧ hostUp.inWindow 0 4096 false = true) ∧
    (HostTakes hostUp (hostFlit 1 0x1FFFFF 2 []) ∧ hostUp.inWindow 0x1FFFFF 2 true = false) := by
  unfold HostTakes; decide +kernel

theorem wit_HostFlitsAct_doorbell :
    let s := hostUp.setFld (hqCfg 255) 59 1 1
    let f := hostFlit 4 0 3 [255, 1, 0]
    let c := hostFlit 6 0 2 [1, 0]
    (HostTakes s f ∧ s.portActive 8 = true ∧ hflitLenGood f = true ∧ f.type = 4 ∧ hflitField f 0 1 = 255 ∧
      s.admits false true (hqPtr 255) = .ok ∧ s.fld (hqCfg 255) 59 1 = 1 ∧ s.fld (hqCfg 255) 60 1 = 0) ∧
    (HostTakes hostUp c ∧ c.type = 6 ∧ hflitLenGood c = true ∧ hostUp.portActive 8 = true) := by unfold HostTakes; decide +kernel

theorem wit_HostFlitsAct_link :
    let id := hostFlit 8 0 10 [0, 3, 6, 0, 0, 0, 0, 1, 0, 1]
    let w := fun k => hostFlit 8 0 5 [2, 3, 1, 0, k]
    let lit := hostUp.setFld (fbPlaser 8) 0 9 511
    (HostTakes hostUp id ∧ OneFragment hostUp id 0 6) ∧
    (∀ k ∈ [4, 8], HostTakes lit (w k) ∧ OneFragment lit (w k) 2 1 ∧ lit.portActive 8 = true ∧ hflitField (w k) 4 1 = k ∧
      k ≤ (lit.txUsable 8).length ∧ lit.roleUp 1 = true) := by unfold HostTakes OneFragment; decide +kernel

/-- HLNAK for the second of two flits that were not acknowledged. -/
theorem wit_HostFlitsAct_lnak :
    let s := { hostUp with hostLink := { HostLink.reset with replay := [hflitBlank, hflitBlank], txNext := 2 } }
    let f := { hostFlit 7 0 0 [] with lseq := 1 }
    HostTakes s f ∧ f.type = 7 ∧ s.portActive 8 = true ∧ s.hostLink.replays + 1 < s.fld fbToLink 8 4 ∧
    (f.lseq - (s.hostLink.txNext - BitVec.ofNat 12 s.hostLink.replay.length)).toNat < s.hostLink.replay.length := by
  unfold HostTakes; decide +kernel

/-- Recovery mode, keeper down, and keeper up before and after the end of start-up, with four measurements taken; a request in a
management flit. -/
theorem wit_SpdmAnswers :
    let r := { dev with firm := { dev.firm with recovery := true } }
    let m := { dev with firm := { dev.firm with measurements := [1, 2, 3, 4] } }
    let early := dev.setFld fwStatus 8 1 0
    let f := hostFlit 8 0 5 [1, 3, 1, 0, 0x84]
    (r.firm.recovery = true ∧ r.firm.asked = []) ∧ (State.reset.firm.recovery = false ∧ State.reset.keeperUp = false) ∧
    (early.firm.recovery = false ∧ early.keeperUp = true ∧ early.fld fwStatus 8 1 = 0 ∧ early.firm.asked = []) ∧
    (m.firm.recovery = false ∧ m.keeperUp = true ∧ m.fld fwStatus 8 1 = 1 ∧ 4 ≤ m.firm.measurements.length ∧ m.firm.asked = []) ∧
    (∀ s ∈ [hostUp, roleDown 0 hostUp], OneFragment s f 1 1 ∧ HostTakes s f ∧ s.firm.asked = [] ∧ s.firm.recovery = false) ∧
    hostUp.keeperUp = true ∧ (roleDown 0 hostUp).keeperUp = false := by unfold OneFragment HostTakes; decide +kernel

/-! ## Register space -/

/-- A secure register from the non-secure world; one that only recovery mode opens; an address without a register; a doorbell of
a secure queue. -/
theorem wit_WritesAreAdmitted :
    let s := dev.setReg (swWhq 3) (BitVec.ofNat 64 (2 ^ 63))
    Quiet dev ∧ (regWritten (.nwFencereq false 0) = some (false, nwFencereq) ∧ dev.admits false true nwFencereq = .blocked) ∧
    (regWritten (.hqptrWrite false 255 0) = some (false, hqPtr 255) ∧ Quiet s ∧ s.admits false true (hqPtr 255) = .blocked) ∧
    (regWritten (.recoveryWrite true 0) = some (true, flRecovctl) ∧ dev.admits true true flRecovctl = .ignored) ∧
    (regWritten (.registerWrite true 7 0) = some (true, 7) ∧ dev.admits true true 7 = .reserved) := by
  unfold Quiet; decide +kernel

/-- SY_OVAL of a secure object written from the non-secure world: a counter's write is blocked, a sluice's and a free object's is not. -/
theorem wit_WritesAreAdmitted_oval :
    let kind := fun k => (dev.setFld (syOcfg 16383) 8 1 1).setFld (syOcfg 16383) 0 2 k
    let a := syOcfg 16383 + 8
    ∀ i ∈ [Instr.syOvalWrite false 16383 0, .registerWrite false a 0],
      regWritten i = some (false, syOcfg 16383) ∧ ovalWritten i = some 16383 ∧
      (Quiet (kind 1) ∧ (kind 1).admits false true (syOcfg 16383) = .blocked ∧ (kind 1).objKind 16383 = 1) ∧
      ∀ k ∈ [0, 2], Quiet (kind k) ∧ (kind k).objKind 16383 ≠ 1 := by unfold Quiet; decide +kernel

/-- The registers that the statements below write, each at the last of its places, take a write from the secure world. -/
theorem wit_admitted : ([hqPtr 255, hqCfg 255, hqCq 255, evPtr, logPtr, fwSrptr 63, slogPtr, evRingReg, logRingReg, fwSrring 63,
    0x8100200010, 0x8100200018, syOcfg 16383, syOcfg 16383 + 16, rvChanBase 1023 31, rvStage 1023, swRegion 2047, nwFencereq,
    fbProfile, fbRankmap 4095, fbJobpol 63, 0x8100900008, 0x8100900018, fwCorerst, fwUpdlen, fwKctl, nwSpan 255, rvChan 1023 31,
    fbRoute 255, fbCcfg 1023, hiWin 7].all fun a => dev.admits true true a = .ok) = true := by decide +kernel

theorem wit_RegisterFieldsSet :
    acts (hiWin 7) = false ∧ dev.admits false true (hiWin 7) = .ok ∧
    (∀ d ∈ regDesc (hiWin 7), ∀ f ∈ d.fields, f.acc ≠ .slot) ∧ 0 < dev.width := by decide +kernel

/-- Doorbells of an enabled, a disabled and a closed queue, and rings with nothing that waits for them. -/
theorem wit_RingsAndLeaseWritten :
    let on := dev.setFld (hqCfg 255) 59 1 1
    let closed := on.setFld (hqCfg 255) 60 1 1
    (on.admits true true (hqPtr 255) = .ok ∧ on.fld (hqCfg 255) 59 1 = 1 ∧ on.fld (hqCfg 255) 60 1 = 0) ∧
    dev.fld (hqCfg 255) 59 1 = 0 ∧ (closed.admits true true (hqPtr 255) = .ok ∧ closed.fld (hqCfg 255) 60 1 = 1) ∧
    dev.pendRecs = [] ∧ (dev.job 63).heldRecords = [] ∧ (dev.hq 255).pendingCpl = [] := by decide +kernel

/-- The lease: free, held with the token, held with another, lapsed with and without orphans; token 0 stands for 1. -/
theorem wit_RingsAndLeaseWritten_lease :
    let held := fun t => { dev with lease := .held t }
    let gone := { dev with lease := .lapsed 7 }
    let orphan := (gone.modJob 63 fun x => { x with holds := [.orphaned] })
    dev.lease = .none ∧ (held 1).lease = .held 1 ∧ (∀ t, t < 3 → (held (BitVec.ofNat 64 t)).admits true true 0x8100200010 = .ok ∧
      (held (BitVec.ofNat 64 t)).admits true true 0x8100200018 = .ok) ∧
    (gone.admits true true 0x8100200010 = .ok ∧ gone.orphans = 0) ∧ (orphan.lease = .lapsed 7 ∧ orphan.orphans = 1 ∧
      orphan.admits true true 0x8100200010 = .ok ∧ orphan.admits true true 0x8100200018 = .ok) := by decide +kernel

/-- Sync objects of each kind; a barrier that still waits for others; regions; core windows; a core to fence. -/
theorem wit_BlocksWritten :
    let kind := fun k => (dev.setFld (syOcfg 16383) 0 2 k).setFld (syOcfg 16383) 9 16 2
    let sec := dev.setReg (swWcore 15) (BitVec.ofNat 64 (2 ^ 63))
    let zero := { dev with zeroing := [2 ^ 17 - 1] }
    (∀ k, k < 3 → (kind k).admits true true (syOcfg 16383) = .ok ∧ (kind k).admits true true (syOcfg 16383 + 16) = .ok ∧
      (kind k).objKind 16383 = k ∧ ((kind k).obj 16383).arrived + 1 < (kind k).objLocal 16383) ∧
    (dev.roleUp 0 = true ∧ 2047 < 512 * dev.cap64) ∧ zero.zeroing = (2 ^ 17 - 1) :: [] ∧
    (∀ w, dev.windowAdmits true w 1023 = .ok) ∧ sec.windowAdmits false true 1023 = .blocked := by decide +kernel

theorem wit_BlocksWritten_fence :
    let v : BitVec 64 := BitVec.ofNat 64 (1023 + 2 ^ 10)
    let k := bitsOf v.toNat 0 10
    dev.admits true true nwFencereq = .ok ∧ bitOf v.toNat 10 = true ∧ k = 1023 ∧ dev.hasCore k = true ∧
    dev.fencedPhys (dev.physOf k) = false ∧ bitOf (dev.silReg (dev.physOf k) 0).toNat 44 = false := by decide +kernel

/-- A pod of ranks 0 and 1 on axis 0 whose rank 0 is this module. -/
def pod : State :=
  ((dev.setReg (fbRankmap 0) 0x1000).setReg (fbRankmap 1) 0x1001).setFld fbProfile 8 12 2

theorem wit_PoliciesAndResetsWritten_routes :
    pod.admits true true fbProfile = .ok ∧ pod.ownRank = 0 ∧ pod.rankValid 1 = true ∧ pod.profilePort 0 1 = some 0 := by
  decide +kernel

theorem wit_PoliciesAndResetsWritten_jobs :
    let s := dev.setFld (fbJobpol 63) 45 1 1
    let go : BitVec 64 := 1
    s.admits false true (fbJobpol 63) = .ok ∧ bitOf (0x13 : BitVec 64).toNat 4 = true ∧ s.fld (fbJobpol 63) 45 1 = 1 ∧
    dev.admits false true 0x8100900008 = .ok ∧ dev.admits false true 0x8100900018 = .ok ∧ bitOf go.toNat 0 = true ∧
    dev.flrRuns = false ∧ dev.roleUp 0 = true ∧ (dev.setFld fwStatus 5 1 1).flrRuns = true := by decide +kernel

/-- Parked flows' markers: none is held after reset. -/
theorem wit_PoliciesAndResetsWritten_markers : ∀ f, ((dev.setFld (fbJobpol 63) 45 1 1).flow f).heldMarkers = [] :=
  fun _ => rfl

/-- A reset of the last core, of a core in a span, and one that waits for a shifting row. -/
theorem wit_PoliciesAndResetsWritten_cores :
    let v : BitVec 64 := BitVec.ofNat 64 (1023 + 2 ^ 10)
    let shift := { dev with fences := [{ row := 31, shifting := true, fenced := [], narrow := false }] }
    dev.admits true true fwCorerst = .ok ∧ bitOf v.toNat 10 = true ∧ bitsOf v.toNat 0 10 = 1023 ∧ dev.hasCore 1023 = true ∧
    dev.resetWaits 1023 = false ∧ shift.admits true true fwCorerst = .ok ∧ shift.resetWaits 1023 = true ∧
    ((inSpan Core.reset).resetWaits 0 = false ∧ (inSpan Core.reset).spanOf 0 = some (span0 1 1)) := by decide +kernel

/-- FB_PROFILE with the pilot down, and a reset of a secure core while a function-level reset runs. -/
theorem wit_PoliciesAndResetsWritten_waits :
    let down := dev.setFld 0x8100900108 3 2 1
    let v : BitVec 64 := BitVec.ofNat 64 (1023 + 2 ^ 10)
    let flr := (dev.setReg (swWcore 15) (BitVec.ofNat 64 (2 ^ 63))).setFld fwStatus 5 1 1
    (down.admits true true fbProfile = .ok ∧ down.roleUp 1 = false) ∧ (pod.roleUp 1 = true ∧ pod.ownRank ≠ 0x1000) ∧
    dev.admits true true (fbRankmap 4095) = .ok ∧
    (flr.admits true true fwCorerst = .ok ∧ flr.hasCore (bitsOf v.toNat 0 10) = true ∧ flr.flrRuns = true ∧
      flr.coreSecure (bitsOf v.toNat 0 10) = true ∧ flr.resetWaits (bitsOf v.toNat 0 10) = false) ∧
    dev.coreSecure (bitsOf v.toNat 0 10) = false ∧ dev.admits false true fwCorerst = .ok := by decide +kernel

theorem wit_FirmwareRequestsAct_update :
    let go : BitVec 64 := BitVec.ofNat 64 (2 ^ 26)
    let at' := fun n => dev.setFld fwUpdstat 0 3 n
    let bytes := { at' 1 with firm := { dev.firm with updating := [1] } }
    (dev.admits false true fwUpdlen = .ok ∧ bitOf go.toNat 26 = true ∧ dev.fld fwUpdstat 0 3 = 0 ∧ dev.keeperUp = true) ∧
    (bytes.keeperUp = true ∧ bytes.fld fwUpdstat 0 3 = 1 ∧ bytes.firm.updating ≠ []) ∧
    ((at' 2).keeperUp = true ∧ (at' 2).fld fwUpdstat 0 3 = 2 ∧ (at' 2).firm.flash = []) := by decide +kernel

/-- Keeper requests: without a lease, and for FB_CFG with it; done for FB_CFG and for the last world register of cores. -/
theorem wit_FirmwareRequestsAct_keeper :
    let ask := { dev.setReg fwKaddr (BitVec.ofNat 64 fbCfg) with lease := .held 1 }
    let work := fun a : Nat => { dev with firm := { dev.firm with
      keeper := some { addr := a, value := 0, admitted := true, waitRank := none, resets := [] } } }
    (dev.admits false true fwKctl = .ok ∧ dev.fld fwKctl 1 2 ≠ 1 ∧ dev.keeperUp = true ∧
      dev.keeperRefusal (dev.fld fwKaddr 0 40) (dev.reg fwKdata) ≠ 0) ∧
    (ask.admits false true fwKctl = .ok ∧ ask.keeperRefusal (ask.fld fwKaddr 0 40) (ask.reg fwKdata) = 0) ∧
    (∀ a ∈ [fbCfg, swWcore 15], (work a).keeperUp = true ∧
      (work a).firm.keeper = some { addr := a, value := 0, admitted := true, waitRank := none, resets := [] }) := by decide +kernel

/-- Recovery: a write that begins, a write of 256 bytes that ends, and a finish with a header held back. -/
theorem wit_FirmwareRequestsAct_recovery :
    let r := fun st => ({ dev with firm := { dev.firm with recovery := true, recov := some [1] } }.setFld flRecovstat 0 2 st)
    let done := ((r 2).setFld flRecovctl 0 26 65536).setFld flRecovctl 26 17 256
    let v := fun b => (BitVec.ofNat 64 (2 ^ b) : BitVec 64)
    ((r 1).admits false true flRecovctl = .ok ∧ bitOf (v 43).toNat 43 = true ∧ (r 1).fld flRecovstat 0 2 = 1) ∧
    (done.fld flRecovstat 0 2 = 2 ∧ done.firm.flash = [] ∧ 4096 ≤ done.fld flRecovctl 0 26 ∧ (r 2).fld flRecovctl 0 26 = 0) ∧
    (bitOf (v 44).toNat 43 = false ∧ bitOf (v 44).toNat 44 = true ∧ (r 1).firm.recov = some [1]) := by decide +kernel

/-! ## Faults, power, firmware processors, resets and start-up -/

def rowFence (shifting narrow : Bool) : RowFence := { row := 31, shifting := shifting, fenced := [1147], narrow := narrow }

/-- A fence of row 31 in a row without jobs and in one whose job is held; its end, with and without a narrower array. -/
theorem wit_FaultsAreHandled_fences :
    let with' := fun (s : State) f => { s with fences := [f] }
    let held := (inSpan Core.reset).modJob 1 fun x => { x with holds := [.fence] }
    let z : RowFence := { row := 0, shifting := false, fenced := [0], narrow := false }
    (∀ n, let s := with' dev (rowFence false n)
      s.fences.find? (fun g => g.row == 31 && !g.shifting) = some (rowFence false n) ∧ s.roleUp 2 = true ∧
      (∀ g ∈ s.fences, g.shifting = false) ∧ s.fenceJobs 31 (s.fenceNarrows 31 (s.fenceTakes (rowFence false n))) = []) ∧
    (let s := with' held z
     s.fences.find? (fun g => g.row == 0 && !g.shifting) = some z ∧ s.roleUp 2 = true ∧
      s.fenceJobs 0 (s.fenceNarrows 0 (s.fenceTakes z)) = [1] ∧ s.fenceHeld 1 = true) ∧
    ∀ n, let s := with' dev (rowFence true n)
      s.fences.find? (fun g => g.row == 31 && g.shifting) = some (rowFence true n) ∧ s.roleUp 2 = true := by decide +kernel

/-- Row 31 is fenced while row 30 shifts. -/
theorem wit_FaultsAreHandled_beside :
    let other : RowFence := { row := 30, shifting := true, fenced := [1110], narrow := true }
    let s := { dev with fences := [other, rowFence false false] }
    s.fences.find? (fun g => g.row == 31 && !g.shifting) = some (rowFence false false) ∧ s.roleUp 2 = true ∧
    (∀ g ∈ s.fences, g.row = 31 → g.shifting = false) ∧
    s.fenceJobs 31 (s.fenceNarrows 31 (s.fenceTakes (rowFence false false))) = [] := by decide +kernel

/-- The last physical core's mesh link, the decay, copies of the last stack, and errors that the scrub finds. -/
theorem wit_FaultsAreHandled_memory :
    let mesh := dev.setSil 1151 0 (BitVec.ofNat 64 (1023 * 2 ^ 16))
    let copy := fun (c : McCopy) => dev.setMc 7 { dev.mc 7 with copies := [c] }
    let e := fun u => ({ addr := 0x700, uncorrectable := u } : MemErr)
    ((∀ k, k < 4 → bitsOf (mesh.silReg 1151 3).toNat (8 * k) 8 < 15) ∧ mesh.fencedPhys 1151 = false ∧
      mesh.fld 0x8100B00008 16 16 ≤ satAdd 16 (bitsOf (mesh.silReg 1151 0).toNat 16 16) 1) ∧
    (mesh.roleUp 2 = true ∧ (mesh.silicon.map Prod.fst).Nodup) ∧
    (((copy (.page 31 9)).mc 7).copies = [.page 31 9] ∧ ((copy (.pch 31)).mc 7).copies = [.pch 31]) ∧
    ∀ u, (e u).check = .hbm ∧ lineStack (e u).addr = 7 ∧ (e u).addr < dev.capacity ∧ 1 < dev.poolFree 7 ∧
      (dev.mc 7).retired = [] ∧ 0 < dev.fld (mcReg 7 0x18) 8 12 ∧ mhas dev.lake ((e u).addr / 256) = false ∧
      mhas (mput dev.lake 7 { prefetched := false, dirty := true }) ((e u).addr / 256) = true := by decide +kernel

/-- Errors of the last pond byte and the first and last instruction word of core 1023, in a launch of job 1. -/
theorem wit_FaultsAreHandled_core :
    let parity : MemErr := { addr := cw 1023 196607, uncorrectable := true, check := .parity }
    let e := fun (o : Nat) (u : Bool) => ({ addr := cw 1023 o, uncorrectable := u, check := .coreEcc } : MemErr)
    let s := dev.modCore 1023 fun k => { k with launch := some { span := 0, hq := 0, job := 1, lx := 0, ly := 0 } }
    s.hasCore 1023 = true ∧ foundBy 1023 false parity = true ∧ (∀ o ∈ [196607, 0x40000, 0x4FFFC], o < 0x50000 ∧ ∀ u, foundBy 1023 false (e o u) = true) ∧
      s.fencedPhys (s.physOf 1023) = false ∧ s.coreJob 1023 ≠ 0 ∧ (s.job (s.coreJob 1023)).killLatch = none := by decide +kernel

/-- A ramping span, the self-test of stage 3, sensors below, at and above the throttle and none valid, and input power at the edges of the cap. -/
theorem wit_PowerIsManagedAndTold :
    let a := span0 1 1
    let s := { dev with active := [a], governor := [(a.corner, 2)] }
    let cap := dev.setFld 0x8100100020 16 1 1
    let w := cap.fld 0x8100100020 0 16
    let bist := { State.reset with power := { Power.reset with rails := true } }.setFld fwStatus 0 3 3
    (s.active = [a] ∧ s.testing = false ∧ a.running = true ∧ s.govN a < 16) ∧ (dev.active = [] ∧ dev.testing = false) ∧
    (bist.testing = true ∧ ∀ p, p < 1152 → 2 ≤ bist.bistN p ∧ bist.bistN p ≤ 16) ∧ dev.power.rails = true ∧ State.reset.power.rails = false ∧
    ((dev.sense (List.replicate 16 151)).power.temps.any Prod.snd = false) ∧
    (∀ t ∈ [0, 150], (dev.sense (List.replicate 16 t)).power.temps.any Prod.snd = true ∧
      (dev.fld pmThermCfg 0 8 ≤ (dev.sense (List.replicate 16 t)).tmax ↔ t = 150)) ∧
    (let t := dev.fld pmThermCfg 0 8 - 1
     (dev.sense (List.replicate 16 t)).tmax = t ∧ t - dev.fld pmThermCfg 8 4 < t) ∧
    (dev.fld 0x8100100020 16 1 = 0 ∨ cap.fld 0x8100100020 16 1 = 1) ∧ cap.fld 0x8100100020 16 1 = 1 ∧
    (w < w + 1 ∧ w + 1 < 65536 ∧ 0 * 100 < w * 95 ∧ w ≤ w) := by decide +kernel

/-- The standby rail runs; the alert is asserted, and it is not. -/
theorem wit_PowerIsManagedAndTold_smbus :
    State.reset.power.vin = .ok ∧ { State.reset.power with vin := .low }.vin = Vin.low ∧
    (∀ n ∈ [3900, 4000], ∀ v ∈ [Vin.ok, .low], let p := { dev.power with vinMv := BitVec.ofNat 16 n, vin := v }
      (p.vin = .ok ∨ p.vin = .low) ∧ 3900 ≤ p.vinMv.toNat) ∧
    (∀ v ∈ [Vin.ok, .low], let p := { dev.power with vinMv := 3899, vin := v }
      (p.vin = .ok ∨ p.vin = .low) ∧ p.vinMv.toNat < 3900) ∧ dev.fld pmStatus 12 1 = 0 ∧
    (dev.setFld pmStatus 12 1 1).fld pmStatus 12 1 = 1 := by decide +kernel

theorem wit_InputsReset :
    let p := dev.power
    let q := State.reset.power
    p.rstIgnored = false ∧ q.rstIgnored = false ∧ { p with rstIgnored := true }.rstIgnored = true ∧
    (p.tripped = false ∧ p.rstN = true ∧ p.vin = .ok ∧ p.lock = true ∧ p.rails = true) ∧ (q.tripped = false ∧ q.rstN = false) ∧
    { p with tripped := true }.tripped = true ∧ { p with vin := .low }.vin = Vin.low ∧ { p with lock := false }.lock = false := by
  decide +kernel

/-- Crashes of the pilot's and of keeper's processor, in service and during start-up; restarts; keeper in ROM. -/
theorem wit_ProcessorsRestart :
    let up := State.reset.setFld fwStatus 0 3 6
    let early := { up with power := { Power.reset with rails := true } }
    let down := fun p => dev.setFld (fwProc p) 3 2 1
    let rom := { (down 0) with firm := { dev.firm with inRom := true } }
    (dev.power.rails = true ∧ dev.procState 1 = 0 ∧ dev.procRole 1 = 1) ∧
    (dev.procState 0 = 0 ∧ dev.procRole 0 = 0 ∧ dev.complete? = true) ∧
    (early.power.rails = true ∧ early.procState 0 = 0 ∧ early.procRole 0 = 0 ∧ early.complete? = false) ∧
    (∀ p ∈ [1, 2, 3, 4], (down p).procState p = 1 ∧ (down p).procRole p ≠ 0 ∧ (down p).keeperUp = true ∧ (down p).complete? = true ∧
      (down p).fld (fwProc p) 5 16 = 0 ∧ (down p).crashedAgain p = false ∧ (down p).procRole 5 = 5 ∧ (down p).procState 5 = 0) ∧
    ((List.range 6).find? (fun p => rom.procRole p = 0 && rom.procState p = 1) = some 0 ∧ rom.firm.recovery = false) := by
  decide +kernel

/-- A role whose copy has the digest of its component, one whose copy has not, and a crash 30 seconds and a cycle more after a restart. -/
theorem wit_ProcessorsRestart_again :
    let crash := fun t => { dev with firm := { dev.firm with restartTick := [(1, 5)], crashTick := [(1, t)] } }
    let lost := { dev with firm := { dev.firm with copies := [], loaded := [0, 0] } }
    let w := dev.fld 0x8100900010 8 8 * 10 ^ 9
    (crash (5 + w)).crashedAgain 1 = true ∧ (crash (6 + w)).crashedAgain 1 = false ∧ lost.copyGood 1 = false := by decide +kernel

theorem wit_ProcessorsRestart_copy :
    let s := { dev with firm := { dev.firm with copies := List.replicate 6 [], loaded := List.replicate 6 (Config.sha384 []) } }
    ∀ r ∈ [1, 2, 3, 4, 5], s.copyGood r = true := by simp [State.copyGood]

/-- Every stage in progress, with what its rows ask of it. -/
theorem wit_StartupStages :
    let on := { State.reset with power := { Power.reset with rails := true } }
    let at' := fun k => on.setFld fwStatus 0 3 k
    let two := fun (wave poweredStacks banks : Nat) => { at' 2 with firm := { Firm.reset with wave := wave, poweredStacks := poweredStacks, banks := banks } }
    (∀ k, k < 8 → (at' k).inStage k = true) ∧ (at' 0).heldInRom = false ∧
    (∀ k ∈ [0, 15], (two k 0 0).inStage 2 = true ∧ (two k 0 0).firm.wave = k) ∧
    (∀ k ∈ [0, 7], (two 16 k 0).inStage 2 = true ∧ (two 16 k 0).firm.wave = 16 ∧ (two 16 k 0).firm.poweredStacks = k) ∧
    (two 16 8 0).bankOrder[(0 : Nat)]? = some 8 ∧ (two 16 8 8).bankOrder[(8 : Nat)]? = some 7 ∧ (two 16 8 8).inStage 2 = true ∧
    (two 16 8 8).firm.poweredStacks = 8 ∧ 7 ∉ (at' 5).firm.tested := by decide +kernel

/-- Settings of stage 0 with their CRC, of this module and of another; what their CRC is, and a body without one. -/
def settings (serial : Reg) : Saved :=
  let a : Saved := { hbm := [1], heaters := [2], bias := [3], taps := [4], crc := none, temp := 40, serial := serial }
  { a with crc := some (crc32 a.bytes) }

theorem wit_StartupStages_saved :
    let with' := fun (a : Option Saved) => { State.reset with firm := { State.reset.firm with saved := a } }
    let own := settings State.reset.fuses.serial
    let cut := { own with crc := none }
    (own.crc = some (crc32 own.bytes) ∧ own.serial = (with' (some own)).fuses.serial ∧
      own.temp - 15 ≤ (55 : Nat) ∧ ((55 : Nat) : Int) ≤ own.temp + 15 ∧ ¬((56 : Nat) : Int) ≤ own.temp + 15) ∧
    ((settings 7).crc = some (crc32 (settings 7).bytes) ∧ (settings 7).serial ≠ State.reset.fuses.serial) ∧
    cut.crc ≠ some (crc32 cut.bytes) ∧ (with' none).firm.saved = none := by decide +kernel

/-- The end of start-up: cold with every port at full width, cold with a port that is not, fast; an image newer than the fuses say. -/
theorem wit_StartupStages_end :
    let seven := { State.reset with power := { Power.reset with rails := true } }.setFld fwStatus 0 3 7
    let full := (List.range 9).foldl (fun (s : State) p => (((s.setFld (fbPstate p) 0 4 6).setFld (fbPstate p) 4 5 (fullLanes p)).setFld
      (fbPstate p) 9 5 (fullLanes p))) seven
    let fast := full.setFld fwStatus 3 1 1
    (full.inStage 7 = true ∧ full.fastStart = false ∧ full.allPortsFull = true) ∧
    (seven.inStage 7 = true ∧ seven.allPortsFull = false) ∧ (fast.inStage 7 = true ∧ fast.fastStart = true) ∧
    ((full.setFld fwStatus 16 7 64).inStage 7 = true ∧
      (full.setFld fwStatus 16 7 64).fuses.rollback < (full.setFld fwStatus 16 7 64).fld fwStatus 16 7) := by decide +kernel

/-- Keeper's writes, each at the front, with what its row asks of it. -/
theorem wit_StartupStages_writes :
    let on := fun (w : KeeperWrite) => { dev with firm := { dev.firm with writes := [w] } }
    let own := settings dev.fuses.serial
    let half : State := { on (.infieldValid 9) with fuses := { dev.fuses with infield := [(9, false)] } }
    let body : State := { on .historyCrc with firm := { dev.firm with writes := [.historyCrc], history := [{ ids := [3], crc := none }] } }
    let saved : State := { on .savedCrc with firm := { dev.firm with writes := [.savedCrc], saved := some { own with crc := none } } }
    (∀ w ∈ [KeeperWrite.infieldId 1151, .historyBody [], .savedBody own, .rollback 64], (on w).firm.writes = [w]) ∧
    (half.firm.writes = [.infieldValid 9] ∧ (9, false) ∈ half.fuses.infield) ∧
    (body.firm.writes = [.historyCrc] ∧ body.firm.history = [{ ids := [3], crc := none }]) ∧
    (saved.firm.writes = [.savedCrc] ∧ saved.firm.saved = some { own with crc := none } ∧
      ({ own with crc := none } : Saved).serial = saved.fuses.serial) ∧ dev.fuses.rollback < 64 := by decide +kernel

/-- Self-tests that all pass, that one processor fails, and that two fail; the ports have made their first attempt. -/
theorem wit_StartupStages_more :
    let bad := fun (f : List Bool) => (List.range 6).filter fun p => f.getD p false || State.reset.fuses.fpbad.contains p
    let tuned := (List.range 9).foldl (fun (s : State) p => s.modPort p fun x => { x with firstAttemptDone := true })
      ({ State.reset with power := { Power.reset with rails := true } }.setFld fwStatus 0 3 6)
    (bad [] = [] ∧ bad [false, false, false, false, true] = [4] ∧ 2 ≤ (bad [true, true]).length) ∧
    (tuned.inStage 6 = true ∧ ∀ p, p < 9 → tuned.portEnabled p = true ∧ (tuned.port p).firstAttemptDone = true) := by decide +kernel

/-! ## Numbers -/

/-- The largest and the smallest normal FP32 value, and halfway between two BF16 values. -/
theorem wit_FormatsRound :
    let tie : Q := ⟨257, 256⟩
    (∀ b ∈ [0x7F7FFFFF, 0x00800000], b < 2 ^ fmtBits 9 ∧ ∃ q, decodeFloat 9 b = .fin q) ∧
    (tie.den ≠ 0 ∧ tie.abs.le (fmtMax 7) = true ∧ (Q.dyadic 1 (1 - fmtBias 7)).le tie.abs = true) := by
  refine ⟨fun b hb => ?_, by decide +kernel⟩
  simp only [List.mem_cons, List.not_mem_nil, or_false] at hb
  rcases hb with rfl | rfl <;> exact ⟨by decide, _, rfl⟩

/-- A NaN and a number in both orders; the largest contributions. -/
theorem wit_TotalsIgnoreOrder :
    [Val.nan, .fin (Q.ofInt 1)].Perm [.fin (Q.ofInt 1), Val.nan] ∧
    (∀ t ∈ [(2 ^ 127 - 1 : Int), -(2 ^ 127 - 1)], t.natAbs ≤ 2 ^ 127 - 1) ∧ [(2 ^ 127 - 1 : Int), -(2 ^ 127 - 1)].length ≤ 2 ^ 32 :=
  ⟨.swap _ _ _, by decide, by decide⟩

/-! ## Values of the spec's examples -/

/-- Table: The total −13.328125 written in each format (03_number_formats), −853 × 2^−6. -/
theorem test_formats :
    let v := Val.fin (Q.dyadic (-853) (-6))
    let w := fun f => (convert f false v none false).bits
    (w 9, w 8, w 7, w 0, w 1) = (0xC1554000, 0xCAAA, 0xC155, 0xD5, 0xCB) := by decide +kernel

/-- The same total as a well word with anchor 3 (03_number_formats). -/
theorem test_well_word : wellValue (-853 * 2 ^ 117) 3 = Q.dyadic (-853 * 2 ^ 117) (-123) ∧
    (BitVec.ofInt 128 (-853 * 2 ^ 117)) = 0x95600000000000000000000000000000#128 := by decide +kernel

/-- Cell (5, 7) receives K-block 93 (04_matrix_array): 32 products 16 × 20 scaled by 2^−124 round to 2 units of the grid 2^−112. -/
theorem test_short_run : Q.grid (Q.dyadic (32 * 320) (-124)) (14 - 126) none = 2 := by decide +kernel

/-- A saturated element of an operation with anchor 0 is written as BF16 0x4000 (04_matrix_array). -/
theorem test_saturated_drain : (convert 7 false (.fin (wellValue (2 ^ 127 - 1) 0)) none false).bits = 0x4000 := by decide +kernel

/-- P adds Q's well tile of anchor 14; of anchor 13 it rounds to the even value (04_matrix_array). -/
theorem test_wload_regrid : (regrid (-1234565) 14 14).1 = -1234565 ∧ (regrid (-2469131) 13 14).1 = -1234566 ∧
    toFp32 (.fin (wellValue 2 14)) = 0x08000000 ∧ toFp32 (.fin (wellValue 1 14)) = 0x07800000 := by decide +kernel

/-- Decoding device address 0x00_2000_1A40 (09_memory). -/
theorem test_address : lineIndex 0x20001A40 = 0x20001A ∧ lineStack 0x20001A40 = 2 ∧ linePch 0x20001A40 = 3 ∧
    lineOffset 0x20001A40 = 0x200040 ∧ lineSlice 0x20001A40 = 5 ∧ 0x20001A40 / 0x200000 = 256 := by decide +kernel

/-- A ZMT-896-192 has logical width 28; its core (27, 3) is 123, core 124 does not exist, core (0, 4) is 128 (00_scope). -/
theorem test_core_ids :
    let s := { State.reset with width := 28 }
    s.hasCore 123 = true ∧ s.hasCore 124 = false ∧ s.hasCore 127 = false ∧ s.hasCore 128 = true := by decide +kernel

/-- ADDI extends the sign of its immediate (07_control_core R211); a write to g0 is discarded (R200). -/
theorem test_immediates :
    let go := fun (w : Word) (i : Instr) => match exec i (dev.setCore 0 { running w with g := (Core.reset.g).set 1 5 }) with
      | .next t => ((t.core 0).rg 2, (t.core 0).rg 0, (t.core 0).pc)
      | _ => (0, 0, 0)
    go (0x02#6 ++ 2#5 ++ 1#5 ++ 0xFFFA#16) (.addi 0 2 1 0xFFFA) = (BitVec.ofInt 64 (-1), 0, 1) ∧
    go (0x02#6 ++ 0#5 ++ 1#5 ++ 1#16) (.addi 0 0 1 1) = (0, 0, 1) := by decide +kernel

end Sys2Proof.Tests
end

section
/-! The register, predicate and branch instructions of the control core (07_control_core R209 to R214, R219, R220 and R223):
first the rules by which an instruction that only writes a register or a predicate answers, then the facts about the operations
that the instructions call, then the statements themselves. -/

namespace Sys2Proof.Machine

open Sys2Proof

/-! ## Instructions that write one register or one predicate -/

/-- An instruction that issues a write of g[rd] has that register result, where its word is the one that it names. -/
theorem registerResult_of_setG {i : Instr} {s : State} {c : Nat} {w : Word} {rd : BitVec 5} {named : Word → Bool}
    {val : Core → Reg} (hi : exec i s = .next (s.issueCore c named fun k => k.setG rd (val k))) (hw : named w = true) :
    RegisterResult i s c w rd (val (s.core c)) := fun h =>
  ⟨_, hi.trans (congrArg _ (State.issueCore_ready h hw)), writesRegister s c rd _⟩

/-- As `registerResult_of_setG`, for a predicate. -/
theorem predicateResult_of_setP {i : Instr} {s : State} {c : Nat} {w : Word} {p : BitVec 3} {named : Word → Bool}
    {val : Core → Bool} (hi : exec i s = .next (s.issueCore c named fun k => k.setP p (val k))) (hw : named w = true) :
    PredicateResult i s c w p (val (s.core c)) := fun h =>
  ⟨_, hi.trans (congrArg _ (State.issueCore_ready h hw)), writesPredicate s c p _⟩

/-! ## ALU functions (R209, R210) -/

/-- The upper half of a signed product fits its register. -/
theorem toInt_mulHighS (a b : Reg) : (mulHighS a b).toInt = a.toInt * b.toInt / 2 ^ 64 := by
  have hlow := BitVec.le_toInt_mul_toInt (x := a) (y := b)
  have hhigh := BitVec.toInt_mul_toInt_le (x := a) (y := b)
  exact BitVec.toInt_ofInt_eq_self (by decide) (by omega) (by omega)

/-- The upper half of an unsigned product fits its register. -/
theorem toNat_mulHighU (a b : Reg) : (mulHighU a b).toNat = a.toNat * b.toNat / 2 ^ 64 := by
  have h : a.toNat * b.toNat < 2 ^ 64 * 2 ^ 64 := Nat.mul_lt_mul'' a.isLt b.isLt
  exact Nat.mod_eq_of_lt (Nat.div_lt_of_lt_mul h)

theorem toInt_aluOp_minS (a b : Reg) : (aluOp 12 a b).toInt = min a.toInt b.toInt := by
  change (if a.slt b then a else b).toInt = _
  simp only [BitVec.slt_iff_toInt_lt]
  split <;> omega

theorem toInt_aluOp_maxS (a b : Reg) : (aluOp 13 a b).toInt = max a.toInt b.toInt := by
  change (if a.slt b then b else a).toInt = _
  simp only [BitVec.slt_iff_toInt_lt]
  split <;> omega

theorem toNat_aluOp_minU (a b : Reg) : (aluOp 14 a b).toNat = min a.toNat b.toNat := by
  change (if a < b then a else b).toNat = _
  simp only [BitVec.lt_def]
  split <;> omega

/-- Every func from 15 on is the unsigned maximum. -/
theorem toNat_aluOp_maxU {n : Nat} (hn : 15 ≤ n) (a b : Reg) : (aluOp n a b).toNat = max a.toNat b.toNat := by
  obtain ⟨n, rfl⟩ := Nat.exists_eq_add_of_le' hn
  change (if a < b then b else a).toNat = _
  simp only [BitVec.lt_def]
  split <;> omega

/-- Settles O10: ALU issues one register write, whose value is `aluOp`; the value is read off function by function. -/
theorem aluComputes : Obligations.AluComputes := by
  unfold Obligations.AluComputes
  intro s c rd ra rb func a b
  refine ⟨aluOp func.toNat a b,
    registerResult_of_setG (val := fun k => aluOp func.toNat (k.rg ra) (k.rg rb)) rfl (isA_word 0x01#6 rd ra rb func),
    ?add, ?sub, ?and, ?or, ?xor, ?andn, ?shl, ?shr, ?sar, ?mul, ?mulhs, ?mulhu, ?mins, ?maxs, ?minu,
    fun h => toNat_aluOp_maxU h a b⟩
  case mulhs => rintro rfl; exact toInt_mulHighS a b
  case mulhu => rintro rfl; exact toNat_mulHighU a b
  case mins => rintro rfl; exact toInt_aluOp_minS a b
  case maxs => rintro rfl; exact toInt_aluOp_maxS a b
  case minu => rintro rfl; exact toNat_aluOp_minU a b
  all_goals rintro rfl; rfl

/-! ## Immediates (R211) -/

/-- The shift amount of a shift by an immediate. -/
theorem shamt_zext (imm : BitVec 16) : shamt (zext imm) = min imm.toNat 63 := by
  have h : (zext imm).toNat = imm.toNat := BitVec.toNat_setWidth_of_le (by decide)
  rw [shamt, h]

/-- A SHORI moves every bit up by 16 and puts its immediate below. -/
theorem getLsbD_shori (g : Reg) (h : BitVec 16) {i : Nat} (hi : i < 64) :
    ((g <<< 16) ||| h.setWidth 64).getLsbD i = if i < 16 then h.getLsbD i else g.getLsbD (i - 16) := by
  by_cases h16 : i < 16
  · simp [h16, hi]
  · rw [if_neg h16]
    simp only [BitVec.getLsbD_or, BitVec.getLsbD_shiftLeft, BitVec.getLsbD_setWidth, BitVec.getLsbD_of_ge h i (by omega)]
    simp [h16, hi]

/-- Four SHORI leave the four halfwords that they bring, whatever the register held. -/
theorem four_shori (g v : Reg) :
    ((((((((g <<< 16) ||| ((v >>> 48).setWidth 16).setWidth 64) <<< 16) ||| ((v >>> 32).setWidth 16).setWidth 64)
      <<< 16) ||| ((v >>> 16).setWidth 16).setWidth 64) <<< 16) ||| (v.setWidth 16).setWidth 64) = v := by
  refine BitVec.eq_of_getLsbD_eq fun i hi => ?_
  rw [getLsbD_shori _ _ hi, getLsbD_shori _ _ (by omega), getLsbD_shori _ _ (by omega), getLsbD_shori _ _ (by omega)]
  simp only [BitVec.getLsbD_setWidth, BitVec.getLsbD_ushiftRight]
  by_cases h0 : i < 16
  · rw [if_pos h0, decide_eq_true h0, Bool.true_and]
  by_cases h1 : i - 16 < 16
  · rw [if_neg h0, if_pos h1, decide_eq_true h1, Bool.true_and, show 16 + (i - 16) = i by omega]
  by_cases h2 : i - 16 - 16 < 16
  · rw [if_neg h0, if_neg h1, if_pos h2, decide_eq_true h2, Bool.true_and, show 32 + (i - 16 - 16) = i by omega]
  have h3 : i - 16 - 16 - 16 < 16 := by omega
  rw [if_neg h0, if_neg h1, if_neg h2, if_pos h3, decide_eq_true h3, Bool.true_and,
    show 48 + (i - 16 - 16 - 16) = i by omega]

/-- The three shifts by an immediate are ALU func 6 to 8 of it. -/
theorem aluOp_shift_zext (a : Reg) (imm : BitVec 16) :
    aluOp 6 a (zext imm) = a <<< min imm.toNat 63 ∧ aluOp 7 a (zext imm) = a >>> min imm.toNat 63 ∧
      aluOp 8 a (zext imm) = a.sshiftRight (min imm.toNat 63) := by
  rw [← shamt_zext]
  exact ⟨rfl, rfl, rfl⟩

/-- LUI names no source register: the word's other fields decide. -/
theorem isLui_word (rd ra : BitVec 5) (imm : BitVec 16) :
    let w : Word := 0x0A#6 ++ rd ++ ra ++ imm
    (iwOp w = 0x0A && iwRd w = rd.toNat && iwImm w = imm.toNat) = true := by
  intro w
  simp [w]

/-- Settles O11: each form issues one register write; the shifts are ALU func 6 to 8 of the immediate. -/
theorem immediatesCompute : Obligations.ImmediatesCompute := by
  unfold Obligations.ImmediatesCompute
  refine ⟨?_, four_shori⟩
  intro s c rd ra imm a
  obtain ⟨hshl, hshr, hsar⟩ := aluOp_shift_zext a imm
  rw [← hshl, ← hshr, ← hsar]
  refine ⟨?addi, ?andi, ?ori, ?xori, ?shli, ?shri, ?sari, ?muli, ?lui, ?shori⟩
  case addi => exact registerResult_of_setG (val := fun k => k.rg ra + sext imm) rfl (isI_word 0x02#6 rd ra imm)
  case andi => exact registerResult_of_setG (val := fun k => k.rg ra &&& zext imm) rfl (isI_word 0x03#6 rd ra imm)
  case ori => exact registerResult_of_setG (val := fun k => k.rg ra ||| zext imm) rfl (isI_word 0x04#6 rd ra imm)
  case xori => exact registerResult_of_setG (val := fun k => k.rg ra ^^^ zext imm) rfl (isI_word 0x05#6 rd ra imm)
  case shli => exact registerResult_of_setG (val := fun k => aluOp 6 (k.rg ra) (zext imm)) rfl (isI_word 0x06#6 rd ra imm)
  case shri => exact registerResult_of_setG (val := fun k => aluOp 7 (k.rg ra) (zext imm)) rfl (isI_word 0x07#6 rd ra imm)
  case sari => exact registerResult_of_setG (val := fun k => aluOp 8 (k.rg ra) (zext imm)) rfl (isI_word 0x08#6 rd ra imm)
  case muli => exact registerResult_of_setG (val := fun k => k.rg ra * sext imm) rfl (isI_word 0x09#6 rd ra imm)
  case lui => exact registerResult_of_setG (val := fun _ => sext imm <<< 16) rfl (isLui_word rd ra imm)
  case shori =>
    exact registerResult_of_setG (val := fun k => (k.rg ra <<< 16) ||| zext imm) rfl (isI_word 0x0B#6 rd ra imm)

/-! ## Predicates (R212 to R214) -/

theorem cmpOp_ge_signed (a b : Reg) : cmpOp 3 a b = decide (b.toInt ≤ a.toInt) := by
  change (!decide (a.toInt < b.toInt)) = _
  rw [← decide_not]
  exact decide_eq_decide.mpr Int.not_lt

/-- Every func from 5 on is the unsigned ≥. -/
theorem cmpOp_ge_unsigned {n : Nat} (hn : 5 ≤ n) (a b : Reg) : cmpOp n a b = decide (b.toNat ≤ a.toNat) := by
  obtain ⟨n, rfl⟩ := Nat.exists_eq_add_of_le' hn
  change (!decide (a.toNat < b.toNat)) = _
  rw [← decide_not]
  exact decide_eq_decide.mpr Nat.not_lt

/-- COMB of R212: how CMP combines its comparison with the old predicate. -/
def combine (comb : Nat) (old t : Bool) : Bool := if comb = 0 then t else if comb = 1 then old && t else old || t

theorem combine_or {comb : Nat} (h : 2 ≤ comb) (old t : Bool) : combine comb old t = (old || t) := by
  rw [combine, if_neg (by omega), if_neg (by omega)]

theorem cmp_predicateResult (s : State) (c : Nat) (rd ra rb : BitVec 5) (func : BitVec 11) :
    PredicateResult (.cmp c rd ra rb func) s c (0x0C#6 ++ rd ++ ra ++ rb ++ func) (rd.setWidth 3)
      (combine (rd.toNat / 8) ((s.core c).pr (rd.setWidth 3))
        (cmpOp (func.toNat % 8) ((s.core c).rg ra) ((s.core c).rg rb))) :=
  predicateResult_of_setP (val := fun k => combine (rd.toNat / 8) (k.pr (rd.setWidth 3))
    (cmpOp (func.toNat % 8) (k.rg ra) (k.rg rb))) rfl (isA_word 0x0C#6 rd ra rb func)

/-- The fields of a CMPI word: the predicate and the condition share the place of rd (R213). -/
theorem isCmpi_word (pd : BitVec 3) (cond : BitVec 2) (ra : BitVec 5) (imm : BitVec 16) :
    let w : Word := 0x0D#6 ++ pd ++ cond ++ ra ++ imm
    (iwOp w = 0x0D && iwRd w = pd.toNat * 4 + cond.toNat && iwRa w = ra.toNat && iwImm w = imm.toNat) = true := by
  intro w
  have hop : iwOp w = 0x0D := cmpi_o 0x0D#6 pd cond ra imm
  have hra : iwRa w = ra.toNat := cmpi_ra 0x0D#6 pd cond ra imm
  have himm : iwImm w = imm.toNat := cmpi_i 0x0D#6 pd cond ra imm
  have hpd : bitsOf w.toNat 23 3 = pd.toNat := cmpi_pd 0x0D#6 pd cond ra imm
  have hcond : bitsOf w.toNat 21 2 = cond.toNat := cmpi_cond 0x0D#6 pd cond ra imm
  have hrd : iwRd w = pd.toNat * 4 + cond.toNat := by
    unfold bitsOf at hpd hcond
    unfold iwRd bitsOf
    omega
  simp [hop, hra, himm, hrd]

theorem cmpi_predicateResult (s : State) (c : Nat) (ra : BitVec 5) (imm : BitVec 16) (pd : BitVec 3) (cond : BitVec 2) :
    PredicateResult (.cmpi c pd cond ra imm) s c (0x0D#6 ++ pd ++ cond ++ ra ++ imm) pd
      (cmpiOp cond ((s.core c).rg ra) (imm.signExtend 64)) :=
  predicateResult_of_setP (val := fun k => cmpiOp cond (k.rg ra) (sext imm)) rfl (isCmpi_word pd cond ra imm)

theorem plog_predicateResult (s : State) (c : Nat) (rd ra rb : BitVec 5) (func : BitVec 11) :
    PredicateResult (.plog c rd ra rb func) s c (0x0E#6 ++ rd ++ ra ++ rb ++ func) (rd.setWidth 3)
      (plogOp (func.toNat % 4) ((s.core c).pr (ra.setWidth 3)) ((s.core c).pr (rb.setWidth 3))) :=
  predicateResult_of_setP (val := fun k => plogOp (func.toNat % 4) (k.pr (ra.setWidth 3)) (k.pr (rb.setWidth 3))) rfl
    (isA_word 0x0E#6 rd ra rb func)

/-- Settles O12: each instruction issues one predicate write; its value is read off condition by condition. -/
theorem predicatesCompute : Obligations.PredicatesCompute := by
  unfold Obligations.PredicatesCompute
  intro s c rd ra rb func imm pd cond a b x pr
  refine ⟨?cmp, ?cmpi, ?plog⟩
  case cmp =>
    refine ⟨cmpOp (func.toNat % 8) a b, _, cmp_predicateResult s c rd ra rb func, ?eq, ?ne, ?lt, fun h => ?ge, ?ltu,
      fun h => cmpOp_ge_unsigned h a b, ?alone, ?and, fun h => combine_or h _ _⟩
    case ge => rw [h]; exact cmpOp_ge_signed a b
    all_goals intro h; rw [h]; rfl
  case cmpi =>
    refine ⟨_, cmpi_predicateResult s c ra imm pd cond, ?_, ?_, ?_, ?_⟩
    all_goals rintro rfl; rfl
  case plog =>
    refine ⟨_, plog_predicateResult s c rd ra rb func, ?_, ?_, ?_, ?_⟩
    all_goals intro h; rw [h]; rfl

/-! ## The loops that a taken branch leaves (R223) -/

/-- Whether a loop's body holds an address. -/
def bodyHolds (t : Nat) (f : LoopFrame) : Bool := decide (f.start ≤ t) && decide (t ≤ f.last)

/-- The loops that stay: listed innermost first, they are the longest terminal segment whose bodies hold the target. -/
def staying (t : Nat) (fs : List LoopFrame) : List LoopFrame := (fs.reverse.takeWhile (bodyHolds t)).reverse

/-- The loops that end: those before the terminal segment that stays. -/
def leaving (t : Nat) (fs : List LoopFrame) : List LoopFrame := (fs.reverse.dropWhile (bodyHolds t)).reverse

theorem leaving_append_staying (t : Nat) (fs : List LoopFrame) : leaving t fs ++ staying t fs = fs := by
  rw [leaving, staying, ← List.reverse_append, List.takeWhile_append_dropWhile, List.reverse_reverse]

/-- A loop stays where every loop entered before it stays and its own body holds the target. -/
theorem leaving_cons (t : Nat) (f : LoopFrame) (fs : List LoopFrame) :
    leaving t (f :: fs) = if leaving t fs = [] ∧ bodyHolds t f = true then [] else f :: leaving t fs := by
  simp only [leaving, List.reverse_cons, List.dropWhile_append, List.reverse_eq_nil_iff, List.isEmpty_iff]
  by_cases hl : fs.reverse.dropWhile (bodyHolds t) = []
  · cases hf : bodyHolds t f <;> simp [hl, hf]
  · simp [hl]

theorem staying_cons (t : Nat) (f : LoopFrame) (fs : List LoopFrame) :
    staying t (f :: fs) = if leaving t fs = [] ∧ bodyHolds t f = true then f :: fs else staying t fs := by
  have happ := leaving_append_staying t (f :: fs)
  rw [leaving_cons] at happ
  split at happ
  case isTrue h => rw [if_pos h]; exact happ
  case isFalse h =>
    rw [if_neg h]
    exact List.append_cancel_left ((List.cons.inj happ).2.trans (leaving_append_staying t fs).symm)

theorem take_length_sub_staying (t : Nat) (fs : List LoopFrame) :
    fs.take (fs.length - (staying t fs).length) = leaving t fs := by
  have happ := leaving_append_staying t fs
  have hlen := congrArg List.length happ
  rw [List.length_append] at hlen
  calc fs.take (fs.length - (staying t fs).length)
      = (leaving t fs ++ staying t fs).take (leaving t fs).length := by rw [happ, ← hlen, Nat.add_sub_cancel]
    _ = leaving t fs := List.take_left

/-- What the recursion of `endLoops` answers, outermost loop first: the loops that stay and the counters of those that end. -/
theorem endLoops_eq (t : Nat) (fs : List LoopFrame) : endLoops t fs = (staying t fs, (leaving t fs).map LoopFrame.n) := by
  induction fs with
  | nil => rfl
  | cons f fs ih =>
    have hcond : (((leaving t fs).map LoopFrame.n).isEmpty && f.start ≤ t && t ≤ f.last) = true ↔
        leaving t fs = [] ∧ bodyHolds t f = true := by
      simp only [bodyHolds, Bool.and_eq_true, List.isEmpty_iff, List.map_eq_nil_iff, and_assoc]
    simp only [endLoops, ih, staying_cons, leaving_cons, hcond]
    split
    case isTrue hstay =>
      have hfs : staying t fs = fs := by
        have happ := leaving_append_staying t fs
        rwa [hstay.1] at happ
      rw [hfs]; rfl
    case isFalse => rfl

/-- Counters after the ends of loops. -/
theorem getElem_foldl_endCounter (ns : List Nat) (lc : Vector Word 4) (n : Fin 4) :
    (ns.foldl (fun l m => l.setIfInBounds m 0) lc)[n] = if ns.any (fun m => m == n.val) then 0 else lc[n] := by
  induction ns generalizing lc with
  | nil => rfl
  | cons m ns ih =>
    rw [List.foldl_cons, ih]
    by_cases hm : m = n.val <;> simp [hm]

theorem Core.jump_loops (k : Core) (t : Nat) : (k.jump t).loops = staying t k.loops :=
  congrArg Prod.fst (endLoops_eq t k.loops)

theorem Core.jump_lc (k : Core) (t : Nat) (n : Fin 4) :
    (k.jump t).lc[n] = if (leaving t k.loops).any (fun f => f.n == n.val) then 0 else k.lc[n] := by
  have hlc : (k.jump t).lc = (endLoops t k.loops).2.foldl (fun l m => l.setIfInBounds m 0) k.lc := rfl
  rw [hlc, endLoops_eq, getElem_foldl_endCounter, List.any_map]
  rfl

@[simp] theorem Core.jump_pc (k : Core) (t : Nat) : (k.jump t).pc = BitVec.ofNat 14 t := rfl

@[simp] theorem Core.rg_jump (k : Core) (t : Nat) (r : BitVec 5) : (k.jump t).rg r = k.rg r := rfl

@[simp] theorem Core.setG_loops (k : Core) (r : BitVec 5) (v : Reg) : (k.setG r v).loops = k.loops := by
  unfold Core.setG; split <;> rfl

@[simp] theorem Core.setG_lc (k : Core) (r : BitVec 5) (v : Reg) : (k.setG r v).lc = k.lc := by
  unfold Core.setG; split <;> rfl

/-- A taken branch with its link changes no other part of its core. -/
theorem Core.jump_setG (k : Core) (r : BitVec 5) (v : Reg) (t : Nat) :
    let k' := (k.setG r v).jump t
    k' = { k with g := k'.g, pc := k'.pc, loops := k'.loops, lc := k'.lc } := by
  unfold Core.setG; split <;> rfl

/-- A core that takes a branch, having written a link, ends the loops that R223 says. -/
theorem branches_setCore_jump (s : State) (c : Nat) (r : BitVec 5) (v : Reg) {t : Nat} (ht : t < 16384) :
    Branches s (s.setCore c (((s.core c).setG r v).jump t)) c t := by
  unfold Branches
  rw [State.core_setCore_same]
  refine ⟨Nat.mod_eq_of_lt ht, ?_, fun n => ?_⟩
  · rw [Core.jump_loops, Core.setG_loops]
    rfl
  · rw [Core.jump_lc, Core.setG_loops, Core.setG_lc, ← take_length_sub_staying]
    rfl

/-! ## Branches and jumps (R219, R220) -/

/-- The fields of a BR word. -/
theorem isBr_word (l n : Bool) (p : BitVec 3) (off : BitVec 21) :
    let w : Word := 0x20#6 ++ BitVec.ofBool l ++ BitVec.ofBool n ++ p ++ off
    (iwOp w = 0x20 && bitOf w.toNat 25 == l && bitOf w.toNat 24 == n && bitsOf w.toNat 21 3 == p.toNat &&
      bitsOf w.toNat 0 21 == off.toNat) = true := by
  intro w
  have hop : iwOp w = 0x20 := br_o 0x20#6 _ _ p off
  have hl : bitOf w.toNat 25 = l := bitOf_br_l 0x20#6 l n p off
  have hn : bitOf w.toNat 24 = n := bitOf_br_n 0x20#6 l n p off
  have hp : bitsOf w.toNat 21 3 = p.toNat := br_p 0x20#6 _ _ p off
  have hoff : bitsOf w.toNat 0 21 = off.toNat := br_off 0x20#6 _ _ p off
  simp [hop, hl, hn, hp, hoff]

/-- The fields of a JR word; it names neither rb nor func. -/
theorem isJr_word (rd ra rb : BitVec 5) (func : BitVec 11) :
    let w : Word := 0x21#6 ++ rd ++ ra ++ rb ++ func
    (iwOp w = 0x21 && iwRd w = rd.toNat && iwRa w = ra.toNat) = true := by
  intro w
  simp [w]

/-- The target of BR: the signed word offset from the branch itself, modulo 16,384. -/
def brTarget (k : Core) (off : BitVec 21) : Nat := (((k.pc.toNat : Int) + off.toInt) % 16384).toNat

theorem brTarget_lt (k : Core) (off : BitVec 21) : brTarget k off < 16384 := by
  unfold brTarget
  omega

/-- BR: its link goes to g31 with L, and to the discarding g0 without it. -/
theorem exec_br {s : State} {c : Nat} {l n : Bool} {p : BitVec 3} {off : BitVec 21}
    (h : Ready s c (0x20#6 ++ BitVec.ofBool l ++ BitVec.ofBool n ++ p ++ off)) :
    let k := s.core c
    exec (.br c l n p off) s = .next (s.setCore c
      (if k.pr p = n then k.advance else (k.setG (if l then 31 else 0) k.link).jump (brTarget k off))) := by
  intro k
  have hexec : exec (.br c l n p off) s = .next (if k.pr p != n
      then s.setCore c ((if l then k.setG 31 k.link else k).jump (brTarget k off)) else s.setCore c k.advance) :=
    congrArg _ (State.issue_ready h (isBr_word l n p off))
  rw [hexec]
  by_cases hp : k.pr p = n
  · simp [hp]
  · rw [if_pos (bne_iff_ne.mpr hp), if_neg hp]; cases l <;> rfl

/-- What BR leaves in the registers. -/
theorem rg_brLink (k : Core) (l : Bool) (r : BitVec 5) :
    (k.setG (if l then 31 else 0) k.link).rg r = if l = true ∧ r = 31 then k.link else k.rg r := by
  cases l
  · rfl
  · rw [Core.rg_setG]
    by_cases hr : r = 0
    · subst hr; rfl
    · rw [if_neg hr]; simp

/-- JR: the link goes to g[rd]; the target is read before. -/
theorem exec_jr {s : State} {c : Nat} {rd ra rb : BitVec 5} {func : BitVec 11}
    (h : Ready s c (0x21#6 ++ rd ++ ra ++ rb ++ func)) :
    let k := s.core c
    exec (.jr c rd ra) s = .next (s.setCore c ((k.setG rd k.link).jump ((k.rg ra).toNat % 16384))) :=
  congrArg _ (State.issue_ready h (isJr_word rd ra rb func))

/-- Settles O16: both are one update of the core, the next word or a link with `Core.jump`, whose loops and counters
`branches_setCore_jump` gives. -/
theorem branchesJump : Obligations.BranchesJump := by
  unfold Obligations.BranchesJump
  intro s c l n p off rd ra rb func k link
  refine ⟨fun h => ⟨_, exec_br h, onlyCore_setCore _ _ _, fun hp => ?next, fun hp => ?taken⟩,
    fun h => ⟨_, exec_jr h, onlyCore_setCore _ _ _, ?ends, ?frame, fun r => ?link⟩⟩
  case next => rw [State.core_setCore_same, if_pos hp]
  case taken =>
    rw [if_neg hp, State.core_setCore_same]
    refine ⟨branches_setCore_jump _ _ _ _ (brTarget_lt _ _), Core.jump_setG _ _ _ _, fun r => ?_⟩
    rw [Core.rg_jump]
    exact rg_brLink k l r
  case ends => exact branches_setCore_jump _ _ _ _ (Nat.mod_lt _ (by decide))
  case frame =>
    rw [State.core_setCore_same]
    exact Core.jump_setG _ _ _ _
  case link =>
    rw [State.core_setCore_same, Core.rg_jump]
    exact Core.rg_setG _ _ _ _

end Sys2Proof.Machine
end
